-- ==== Sys2Proof/Word.lean ====
section
/-! DEFINITION. The byte and the byte string of the TY8K40's interfaces: rings, buffers, blobs and registers are
strings of bytes, little-endian unless a published format says otherwise (R8). -/
namespace Sys2Proof

/-- One byte. -/
abbrev Byte := BitVec 8

/-- A string of bytes, lowest address first. -/
abbrev Bytes := List Byte

end Sys2Proof
end

