-- ==== Sys2Proof/Machine/Names.lean ====
section
/-! DEFINITION. Small named sets the commands and the state share: who writes a register, the errors of the AER log, the messages of
the ring links, the output pins and the accesses of a control core. -/
namespace Sys2Proof.Machine

/-- Who performs a register write (R11, R342): a PCIe function of the host, or firmware in the secure world. -/
inductive Writer where
  | host (fn : Nat)
  | secure
  deriving DecidableEq, Repr

/-- Errors logged through Advanced Error Reporting (R69, R47). -/
inductive AerKind where
  | correctable | unsupportedRequest | malformedTlp | flowControl | completionTimeout | unexpectedCompletion
  | completerAbort | poisonedTlp | surpriseDown
  deriving DecidableEq, Repr

/-- The classes of R69. -/
inductive AerClass where
  | correctable | nonFatal | fatal
  deriving DecidableEq, Repr

/-- Messages of the ring links, by the manual's names (R313 to R329 and the chapters that send them). -/
inductive RingKind where
  | discover | heartbeat | failing | tamper | mirror | mirrorAck | fwdReq | fwdCpl | steer | minute | epoch | rekey
  | serveMap | report | declared | esk | share | handback | standby | ensembleReset | tinStage | tinActivate | tinDelta
  | tinDiscard | archiveBump | lcsRequest | curve | opPoint | tenant | identity | state | joinRoot | ceremony | domain
  deriving DecidableEq, Repr

/-- The die's two output pins (R370, R404). -/
inductive PinName where
  | tamperOutN | pwrReqN
  deriving DecidableEq, Repr

/-- A die found by discovery (R317): its position and its lead strap. -/
structure FoundDie where
  pos : Nat
  lead : Bool
  deriving DecidableEq, Repr

/-- What a die answers the lead die at ensemble start (R162, R227, R228, R310, R318): position, die identity, life-cycle state,
configuration digest, its archive epoch, and its share record: x, SHARE_GEN, check value and share, empty when it has lost it. A die that
holds a record of a generation not committed answers a second time with that record (R248). -/
structure DiePart where
  pos : Nat
  ident : Bytes
  lcs : Nat
  digest : Bytes
  archive : Nat
  x : Nat
  gen : Nat
  check : Bytes
  share : Bytes
  deriving DecidableEq, Repr

/-- Ensemble-level state that the lead die tells a die at its start (R18, R321): the table minute, the ticket and archive epochs, the
ceremony serial, the steering table (empty where it stands at its reset values), the standby map as tenant and standby, and the TEN_GEN and
VGEN tables as tenant and generation. -/
structure EnsCopy where
  minute : Nat
  ticket : Nat
  archive : Nat
  serial : Nat
  steer : List Nat
  standby : List (Nat × Nat)
  gens : List (Nat × Nat)
  vgens : List (Nat × Nat)
  deriving DecidableEq, Repr

/-- What reaches a die for its ensemble start (R320). On the lead die: the answers of the other dies found, in `parts`. On any
other die, what the lead die sends: the size, the positions of the strapped lead and of the die that performs lead duties, a configuration
fault or 0, the serve map, the identities
founded, its ensemble-level state, and the lead's bank where the digests differ. -/
structure StartMsg where
  parts : List DiePart
  size : Nat
  lead : Nat
  acting : Nat
  fault : Nat
  serve : Nat
  idents : List Bytes
  copy : EnsCopy
  bank : Bytes
  deltas : List Bytes
  deriving DecidableEq, Repr

/-- What a host read that failed was for (R64, R69). -/
inductive HostRead where
  | descriptor (fn pair : Nat)
  | buffer (rid : Nat)
  | store (rid : Nat)
  /-- a completion that nothing asked for -/
  | unexpected
  deriving DecidableEq, Repr

/-- Instructions of the test access port (R424, R429). -/
inductive TapIns where
  | idcode
  | lcsState
  | lcsSerial
  | dbgChallenge
  /-- a write of DBG_CTL through the port (R426, R428) -/
  | dbgNewChallenge
  | dbgRevoke
  /-- one LCS_SUBMIT input with its KIND in the first byte -/
  | mailbox (input : Bytes)
  /-- an access of the debug master -/
  | debugMaster (addr len : Nat) (write : Bool) (data : Bytes)
  /-- the debugger halts a control core, lets it run on, or runs one instruction of it (R424) -/
  | haltCore (core : Nat)
  | resumeCore (core : Nat)
  | stepCore (core : Nat)
  /-- scan chains, memory built-in tests and on-die memories -/
  | scan (data : Bytes)
  deriving DecidableEq, Repr

/-- What a control core does in memory (R344 to R347): a load of up to 8 bytes into a general register, a store of bytes, in user mode
where `user` says so; in the hypervisor, an entry of a guest's second-stage translation; in the secure world, the host bus address or the
register page that a window page points at. Addresses of a guest are those it uses, before that translation. -/
inductive CoreAccess where
  | load (core reg addr size : Nat) (user : Bool)
  | store (core addr : Nat) (data : Bytes) (user : Bool)
  | map (core guest from_ page : Nat)
  | window (core page : Nat) (onDie : Bool) (target : Nat)
  deriving DecidableEq, Repr

end Sys2Proof.Machine
end

