-- ==== Sys2Proof/Syntax.lean ====
section
/-! DEFINITION. The commands of the block: one constructor for each row of spec/opcode_table.json, in its order. A
request of the rings (families 0x1 to 0xF) is named by `rid`, the identifier DESCRIPTOR_FETCH gave it when it read its
descriptor; its operands lie in that descriptor. A command that reports an event of the world around the die, or the
end of work inside it, carries what that event decides (a sample, a check's result, a message). -/
namespace Sys2Proof

open Machine

inductive Instr where
  /-- REGISTER_WRITE (R11): A host write to a register field that has no behaviour of its own sets, clears or
  ignores the field according to its access code. -/
  | registerWrite (w : Writer) (off : Nat) (size : Nat) (value : Nat)
  /-- MMIO_BAD_ACCESS (R47): An MMIO access of a size or alignment other than 4 or 8 bytes naturally aligned
  completes with Completer Abort and is logged through AER. -/
  | mmioBadAccess (fn : Nat) (off : Nat) (size : Nat) (write : Bool)
  /-- LINK_UP (R42): UCIe mainband training completes, the Data Link Layer comes up, LINK_UP is set and
  configuration requests are answered with Request Retry Status until the physical function is ready. -/
  | linkUp (rate : Nat) (tx : Nat) (rx : Nat) (received : Option Nat)
  /-- LINK_TRAIN_FAIL (R39): Training fails at one rate and the die tries the next lower rate, or at 16 GT/s sets
  TRAIN_FAIL and records an event. -/
  | linkTrainFail (rate : Nat)
  /-- LINK_TRAIN_RETRY (R39): The 10 ms retry timer after a failed training at 16 GT/s expires and the die trains
  again. -/
  | linkTrainRetry
  /-- RETRAIN (R39): A write of 1 to HLK_CTL.RETRAIN starts a retrain of the host link, and the die clears the bit
  when training ends. -/
  | retrain (rate : Nat) (tx : Nat) (rx : Nat)
  /-- LANE_REPAIR_RETRAIN (R40): A data lane fails while the link runs, and the die retrains with repair, stopping
  traffic for at most 50 µs without failing any request. -/
  | laneRepairRetrain (rate : Nat) (tx : Nat) (rx : Nat)
  /-- LINK_DOWN (R70): The Data Link Layer goes down, and the die sets DOWN, stops fetching, discards work in flight
  and handles every function as if it had received an FLR. -/
  | linkDown (received : Option Nat)
  /-- CORRECTABLE_ERROR (R69): A correctable link error, such as a bad flit or a replay timeout, is received and
  counted in HLK_CORR_COUNT. -/
  | correctableError
  /-- UNSUPPORTED_REQUEST (R69): An Unsupported Request is received and logged with its header as an uncorrectable
  non-fatal error. -/
  | unsupportedRequest (header : Bytes)
  /-- MALFORMED_TLP (R69): A malformed TLP or a flow-control protocol error is received, logged as fatal, and the
  link is retrained. -/
  | malformedTlp (header : Bytes) (flow : Bool)
  /-- COMPLETION_TIMEOUT (R69): A non-posted request of the die times out or an unexpected completion arrives; the
  event is logged and handled as a failed host read. -/
  | completionTimeout (header : Bytes) (what : HostRead)
  /-- DESCRIPTOR_READ_ERROR (R64): A descriptor read completes with an error, poisoned data or a timeout, and the
  pair enters ERROR with ERR_CODE 0x03. -/
  | descriptorReadError (fn : Nat) (pair : Nat) (poison : Option Bytes)
  /-- BUFFER_READ_ERROR (R64): A buffer read of a request completes with an error, poisoned data or a timeout, and
  the request completes ACCESS_FAULT. -/
  | bufferReadError (rid : Nat) (poison : Option Bytes)
  /-- STORE_READ_ERROR (R64): A Millefeuille bucket, handle-slot or version-block read completes with an error,
  poisoned data or a timeout, and the request completes BUSY. -/
  | storeReadError (rid : Nat) (poison : Option Bytes)
  /-- VF_ENABLE (R45): VF Enable is set; virtual functions answer configuration requests within 1 ms, and the enable
  of each unassigned function records one event. -/
  | vfEnable
  /-- MSIX_VECTOR_UNMASK (R68): A masked vector whose pending bit is set is unmasked, and the die sends the pending
  message. -/
  | msixVectorUnmask (fn : Nat) (vec : Nat)
  /-- FUNCTION_LEVEL_RESET (R281): A PCIe FLR of a function stops DMA writes for it, ends its work ABORTED
  internally without replies, and starts the drain and clearing of a tenant reset. -/
  | functionLevelReset (fn : Nat)
  /-- QUE_REQ_TAIL_DB (R51): A write to the request tail doorbell is checked against the head and the last accepted
  tail, either putting the pair into ERROR or starting fetches within 200 ns. -/
  | queReqTailDb (fn : Nat) (pair : Nat) (tail : Nat)
  /-- QUE_RPL_HEAD_DB (R50): A write to the reply head doorbell returns reply space, which may let the die fetch
  further requests on the pair. -/
  | queRplHeadDb (fn : Nat) (pair : Nat) (head : Nat)
  /-- QUE_NTF_HEAD_DB (R60): A write to the notification head doorbell returns notification space, after which the
  die writes any pending NOTIFY_LOST entry. -/
  | queNtfHeadDb (fn : Nat) (head : Nat)
  /-- DESCRIPTOR_FETCH (R50): The queue manager fetches a request descriptor from a RUNNING pair when reply space
  allows, and the request is then handled by its opcode. -/
  | descriptorFetch (fn : Nat) (pair : Nat)
  /-- PAIR_ENABLE (R53): Setting QUE_PAIR_CTL.ENABLE checks size and DMA regions, and either runs the pair with both
  indices at 0 or puts it into ERROR with ERR_CODE 0x05. -/
  | pairEnable (fn : Nat) (pair : Nat) (value : Nat)
  /-- PAIR_DISABLE (R54): Clearing QUE_PAIR_CTL.ENABLE stops fetching, moves the pair to DRAINING, and completes its
  fetched requests as a quiesce does. -/
  | pairDisable (fn : Nat) (pair : Nat)
  /-- PAIR_DRAIN_DONE (R54): The last fetched request of a draining pair replies, and the pair reaches DISABLED. -/
  | pairDrainDone (fn : Nat) (pair : Nat)
  /-- NTF_ENABLE (R60): Setting QUE_NTF_CTL.ENABLE checks size and DMA regions, and either starts the notification
  ring or leaves ENABLE at 0 and raises the tenant error vector. -/
  | ntfEnable (fn : Nat) (value : Nat)
  /-- NTF_DISABLE (R60): Clearing QUE_NTF_CTL.ENABLE stops notification writes, and later entries are counted in
  QUE_NTF_LOST. -/
  | ntfDisable (fn : Nat)
  /-- RPL_IRQ_TIMER (R68): QUE_RPL_IRQ.TIME elapses since the first uncovered reply, and the pair's vector is
  signalled. -/
  | rplIrqTimer (fn : Nat) (pair : Nat)
  /-- NTF_IRQ_TIMER (R68): QUE_NTF_CTL.IRQ_TIME elapses after the first entry since the last message, and the
  notification vector is signalled for every entry written meanwhile. -/
  | ntfIrqTimer (fn : Nat)
  /-- BAD_DESCRIPTOR_OPCODE (R14): A descriptor with a reserved family, an undefined operation, or a management
  opcode on a virtual function completes BAD_DESCRIPTOR with no other effect. -/
  | badDescriptorOpcode (rid : Nat)
  /-- ESP_IN (R22): An inbound ESP packet is parsed, steered, looked up, checked against its anti-replay window,
  decrypted and verified, and its payload is written. -/
  | espIn (rid : Nat)
  /-- ESP_OUT (R83): An outbound payload is assigned the next sequence number, padded, encrypted and tagged, and the
  ESP packet is written. -/
  | espOut (rid : Nat)
  /-- DTLS_IN (R85): An inbound DTLS 1.3 record in unified header form is decoded, checked against its epoch and
  window, decrypted, and its content is returned. -/
  | dtlsIn (rid : Nat)
  /-- DTLS_OUT (R88): Outbound content is built into a DTLS 1.3 record with the next sequence number and record
  number encryption. -/
  | dtlsOut (rid : Nat)
  /-- AEAD_SEAL (R102): A raw AEAD seal with a key handle and parameter block encrypts held or streamed plaintext
  and writes the ciphertext and tag. -/
  | aeadSeal (rid : Nat)
  /-- AEAD_OPEN (R103): A raw AEAD open decrypts and verifies held or streamed ciphertext and writes the plaintext. -/
  | aeadOpen (rid : Nat)
  /-- HASH (R101): A hash request computes a digest or XOF output over its input on the hash lanes. -/
  | hash (rid : Nat)
  /-- HMAC_GEN (R101): An HMAC request computes a MAC over the message under a key handle with the usage sign. -/
  | hmacGen (rid : Nat)
  /-- HMAC_VERIFY (R101): An HMAC verification compares, in constant time, the computed MAC with the expected MAC at
  OUT_ADDR and completes OK or AUTH_FAIL. -/
  | hmacVerify (rid : Nat)
  /-- AEAD_CANCEL (R108): A cancel of the tenant's raw AEAD and hash requests with a given TAG removes waiting ones
  and stops streamed ones at their next boundary. -/
  | aeadCancel (rid : Nat)
  /-- RING_FWD_REQ (R23): A forwarded record arrives at its home die, which forwards it again or performs steps 4 to
  9 and writes the output through its own host link. -/
  | ringFwdReq (src : Nat) (msg : Nat) (hops : Nat) (tenant : Nat) (desc : Bytes) (input : Bytes)
  /-- FLUSH_READ_DONE (R57): The zero-length read that follows the home die's output writes completes, and the die
  sends the completion over the ring. -/
  | flushReadDone (rid : Nat)
  /-- RING_FWD_CPL (R57): A forwarding completion arrives at the receiving die, which writes the reply. -/
  | ringFwdCpl (src : Nat) (msg : Nat) (body : Bytes)
  /-- BUCKET_READ_COMPLETE (R145): A bucket read from the slice returns; the die verifies the tree path and the
  slots, unseals them and continues the lookup. -/
  | bucketReadComplete (rid : Nat)
  /-- INTERLOCK_GRANTED (R121): A waiting change or lookup is granted the interlock of its bucket, in request order,
  and proceeds. -/
  | interlockGranted (bucket : Nat)
  /-- BUCKET_WAIT_TIMEOUT (R137): A record lookup, learning or table access waiting 2 µs on a locked bucket
  completes BUSY. -/
  | bucketWaitTimeout (rid : Nat)
  /-- LANE_RECORD_DONE (R89): A lane finishes a held record or object and the die releases it after its tag and
  shadow checks, updating the window atomically and writing output, or zeroizing the hold. -/
  | laneRecordDone (rid : Nat) (kind : Nat)
  /-- STREAM_CHUNK_DONE (R103): A 64 KiB chunk of a streamed job completes on its lane; the output is written, and
  the job continues, stops at the boundary for quiesce or cancel, or checks or writes the tag. -/
  | streamChunkDone (rid : Nat) (kind : Nat)
  /-- SCRUB_CHUNK_DONE (R105): A 64 KiB scrub chunk of a failed AEAD_OPEN completes, and the scrub continues, ends
  at a quiesce, or the reply with SCRUBBED is written. -/
  | scrubChunkDone (rid : Nat)
  /-- LANE_QUARANTINE_CMD (R97): A write of LANE_CTL.QUARANTINE quarantines the lane as a third mismatch would. -/
  | laneQuarantineCmd (lane : Nat)
  /-- LANE_RELEASE_CMD (R98): A write of LANE_CTL.RELEASE to a quarantined lane starts its 50 µs known-answer test. -/
  | laneReleaseCmd (lane : Nat)
  /-- LANE_KAT_DONE (R98): A lane's known-answer test ends, returning the lane to service with its history cleared
  or leaving it quarantined with KAT_FAIL. -/
  | laneKatDone (lane : Nat) (pass : Bool)
  /-- HASH_QUARANTINE_CMD (R100): A write of HASH_CTL.QUARANTINE quarantines the hash lane. -/
  | hashQuarantineCmd (lane : Nat)
  /-- HASH_RELEASE_CMD (R100): A write of HASH_CTL.RELEASE to a quarantined hash lane starts its known-answer test. -/
  | hashReleaseCmd (lane : Nat)
  /-- HASH_KAT_DONE (R100): A hash lane's known-answer test ends with a pass or a failure. -/
  | hashKatDone (lane : Nat) (pass : Bool)
  /-- HASH_BLOCK_DONE (R100): A hash lane finishes a chunk of work with its duplicated rounds compared, continuing
  or completing the request. -/
  | hashBlockDone (rid : Nat) (kind : Nat)
  /-- REC_STEER_WRITE (R81): The ensemble manager writes a steering entry on the lead die, which records the
  previous position and propagates the entry to every die. -/
  | recSteerWrite (index : Nat) (pos : Nat)
  /-- STEER_UPDATE_RECEIVED (R81): A propagated steering entry reaches a die, which updates its copy. -/
  | steerUpdateReceived (index : Nat) (pos : Nat) (valid : Bool)
  /-- TBL_LOCK (R136): A table lock request locks the home bucket of a session for the tenant, or completes
  LIMIT_REACHED or BUSY. -/
  | tblLock (rid : Nat)
  /-- TBL_UNLOCK (R136): A table unlock releases the tenant's lock on the session's home bucket, letting waiting
  lookups proceed. -/
  | tblUnlock (rid : Nat)
  /-- TBL_FIND (R134): A table find looks up a searchable session by identifier and returns its handle. -/
  | tblFind (rid : Nat)
  /-- TBL_READ (R135): A table read writes the 64-byte public view of a session. -/
  | tblRead (rid : Nat)
  /-- TBL_UPDATE (R134): A table update sets or clears NO_AGE and may refresh LAST_SEEN under the interlock. -/
  | tblUpdate (rid : Nat)
  /-- TBL_DELETE (R138): A table delete marks the session deleted under the interlock and waits for its records in
  flight. -/
  | tblDelete (rid : Nat)
  /-- TBL_DELETE_COMPLETE (R138): The last record of a deleted session completes; the die zeroizes its slots,
  credits the share, relocates and completes the delete. -/
  | tblDeleteComplete (rid : Nat)
  /-- LOCK_TIMEOUT (R136): A bucket lock not released within KFT_LOCK_CTL.TIMEOUT is released by the die, which sets
  LOCK_TIMEOUT. -/
  | lockTimeout (bucket : Nat)
  /-- RELOCATE (R128): Slots of a main bucket become free and the die moves a session back from its Crumb bucket,
  raising MOVE_GEN, once the interlocks are granted. -/
  | relocate (bucket : Nat)
  /-- TABLE_MINUTE_TICK (R129): The lead die advances the table minute and broadcasts it over the ring. -/
  | tableMinuteTick
  /-- SWEEP_VISIT (R131): The sweep unit visits a bucket and removes, under the interlock, each session whose age is
  at least L + 1 or whose tenant is being removed. -/
  | sweepVisit (failed : Bool)
  /-- SWEEP_READ_RETRY (R132): At least 1 ms after a failed sweep read, the sweep reads the bucket again once within
  the pass. -/
  | sweepReadRetry (failed : Bool)
  /-- AGED_BATCH_TIMER (R133): 100 ms after the first removal of an open batch, the batch closes and its AGED
  notifications are written. -/
  | agedBatchTimer (tenant : Nat) (received : Option Bytes)
  /-- SLOT_WRITE_COMPLETE (R147): The flush read after a slot write and its level-1 block returns, the write is
  complete and the done entry is mirrored. -/
  | slotWriteComplete (wid : Nat)
  /-- MIRROR_RECEIVED (R152): A mirror holder receives a MIRROR message, applies it to its mirror area and
  acknowledges it. -/
  | mirrorReceived (src : Nat) (body : Bytes)
  /-- MIRROR_ACK (R152): A mirror acknowledgement arrives and the waiting slot write or write-back continues. -/
  | mirrorAck (n : Nat)
  /-- MIRROR_ACK_TIMEOUT (R152): The mirror holder does not acknowledge within 20 µs; the die sets MIRROR_LOST,
  clears MIRROR_OK, raises vector 27 and continues unmirrored. -/
  | mirrorAckTimeout (n : Nat)
  /-- RESEAL_CHILD_DONE (R150): A child of a block under re-seal is read, verified and written under the new
  version, and when all 31 are done the block itself is written. -/
  | resealChildDone (level : Nat) (index : Nat) (child : Nat) (failed : Bool)
  /-- POISON_REFORMAT (R159): Setting MLF_POISON_CTL.REFORMAT on a non-empty entry starts reformatting that poisoned
  range. -/
  | poisonReformat (index : Nat)
  /-- POISON_REFORMAT_DONE (R159): A reformat finishes rewriting its range empty, and the poison entry is emptied. -/
  | poisonReformatDone
  /-- ARCHIVE_BUMP (R162): A write of MLF_ARCHIVE_CTL with CONFIRM 0xA5 and BUMP raises the archive epoch on every
  die, revoking earlier blobs, or is ignored and recorded. -/
  | archiveBump (confirm : Nat) (bump : Bool) (received : Option Bytes)
  /-- CON_PRIM (R180): A primitive program of up to 32 modular commands runs in its length class and stores its
  results. -/
  | conPrim (rid : Nat)
  /-- EC_KEYGEN (R167): A new EC key pair is generated; the private key goes to DEST_HANDLE and the public point is
  returned. -/
  | ecKeygen (rid : Nat)
  /-- ECDH (R167): The shared x-coordinate from KEY_HANDLE and a peer point becomes a new object at DEST_HANDLE. -/
  | ecdh (rid : Nat)
  /-- ECDSA_SIGN (R178): An ECDSA signature over a digest is computed with an RFC 6979 value k, repeated once if r
  or s is zero. -/
  | ecdsaSign (rid : Nat)
  /-- ECDSA_VERIFY (R167): An ECDSA signature over a digest is verified under an inline key or a key handle. -/
  | ecdsaVerify (rid : Nat)
  /-- EDDSA_SIGN (R176): An Ed25519 signature is computed with its SHA-512 passes on the hash lanes. -/
  | eddsaSign (rid : Nat)
  /-- EDDSA_VERIFY (R176): An Ed25519 signature is verified after its SHA-512 pass. -/
  | eddsaVerify (rid : Nat)
  /-- X25519_KEYGEN (R170): X25519 with KEYGEN set creates a private key at DEST_HANDLE and returns the public
  u-coordinate. -/
  | x25519Keygen (rid : Nat)
  /-- X25519_AGREE (R170): X25519 with KEYGEN clear places the shared secret with a peer u-coordinate at
  DEST_HANDLE. -/
  | x25519Agree (rid : Nat)
  /-- RSA_PRIV (R177): An RSA CRT private operation with blinding and padding produces a signature or a decryption. -/
  | rsaPriv (rid : Nat)
  /-- RSA_PUB (R170): A raw RSA public operation returns input^e mod n. -/
  | rsaPub (rid : Nat)
  /-- CURVE_LOAD (R193): A domain-parameter record is checked in full and, when it passes, installed under the
  lowest free identifier. -/
  | curveLoad (rid : Nat)
  /-- CURVE_UNLOAD (R194): A loaded curve is removed from its fetch on and the unload completes after earlier jobs
  naming it. -/
  | curveUnload (rid : Nat)
  /-- POINT_CHECK (R174): A point is fully validated against the curve. -/
  | pointCheck (rid : Nat)
  /-- CON_CANCEL (R187): A cancel of the tenant's Constantan jobs with a given TAG removes waiting jobs and stops
  running or preempted ones. -/
  | conCancel (rid : Nat)
  /-- CON_DISPATCH (R186): A waiting Constantan job whose operands and random values are loaded starts on a core by
  the dispatch rules. -/
  | conDispatch (core : Nat)
  /-- CON_YIELD_POINT (R185): A long job reaches a yield point where a waiting short job preempts it, or an abort or
  quiesce stops it. -/
  | conYieldPoint (rid : Nat)
  /-- CON_JOB_DONE (R172): A Constantan job finishes its fixed time, passes or fails its fault checks, and stores
  its result or zeros. -/
  | conJobDone (rid : Nat) (kind : Nat)
  /-- CON_QUARANTINE_CMD (R190): A write of CON_CORE_CTL.QUARANTINE quarantines the core. -/
  | conQuarantineCmd (core : Nat)
  /-- CON_RELEASE_CMD (R190): A write of CON_CORE_CTL.RELEASE to a quarantined core starts its 200 µs known-answer
  test. -/
  | conReleaseCmd (core : Nat)
  /-- CON_KAT_DONE (R190): A core's known-answer test ends with return to service or KAT_FAIL. -/
  | conKatDone (core : Nat) (pass : Bool)
  /-- MLKEM_KEYGEN (R197): An ML-KEM key pair is generated, the seed becomes the object at DEST_HANDLE and the
  encapsulation key is returned. -/
  | mlkemKeygen (rid : Nat)
  /-- MLKEM_ENCAPS (R200): An encapsulation key is checked and encapsulated to, returning the ciphertext and placing
  the shared secret at DEST_HANDLE. -/
  | mlkemEncaps (rid : Nat)
  /-- MLKEM_DECAPS (R200): A ciphertext is decapsulated with implicit rejection, placing the shared secret at
  DEST_HANDLE. -/
  | mlkemDecaps (rid : Nat)
  /-- MLDSA_KEYGEN (R197): An ML-DSA key pair is generated, the seed becomes the object at DEST_HANDLE and the
  public key is returned. -/
  | mldsaKeygen (rid : Nat)
  /-- MLDSA_SIGN (R201): A hedged ML-DSA signature is computed over the context string and message in as many
  attempts as needed. -/
  | mldsaSign (rid : Nat)
  /-- MLDSA_VERIFY (R200): An ML-DSA signature is verified under an inline public key. -/
  | mldsaVerify (rid : Nat)
  /-- NTT_CANCEL (R202): A cancel of the tenant's lattice jobs with a given TAG acts as CON_CANCEL does, using
  attempt boundaries. -/
  | nttCancel (rid : Nat)
  /-- NTT_DISPATCH (R202): A waiting lattice job starts on a lattice core by the dispatch order. -/
  | nttDispatch (core : Nat)
  /-- NTT_ATTEMPT_BOUNDARY (R202): An MLDSA_SIGN reaches an attempt boundary, where a waiting ML-KEM job may take
  the core or a cancel or quiesce stops it. -/
  | nttAttemptBoundary (rid : Nat)
  /-- NTT_JOB_DONE (R202): A lattice job completes with its shadow checks passed or mismatched. -/
  | nttJobDone (rid : Nat) (kind : Nat)
  /-- NTT_QUARANTINE_CMD (R202): A write of NTT_CORE_CTL.QUARANTINE quarantines the lattice core. -/
  | nttQuarantineCmd (core : Nat)
  /-- NTT_RELEASE_CMD (R202): A write of NTT_CORE_CTL.RELEASE to a quarantined lattice core starts its 100 µs
  known-answer test. -/
  | nttReleaseCmd (core : Nat)
  /-- NTT_KAT_DONE (R202): A lattice core's known-answer test ends with a pass or a failure. -/
  | nttKatDone (core : Nat) (pass : Bool)
  /-- HS_OPEN (R206): A handshake opens a context, generates the server's shares from the peer share and forms the
  shared secret. -/
  | hsOpen (rid : Nat)
  /-- HS_ADDKE (R217): An IKEv2 additional key exchange encapsulates to the peer key and recomputes the keys. -/
  | hsAddke (rid : Nat)
  /-- HS_PROTECT (R211): One DTLS epoch-2 record or IKEv2 SK payload is protected under the context's handshake
  keys. -/
  | hsProtect (rid : Nat)
  /-- HS_UNPROTECT (R211): One DTLS epoch-2 record or IKEv2 SK payload is opened under the context's handshake keys. -/
  | hsUnprotect (rid : Nat)
  /-- HS_SIGN (R207): The server's CertificateVerify or AUTH signature is made with the tenant's long-term key. -/
  | hsSign (rid : Nat)
  /-- HS_VERIFY_PEER (R213): The peer's leaf certificate signature and proof signature are verified. -/
  | hsVerifyPeer (rid : Nat)
  /-- HS_FINISHED (R211): The server Finished is computed and appended and the server application secret is derived. -/
  | hsFinished (rid : Nat)
  /-- HS_INSTALL (R212): The client Finished is verified where applicable, traffic keys are derived and the session
  or sessions are learned. -/
  | hsInstall (rid : Nat)
  /-- HS_RESUME (R216): A DTLS PSK resumption opens a ticket, checks the binder and opens a context. -/
  | hsResume (rid : Nat)
  /-- HS_KEYUPDATE (R214): One direction of a retained DTLS session moves to its next epoch after its records in
  flight complete. -/
  | hsKeyupdate (rid : Nat)
  /-- HS_FREE (R207): A handshake context named by a valid blob is zeroized and its entry freed. -/
  | hsFree (rid : Nat)
  /-- HS_CONTEXT_IDLE_TIMEOUT (R209): A context sees no step for IDLE_S seconds and is zeroized. -/
  | hsContextIdleTimeout (ctx : Nat)
  /-- HS_CONTEXT_RETAIN_TIMEOUT (R209): A retained context sees no step for RETAIN_H hours and is zeroized. -/
  | hsContextRetainTimeout (ctx : Nat)
  /-- KEY_GENERATE (R241): A new symmetric key object is created at DEST_HANDLE from the DRBG. -/
  | keyGenerate (rid : Nat)
  /-- KEY_DERIVE (R243): A new object is derived at DEST_HANDLE from a parent key by the derivation block. -/
  | keyDerive (rid : Nat)
  /-- KEY_ATTR_SET (R242): A key object's attributes are narrowed as permitted, possibly retiring it at USES 0. -/
  | keyAttrSet (rid : Nat)
  /-- KEY_DELETE (R241): A key object or tombstone is deleted, becoming empty after its dispatched users complete. -/
  | keyDelete (rid : Nat)
  /-- KEY_INFO (R245): A 64-byte view of a key's header and fingerprint is returned. -/
  | keyInfo (rid : Nat)
  /-- KEY_EXPORT (R244): A non-volatile, uncounted key object is exported as an archive blob. -/
  | keyExport (rid : Nat)
  /-- KEY_RESTORE (R244): An archive blob is opened under the tenant's archive key and installed at its handle. -/
  | keyRestore (rid : Nat)
  /-- KEY_WRAP (R244): An exportable key object is wrapped with AES-KWP under a wrap key. -/
  | keyWrap (rid : Nat)
  /-- KEY_UNWRAP (R244): AES-KWP input is unwrapped under a key to create a new object at DEST_HANDLE. -/
  | keyUnwrap (rid : Nat)
  /-- ATTEST (R256): An attestation statement of two COSE_Sign1 structures is built and signed with both die
  identity keys. -/
  | attest (rid : Nat)
  /-- CER_BEGIN (R250): A ceremony is opened with a new serial, digest and nonce. -/
  | cerBegin (rid : Nat)
  /-- CER_APPROVE (R252): An approval token is checked and counted, and the token that reaches m causes the ceremony
  to be performed. -/
  | cerApprove (rid : Nat) (parts : List DiePart) (received : Option Bytes)
  /-- CER_CANCEL (R250): The open ceremony is closed at once. -/
  | cerCancel (rid : Nat)
  /-- CEREMONY_LAPSE (R250): 300 s after the nonce's issue, the open ceremony lapses, its nonce is zeroized and
  CEREMONY_LAPSED is set. -/
  | ceremonyLapse
  /-- RNG_DRBG (R265): A request for DRBG bytes joins the DRBG queue's fetch order. -/
  | rngDrbg (rid : Nat)
  /-- RNG_FULL_ENTROPY (R265): A request for full-entropy bytes joins the full-entropy queue's fetch order if the
  tenant is allowed. -/
  | rngFullEntropy (rid : Nat)
  /-- RNG_HEAD_SERVED (R266): The request at the head of a random queue has gathered all its bytes within its rate
  and its output is written. -/
  | rngHeadServed (full : Bool)
  /-- RNG_HOLD_TIMEOUT (R267): A request or draw held because the generator is not READY reaches 1 ms from its fetch
  and completes RNG_NOT_READY. -/
  | rngHoldTimeout (rid : Nat)
  /-- RNG_WINDOW_CLOSE (R261): An adaptive proportion window closes without failure, releasing conditioned units for
  seeding, reseeds and the full-entropy queue. -/
  | rngWindowClose (rct : List Nat) (apt : List Nat)
  /-- DRBG_QUEUE_FILL (R262): A seeded instance generates 64 bytes into the DRBG queue in rotation, reseeding after
  2^20 calls. -/
  | drbgQueueFill
  /-- DRBG_RESEED_TIMER (R262): 1 s after an instance's last reseed, its reseed becomes due. -/
  | drbgReseedTimer (inst : Nat)
  /-- RNG_HEALTH_FAIL (R268): A health test fails; queues and instances are zeroized, waiting draws complete
  RNG_FAULT and a rerun starts. -/
  | rngHealthFail (source : Nat) (apt : Bool)
  /-- RNG_RERUN_CLEAR_TIMER (R269): After 60 s in READY without a failure, RERUNS is cleared. -/
  | rngRerunClearTimer
  /-- RNG_INJECT (R270): A write of RNG_TEST.INJECT in Blank or Test-unlocked forces a repetition count failure on
  the chosen source. -/
  | rngInject (source : Nat)
  /-- RNG_RAW_READ (R270): A read of RNG_RAW drains the next 64 raw samples from the FIFO. -/
  | rngRawRead (fn : Nat)
  /-- ACTIVATE (R273): TEN_CMD ACTIVATE moves an IDLE tenant to ACTIVE with READY set. -/
  | activate (fn : Nat)
  /-- QUIESCE (R278): TEN_CMD QUIESCE stops fetching within 0.2 µs and deals with the tenant's work by kind. -/
  | quiesce (fn : Nat)
  /-- QUIESCE_DONE (R279): The last work of a quiescing tenant replies; the die writes QUIESCE_DONE notifications
  and sets the state QUIESCED. -/
  | quiesceDone (fn : Nat)
  /-- QUIESCE_LATE (R279): A quiesce not complete within 1 ms sets QUIESCE_LATE. -/
  | quiesceLate (fn : Nat)
  /-- RESUME (R273): TEN_CMD RESUME makes a QUIESCED tenant ACTIVE and fetching resumes within 1 µs. -/
  | resume (fn : Nat)
  /-- RESET (R281): TEN_CMD RESET quiesces the tenant with ABORTED replies and then performs the clearing of a
  tenant reset. -/
  | reset (fn : Nat)
  /-- TENANT_RESET_FORCED (R281): A tenant reset drain not finished 1 ms after the command or FLR is abandoned and
  FORCED is set. -/
  | tenantResetForced (fn : Nat)
  /-- TENANT_RESET_CLEAR (R282): The clearing of a tenant reset resets tenant fields, expires volatile keys,
  zeroizes contexts and makes the tenant ready. -/
  | tenantResetClear (fn : Nat)
  /-- REMOVE (R283): TEN_CMD REMOVE destroys the tenant's keys, sessions and contexts and raises TEN_GEN and VGEN. -/
  | remove (fn : Nat) (received : Option (Nat × Bool))
  /-- HANDLE_REGION_CLEAR (R283): The removed tenant's handle slots are written empty under raised versions within
  10 ms. -/
  | handleRegionClear (fn : Nat)
  /-- TEN_CMD_REFUSED (R273): A tenant command in a state not listed has no effect and CMD_RESULT reads REFUSED. -/
  | tenCmdRefused (fn : Nat) (cmd : Nat)
  /-- SCHED_EPOCH (R276): At each 100 µs epoch boundary, block capacities are taken, budgets are given, and pending
  operating-point, share and delta changes apply. -/
  | schedEpoch
  /-- MIG_LOG_START (R284): Dirty logging starts for a function into a bitmap over a tracked range. -/
  | migLogStart (rid : Nat)
  /-- MIG_HARVEST (R286): The die swaps to a new bitmap, merges cached marks of the old one and hands it back. -/
  | migHarvest (rid : Nat)
  /-- MIG_LOG_STOP (R286): Dirty logging ends and the last bitmap is handed back. -/
  | migLogStop (rid : Nat)
  /-- STEWARD_SAMPLE (R289): Every 1 ms the steward firmware samples queue depths into TEN_STEWARD_DEPTH. -/
  | stewardSample
  /-- STEWARD_OP_EVAL (R289): Every 10 ms the delegated steward evaluates waiting jobs and lane use and may change
  the operating point. -/
  | stewardOpEval (waiting : List Nat) (uses : List Nat)
  /-- STEWARD_REQUEST (R288): A steward-mode TY6C request is translated into native requests and replied to in the
  TY6C layout. -/
  | stewardRequest (rid : Nat)
  /-- TIN_STAGE (R305): A full Tin image is checked and written to the staged bank of every die. -/
  | tinStage (rid : Nat) (received : Option Bytes)
  /-- TIN_ACTIVATE (R306): The staged image is activated live or by an ensemble reset. -/
  | tinActivate (rid : Nat) (received : Option Bytes)
  /-- TIN_DELTA (R308): A delta image is checked, appended on every die and accepted. -/
  | tinDelta (rid : Nat) (received : Option Bytes)
  /-- TIN_DISCARD (R305): The staged bank is cleared on every die. -/
  | tinDiscard (rid : Nat) (received : Option Bytes)
  /-- ENS_ENVELOPE_MAKE_JOIN (R335): The lead die makes a JOIN_REQUEST envelope with fresh join keys and an
  attestation statement. -/
  | ensEnvelopeMakeJoin (rid : Nat)
  /-- ENS_ENVELOPE_MAKE_ROOT (R335): The sealed ROOT envelope for the pending admission is handed out once and the
  admission cleared. -/
  | ensEnvelopeMakeRoot (rid : Nat)
  /-- ENS_ENVELOPE_MAKE_KEY (R336): A KEY envelope carrying one exportable long-term key is made for another
  ensemble. -/
  | ensEnvelopeMakeKey (rid : Nat) (far : Bytes)
  /-- ENS_ENVELOPE_TAKE_TUPLE (R337): TUPLE envelopes are checked and accepted into the presence and mismatch maps. -/
  | ensEnvelopeTakeTuple (rid : Nat) (received : Option Bytes)
  /-- ENS_ENVELOPE_TAKE_JOIN (R335): A JOIN_REQUEST is checked and recorded as the pending admission. -/
  | ensEnvelopeTakeJoin (rid : Nat) (slot : Nat)
  /-- ENS_ENVELOPE_TAKE_ROOT (R335): A ROOT envelope is opened, fresh shares are dealt and ESK and the working keys
  are derived. -/
  | ensEnvelopeTakeRoot (rid : Nat)
  /-- ENS_ENVELOPE_TAKE_KEY (R336): A KEY envelope is checked and its object installed at the target tenant and
  handle. -/
  | ensEnvelopeTakeKey (rid : Nat)
  /-- ENS_ENVELOPE_TAKE_ACTIVATION (R339): An ACTIVATION envelope is checked and arms the lead die. -/
  | ensEnvelopeTakeActivation (rid : Nat)
  /-- ENS_REPORT (R338): The 1,536-byte domain report of presence, mismatch and tuple counts is written. -/
  | ensReport (rid : Nat)
  /-- TUPLE_PUBLISH (R334): Once per second each die writes its TUPLE envelope to its outbound ring, or counts it
  lost. -/
  | tuplePublish
  /-- PRESENCE_EXPIRE (R337): A member's presence bit clears when no tuple from it was accepted within 5 s. -/
  | presenceExpire (member : Nat)
  /-- MEMBER_QUARANTINE (R340): A mismatched member is quarantined after 10 s, or when its activation window closes. -/
  | memberQuarantine (member : Nat)
  /-- ACTIVATION_TIME (R339): At ACT_TIME the armed lead die performs TIN_ACTIVATE and commits the new epoch. -/
  | activationTime
  /-- ACTIVATION_RETRY (R339): An activation delayed by a running Tin operation is retried every 10 ms. -/
  | activationRetry
  /-- ACTIVATION_MISSED (R339): The die cannot activate by ACT_TIME + WINDOW_S, or the staged image is replaced, so
  it clears the arming. -/
  | activationMissed
  /-- LCS_SUBMIT_TRANSITION (R420): A life-cycle transition request is checked and written to NVM as pending. -/
  | lcsSubmitTransition (rid : Nat)
  /-- LCS_SUBMIT_WITHDRAW (R420): The pending life-cycle request is erased. -/
  | lcsSubmitWithdraw (rid : Nat)
  /-- LCS_SUBMIT_DEBUG_AUTH (R427): A debug authorisation naming the current challenge is checked and grants FIELD
  level for its lifetime. -/
  | lcsSubmitDebugAuth (rid : Nat)
  /-- RING_LINK_UP (R315): A ring link trains and authenticates its peer with ephemeral exchange and identity
  signatures, or is refused. -/
  | ringLinkUp (b : Bool) (chain : Bool) (lcs : Nat) (ident : Bytes) (repaired : Nat)
  /-- RING_LINK_DOWN (R316): A ring link goes down; messages take the other direction and the lead raises vector 21. -/
  | ringLinkDown (b : Bool) (received : Option Nat)
  /-- RING_FLIT_ERROR (R314): A ring flit fails the CRC or arrives out of order and is retransmitted from the replay
  buffer. -/
  | ringFlitError (b : Bool)
  /-- RING_REKEY (R315): A link rekeys after 2^32 messages. -/
  | ringRekey (b : Bool)
  /-- DISCOVER (R317): A DISCOVER message travels the ring and each die appends its position and lead strap. -/
  | discover (b : Bool) (way : Bool) (found : List FoundDie)
  /-- DISCOVERY_TIMEOUT (R317): 1,000 ms after boot completion the lead decides the ensemble size with the dies
  found. -/
  | discoveryTimeout
  /-- ENSEMBLE_START (R320): The lead die runs the ensemble start: identity check, configuration alignment, serve
  map, share combination, epochs and slice formatting. -/
  | ensembleStart (msg : StartMsg)
  /-- ESK_RECEIVED (R329): A die receives ESK over the ring and derives its store keys. -/
  | eskReceived (esk : Bytes) (dxk : Bytes) (dtk : Bytes) (returning : Bool) (found : Nat)
  /-- HEARTBEAT_TIMER (R327): Every 5 µs a die sends a HEARTBEAT flit on each connected link. -/
  | heartbeatTimer
  /-- HEARTBEAT_MISS (R327): A neighbour misses 4 heartbeats in a row and reports the die to the lead. -/
  | heartbeatMiss (b : Bool)
  /-- NEIGHBOUR_REPORT (R327): A missed-heartbeat report reaches the lead die, which may declare the position
  failed. -/
  | neighbourReport (src : Nat) (b : Bool)
  /-- FAILING_RECEIVED (R327): A FAILING message reaches the lead, which declares the position failed, or a
  DISCARD-marked one reaches the mirror holder. -/
  | failingReceived (pos : Nat) (discard : Bool)
  /-- LINK_GRACE_TIMEOUT (R327): A die's host link stays down beyond LINK_GRACE and the lead declares it failed. -/
  | linkGraceTimeout (pos : Nat)
  /-- DECLARATION_RECEIVED (R327): A declared die that still runs stops and warm-resets itself. -/
  | declarationReceived (pos : Nat)
  /-- SERVE_MAP_UPDATE (R324): A serve-map change reaches every die within 5 µs and held requests are released. -/
  | serveMapUpdate (pos : Nat) (server : Nat)
  /-- HANDBACK (R329): A write of ENS_CTL.HANDBACK makes the server of a position return its slice to the returning
  die. -/
  | handback (pos : Nat) (starting : Bool)
  /-- HANDBACK_DONE (R329): The returning die takes its slice, the serve map changes and HANDBACK_DONE is set. -/
  | handbackDone (pos : Nat) (body : Bytes)
  /-- STANDBY_WRITE (R326): A write of ENS_STANDBY sets a tenant's standby function or is refused with
  STEER_REFUSED. -/
  | standbyWrite (tenant : Nat) (valid : Bool) (standby : Nat) (idle : Bool) (received : Bool)
  /-- TAMPER_MESSAGE_RECEIVED (R379): A TAMPER ring message makes the receiving die perform the named rank within 2
  µs. -/
  | tamperMessageReceived (pos : Nat) (source : Nat) (rank : Nat)
  /-- POT_OWNER_CHANGE (R346): The secure world changes a page's owner through PENDING, invalidation, drain and
  zeroization. -/
  | potOwnerChange (page : Nat) (kind : Nat) (tenant : Nat) (before : List CoreAccess) (after : List CoreAccess)
  /-- GATE_CALL (R349): A GATE call enters another world at an entry tag, or faults. -/
  | gateCall (core : Nat) (word : Nat) (tag : Nat) (pc : Nat) (regs : List Nat)
  /-- GATE_RETURN (R350): A GATE return pops the top frame and resumes the caller. -/
  | gateReturn (core : Nat) (regs : List Nat)
  /-- WORLD_INTERRUPT (R351): An interrupt for another world is delivered as a GATE call to its vector entry. -/
  | worldInterrupt (core : Nat) (world : Nat) (guest : Nat) (pc : Nat) (regs : List Nat)
  /-- WDOG_KICK (R352): A secure-world write of 0x5A5A restarts the watchdog count. -/
  | wdogKick (value : Nat)
  /-- WDOG_EXPIRE (R352): The watchdog count reaches zero; the die records it, sends FAILING and warm-resets. -/
  | wdogExpire
  /-- HOLD_RELEASE (R353): The secure world releases a block and any deferred gating request is applied within 1 µs. -/
  | holdRelease (blocks : Nat)
  /-- MPU_COMMIT (R357): A write of MPU_COMMIT checks the shadow set and either starts the drain or refuses it. -/
  | mpuCommit (mpu : Nat)
  /-- MPU_COMMIT_EFFECT (R358): Earlier bursts have drained and the new region set takes effect. -/
  | mpuCommitEffect (mpu : Nat)
  /-- POLICY_EVAL (R364): A key's policy program runs before its use and allows or denies it. -/
  | policyEval (rid : Nat)
  /-- MESH_ALARM (R368): Four mismatched bits on a mesh pair raise the alarm with its kind. -/
  | meshAlarm (pair : Nat) (kind : Nat)
  /-- MESH_RESEED (R368): Every second the die reseeds the mesh sequences from the DRBG. -/
  | meshReseed
  /-- TAMPER_PIN_ALARM (R369): Two consecutive alarm-class samples on a tamper input raise its alarm. -/
  | tamperPinAlarm (pin : Nat) (kind : Nat)
  /-- TEMP_SAMPLE (R371): Every 100 µs the sensors are sampled and limits checked. -/
  | tempSample (sensor0 : Int) (sensor1 : Int) (aux : Nat) (core : Nat)
  /-- SUPPLY_HIGH (R372): A main supply rises above its high level and its alarm is raised. -/
  | supplyHigh (aux : Bool)
  /-- SUPPLY_RESET_LEVEL (R374): A main supply falls below its reset level, performing the mapped response and a
  warm reset. -/
  | supplyResetLevel (aux : Bool)
  /-- BROWNOUT_WARN (R373): A supply falls below its warning level, limiting lanes and NVM writes. -/
  | brownoutWarn (aux : Bool)
  /-- BROWNOUT_END (R373): The supply stays above warning plus hysteresis for 10 µs and normal issue resumes. -/
  | brownoutEnd (aux : Bool)
  /-- GLITCH (R375): A supply glitch or timing canary failure raises its alarm. -/
  | glitch (kind : Nat)
  /-- VBAT_SAMPLE (R367): VBAT is sampled every 1 ms and VBAT_LOW or VBAT_REVERSED may be raised. -/
  | vbatSample (mv : Int)
  /-- ZEROIZE_CLEAR_DONE (R378): Physical clearing ends; Zeroize-sessions warm-resets and Zeroize-all enters
  lockdown. -/
  | zeroizeClearDone
  /-- THROTTLE_END (R376): 10 ms after its condition clears, Throttle ends. -/
  | throttleEnd
  /-- HALT_RELEASE (R377): A write of TMP_CTL.RELEASE ends a Halt if the conditions are absent 1 ms. -/
  | haltRelease
  /-- HALT_QUIET_TIMER (R377): Halt conditions absent for 1 ms after a release end the Halt. -/
  | haltQuietTimer
  /-- OUT_ACK (R370): A write of OUT_ACK may release TAMPER_OUT_N. -/
  | outAck
  /-- BACKUP_TAKEOVER (R384): VDD_AUX falls below reset and the backup domain takes over pin monitoring. -/
  | backupTakeover
  /-- BACKUP_SAMPLE (R384): Every 1 ms on the backup cell the enabled pairs and inputs are sampled. -/
  | backupSample (source : Nat) (kind : Nat)
  /-- BACKUP_RESAMPLE (R385): 50 µs after an alarm-class sample a repeat confirms it, zeroizing BBK and logging. -/
  | backupResample (alarm : Bool)
  /-- BACKUP_TIME_SET (R386): A write of TMP_BACKUP_TIME_SET starts the timestamp once. -/
  | backupTimeSet (value : Nat)
  /-- BLOG_ACK (R387): A write of TMP_BLOG_CTL.ACK clears NEW, BACKUP_ALARM and BBK_ZEROIZED. -/
  | blogAck
  /-- BIST_START (R388): A START write applies a stimulus to one monitor for a window. -/
  | bistStart (source : Nat) (window : Nat)
  /-- BIST_WINDOW_END (R388): The test window ends, the stimulus is removed and PASS or FAIL recorded. -/
  | bistWindowEnd (present : Bool) (kind : Nat)
  /-- COLD_RESET (R391): Power-on or PORST_N starts the cold reset and clock bring-up. -/
  | coldReset (porst : Bool)
  /-- FRO_CHECK_DONE (R392): The FRO count completes and the clocks become stable, or it repeats or latches
  CLK_NOFRO. -/
  | froCheckDone (count : Nat)
  /-- SETTLE_END (R394): The settle delay ends with the arming check, arming the monitor or retrying. -/
  | settleEnd (refclk : Nat) (lock : Bool)
  /-- REFCLK_RETRY_TIMER (R394): After three failed arming checks the settle delay is retried every 100 ms. -/
  | refclkRetryTimer
  /-- CLOCK_FAILOVER (R396): The monitor trips; clocks switch to the FRO and CLOCK_FAIL is presented. -/
  | clockFailover
  /-- FRO_FAIL (R397): The FRO fails while REFCLK runs and FRO_FAIL is set. -/
  | froFail
  /-- BOOT_ROM (R423): The boot ROM rebuilds roots, resumes life-cycle transitions, loads Tin and makes the PF
  ready. -/
  | bootRom
  /-- PARK_ENTER (R403): PWR_CTL.PARK = 1 stops dispatch and pauses work for Park. -/
  | parkEnter
  /-- PARK_COMPLETE (R403): Paused work has stopped and blocks power off, STATE PARKED. -/
  | parkComplete
  /-- PARK_EXIT (R403): PWR_CTL.PARK = 0 powers blocks up and resumes paused work. -/
  | parkExit
  /-- BLOCK_IDLE_GATE (R402): A block idle for 1 µs with IDLE_EN is clock-gated. -/
  | blockIdleGate (block : Nat)
  /-- GOVERNOR_TICK (R407): Every 1 µs the estimator computes power and the governor holds the cap. -/
  | governorTick (busy : List Nat)
  /-- OPPOINT_WRITE (R405): A write of PWR_OPPOINT sets point and cap for the next epoch. -/
  | oppointWrite (point : Nat) (cap : Nat) (received : Bool)
  /-- WARM_RESET_CMD (R409): RST_CTL.WARM with CONFIRM warm-resets this die. -/
  | warmResetCmd (confirm : Nat)
  /-- ENSEMBLE_RESET_CMD (R410): RST_CTL.ENSEMBLE on the lead sends an ensemble reset over the ring. -/
  | ensembleResetCmd (confirm : Nat)
  /-- ENSEMBLE_RESET_RECEIVED (R410): A die receives the ensemble reset and begins a warm reset within 2 µs. -/
  | ensembleResetReceived
  /-- POWER_CYCLE_CMD (R404): RST_CTL.POWER_CYCLE asserts PWR_REQ_N. -/
  | powerCycleCmd (confirm : Nat)
  /-- PWR_REQ_TIMEOUT (R404): PWR_REQ_N is released after 1 s, setting TIMEOUT. -/
  | pwrReqTimeout
  /-- BACKUP_RESET (R411): VBAT below 1.6 V clears the backup domain and BBK_VALID. -/
  | backupReset
  /-- BBK_REWRAP (R411): After VBAT is above 2.2 V for 1 s a fresh BBK is drawn and NVM secrets rewrapped. -/
  | bbkRewrap
  /-- DBG_NEW_CHALLENGE (R426): DBG_CTL.NEW_CHALLENGE draws a 32-byte debug challenge. -/
  | dbgNewChallenge
  /-- DBG_REVOKE (R428): DBG_CTL.REVOKE ends the debug authorisation. -/
  | dbgRevoke
  /-- CHALLENGE_EXPIRE (R426): A challenge becomes invalid 300 s after issue. -/
  | challengeExpire
  /-- DEBUG_AUTH_EXPIRE (R428): The authorisation lifetime runs out and debug access ends. -/
  | debugAuthExpire
  /-- TAP_INSTRUCTION (R425): A test access port shift performs the instruction if the level permits. -/
  | tapInstruction (ins : TapIns)
  /-- DEBUG_MASTER_ACCESS (R359): A debug master access is performed, or refused at a locked region. -/
  | debugMasterAccess (addr : Nat) (len : Nat) (write : Bool) (data : Bytes)
  /-- RECORD_WRITE (R434): The recorder writes the next staged entry to the NVM ring in three steps. -/
  | recordWrite (cut : Nat)
  /-- FREEZE_SET (R438): EVR_CTL.FREEZE = 1 stops writing of general entries. -/
  | freezeSet
  /-- FREEZE_CLEAR (R438): EVR_CTL.FREEZE = 0 ends the freeze and staged entries drain. -/
  | freezeClear
  /-- FREEZE_TIMEOUT (R438): A freeze lasting 1,000 ms ends and a FREEZE_TIMEOUT record is staged. -/
  | freezeTimeout
  /-- PMC_WINDOW (R443): At a window boundary counters are latched into a sample and written or dropped. -/
  | pmcWindow (tick : Nat) (level : List Nat)
  /-- UNPARK_COMPLETE (R403): The blocks powered up at Park exit are ready, PWR_STATUS.STATE leaves UNPARKING for
  ACTIVE and dispatch restarts. -/
  | unparkComplete
  /-- ALARM_CONDITION_CLEAR (R380): The physical condition of a mesh, tamper-input, supply-high or glitch source
  goes away, clearing its TMP_COND bit, rearming the source and possibly releasing TAMPER_OUT_N or starting the Halt
  quiet time. -/
  | alarmConditionClear (source : Nat)
  /-- LOW_WORD_READ (R400): A 4-byte read of the low word of a 64-bit register latches its high word into the
  reading function's holding register for the next high-word read. -/
  | lowWordRead (fn : Nat) (off : Nat)
  deriving DecidableEq, Repr

end Sys2Proof
end

