-- ==== Sys2Proof/Decode.lean ====
section
/-! DEFINITION. The commands a word spells: none. The manual gives the block no instruction word, and no row of
spec/opcode_table.json has bits; requests are named by the OPCODE byte of their descriptor (R62), which
`Machine.Die.handle` reads. -/
namespace Sys2Proof

/-- The command that a word of the command table spells: no row has bits (log 149). -/
def decodeTableWord (_nbits _w : Nat) : Option Instr := none

end Sys2Proof
end

