-- ==== Sys2Proof/Config.lean ====
section
/-! DEFINITION. What one device fixes and the manual does not: free values, and the published cryptographic functions
that the manual names and does not write out. Every one is opaque: no proof sees a value of it, and a claim about it
holds whatever it is. Functions that yield byte strings are given byte by byte, so that lengths are the manual's. -/
namespace Sys2Proof

/-- The byte that random draw number `n` yields: DRBG output, full-entropy output, nonces, masks (log 4). -/
opaque Config.randomByte : Nat → Byte

/-- The 64 raw noise samples that read number `n` of RNG_RAW returns (R270): free values (log 64). -/
opaque Config.rawSamples : Nat → Nat

/-- A published hash or XOF, by the algorithm code of R101: byte `i` of its output (log 8). -/
opaque Config.hashByte : (alg : Nat) → (msg : Bytes) → (i : Nat) → Byte

/-- HMAC with a published hash: byte `i` of its output (log 8). -/
opaque Config.hmacByte : (alg : Nat) → (key msg : Bytes) → (i : Nat) → Byte

/-- The keystream of a published AEAD (AES-GCM, AES-CCM, ChaCha20-Poly1305) or of AES-CTR: byte `i` (log 8). -/
opaque Config.keystreamByte : (alg : Nat) → (key nonce : Bytes) → (i : Nat) → Byte

/-- The tag of a published AEAD over its associated data and its ciphertext: byte `i` (log 8). -/
opaque Config.tagByte : (alg : Nat) → (key nonce aad text : Bytes) → (i : Nat) → Byte

/-- One block or stream mask of a published cipher: AES-ECB of DTLS record numbers, ChaCha20 block (log 8). -/
opaque Config.maskByte : (alg : Nat) → (key block : Bytes) → (i : Nat) → Byte

/-- SipHash-2-4 under a 16-byte key (log 8). -/
opaque Config.sipHash : (key msg : Bytes) → Nat

/-- Parameters of the curves built in under identifiers 0x01 to 0x06 (R194): 0 p, 1 a, 2 b, 3 Gx, 4 Gy, 5 n (log 8). -/
opaque Config.builtinCurve : (id i : Nat) → Nat

/-- The value k of RFC 6979 section 3.6 for a private scalar, a digest and additional data, by attempt (log 8). -/
opaque Config.rfc6979 : (n x : Nat) → (digest extra : Bytes) → (attempt : Nat) → Nat

/-- X25519 of a scalar and a u-coordinate (RFC 7748): byte `i` of the result (log 8). -/
opaque Config.x25519Byte : (scalar u : Bytes) → (i : Nat) → Byte

/-- Ed25519 (RFC 8032): byte `i` of the public key of a private key, and of the signature over a message (log 8). -/
opaque Config.ed25519PubByte : (key : Bytes) → (i : Nat) → Byte
opaque Config.ed25519SigByte : (key msg : Bytes) → (i : Nat) → Byte

/-- Ed25519: 32 bytes decode to a point; the verification equation holds; S lies below the group order (log 8). -/
opaque Config.ed25519Decodes : (point : Bytes) → Bool
opaque Config.ed25519Verifies : (pub msg sig : Bytes) → Bool
opaque Config.ed25519ScalarOk : (s : Bytes) → Bool

/-- ML-KEM (FIPS 203), by parameter set: bytes of the encapsulation key of a seed d ‖ z, of the ciphertext and of the
shared secret of an encapsulation with randomness m, and of the secret a decapsulation yields (log 8). -/
opaque Config.mlkemEkByte : (param : Nat) → (seed : Bytes) → (i : Nat) → Byte
opaque Config.mlkemCtByte : (param : Nat) → (ek m : Bytes) → (i : Nat) → Byte
opaque Config.mlkemSsByte : (param : Nat) → (ek m : Bytes) → (i : Nat) → Byte
opaque Config.mlkemDecByte : (param : Nat) → (seed ct : Bytes) → (i : Nat) → Byte

/-- The modulus check of an ML-KEM encapsulation key (FIPS 203 section 7.2) (log 8). -/
opaque Config.mlkemEkOk : (param : Nat) → (ek : Bytes) → Bool

/-- ML-DSA (FIPS 204), by parameter set: bytes of the public key of a seed and of a hedged signature; whether a signature
verifies; and how many attempts a signature takes (log 8). -/
opaque Config.mldsaPkByte : (param : Nat) → (seed : Bytes) → (i : Nat) → Byte
opaque Config.mldsaSigByte : (param : Nat) → (seed ctx msg rnd : Bytes) → (i : Nat) → Byte
opaque Config.mldsaVerifies : (param : Nat) → (pk ctx msg sig : Bytes) → Bool
opaque Config.mldsaAttempts : (param : Nat) → (seed ctx msg rnd : Bytes) → Nat

/-- The encrypted BODY of a context blob, whose layout is the die's own (R204): its byte `i`, by context, step and use. -/
opaque Config.ctxBodyByte : (ctxId step key : Nat) → (i : Nat) → Byte

/-- The ticket_nonce under which a resumption PSK is derived, which the manual does not name (R215). -/
opaque Config.ticketNonce : Bytes

/-- RSASSA-PSS verification (RFC 8017) under a modulus and exponent (log 8). -/
opaque Config.pssVerifies : (alg n x : Nat) → (digest sig : Bytes) → Bool

/-- A signature of SIGALG `alg` over `msg` verifies under the SubjectPublicKeyInfo (X.509) that starts a byte string (log 8). -/
opaque Config.spkiVerifies : (alg : Nat) → (spki msg sig : Bytes) → Bool

/-- A signature verifies under the ML-DSA public key whose SHA3-256 digest a verification object holds (R213) (log 61). -/
opaque Config.digestVerifies : (param : Nat) → (digest msg sig : Bytes) → Bool

/-- AES-KWP (RFC 5649): byte `i` of the wrapping of a content (log 8). -/
opaque Config.kwpByte : (key content : Bytes) → (i : Nat) → Byte

/-- The content of a string that AES-KWP has made, where there is one (log 8). -/
opaque Config.kwpContent : (key wrapped : Bytes) → Bytes

/-- The fingerprint that KEY_INFO shows of a verification object: it holds no public key (R245). -/
opaque Config.digestFingerprintByte : (digest : Bytes) → (i : Nat) → Byte

/-- The native requests that steward firmware translates a TY6C request into (R288); the TY6C layout is not in the manual (log 68). -/
opaque Config.stewardRequests : (desc : Bytes) → List Bytes

/-- The reply entry in the TY6C layout that answers a TY6C request whose last native reply is given (R288). -/
opaque Config.stewardReplyByte : (desc native : Bytes) → (i : Nat) → Byte

/-- The TY6C key identifier that a TY6C request names, and whether its key attributes mark it rotatable (R289). -/
opaque Config.stewardKeyIdent : (desc : Bytes) → Nat
opaque Config.stewardRotatable : (desc : Bytes) → Bool

/-- Public keys that the boot ROM holds and the manual does not print: use 1 the Vailador Tin keys, 2 the Vailador
life-cycle keys, 3 the published test owner keys, 4 the Vailador roots, 5 the published test root (part 0), 6 the private
scalar bytes (part 0) and the ML-DSA-65 seed (part 1) of the published test identity; else part 0 is the P-384 point, 1 the
ML-DSA-87 key (R301, R311, R415) (log 113). -/
opaque Config.romKeyByte : (use part i : Nat) → Byte

/-- Leakage power in mW of a block at a temperature in 0.25 °C: the typical leakage doubled once for every `doubling` degrees
above 85 °C (R407); the manual gives no rounding (log 83). -/
opaque Config.leakMw : (leak doubling : Nat) → (temp : Int) → Nat

/-- The issue rate, in 1/256 of the full rate, that the governor moves a block to from a rate when the estimate (in 0.1 W) stands as it
does to the cap; the manual says only that it lowers the rate and never stops the block (R35) (log 184). -/
opaque Config.governorRate : (block point estimate cap rate : Nat) → Nat

/-- What the n-th load of a control core returns, byte by byte, from a window page whose target holds no memory of the model (R344), and
from a page of the secure world while a zeroization clears it (R376) (log 185). -/
opaque Config.windowByte : (page offset n : Nat) → Byte

/-- What the n-th read of the debug master finds in a context of a Constantan or lattice core while a job uses it, byte by byte: the manual
does not place a job's numbers in its context (R164, R196) (log 50). -/
opaque Config.contextByte : (address n : Nat) → Byte

/-- The power model of the release that the boot ROM holds, byte by byte (R407). -/
opaque Config.romModelByte : Nat → Byte

/-- Whether the PUF response of a cold reset fails its check three times over (R222), by the power-cycle count (log 135). -/
opaque Config.pufFails : Nat → Bool

/-- Bytes of the PUF key that a good response yields (R222, R224). -/
opaque Config.pufKeyByte : Nat → Byte

/-- Cycles that a level-mode counter of a tenant page counts over a millisecond (R442, R448): by the time, the function and
the counter. -/
opaque Config.levelCycles : (ms fn k : Nat) → Nat

/-- Entry addresses that the firmware sets (R351): the vector entry of a world (0 secure, 1 hypervisor, 2 the guest named),
and the secure world's fault vector (3). -/
opaque Config.vectorEntry : (world guest : Nat) → Nat

/-- The X.509 certificate chain of the die for a signature algorithm, as the x5chain value of a COSE header carries it (R254):
4 ECDSA P-384, 5 ML-DSA-65; certificates are not in the manual (log 116). -/
opaque Config.x5chain : (alg : Nat) → (identity : Bytes) → Bytes

/-- A certificate chain for a signature algorithm (4 ECDSA P-384, 5 ML-DSA-65) ends at the root key given, and the key of its
leaf verifies a signature over a message (R315, R335). -/
opaque Config.chainVerifies : (alg : Nat) → (root chain msg sig : Bytes) → Bool

/-- The IDCODE of the test access port, which the manual does not print (R424). -/
opaque Config.idcode : Nat

/-- What scan chains and memory built-in tests return for the data shifted in (R424) (log 127). -/
opaque Config.scanByte : (data : Bytes) → (i : Nat) → Byte

/-- PARAM of an object that a KEY_IMPORT ceremony installs, for the types that have one: no field of the request carries it
(R249) (log 122). -/
opaque Config.importParam : (request : Bytes) → Nat

/-- The firmware and programs that the boot ROM measures into MEAS0 to MEAS4 (R223): bytes of their SHA-384 digests. -/
opaque Config.firmwareByte : (register i : Nat) → Byte

end Sys2Proof
end

