-- ==== Sys2Proof/Machine/Bytes.lean ====
section
/-! DEFINITION. Byte order, slices and the checksums the spec writes out: little- and big-endian words (R8),
CRC-32C (R78), rounding and saturation. -/
namespace Sys2Proof.Machine

/-- `n` as `k` bytes, least significant first (R8). -/
def leBytes : Nat → Nat → Bytes
  | 0, _ => []
  | k + 1, n => BitVec.ofNat 8 n :: leBytes k (n / 256)

/-- The number a little-endian byte string spells (R8). -/
def leNat : Bytes → Nat
  | [] => 0
  | b :: r => b.toNat + 256 * leNat r

/-- `n` as `k` bytes, most significant first: the order of published formats (R8). -/
def beBytes (k n : Nat) : Bytes := (leBytes k n).reverse

/-- The number a big-endian byte string spells. -/
def beNat (b : Bytes) : Nat := leNat b.reverse

/-- `len` bytes of `b` from offset `off`; missing bytes read 0. -/
def slice (b : Bytes) (off len : Nat) : Bytes :=
  let t := (b.drop off).take len
  t ++ List.replicate (len - t.length) 0

/-- The little-endian field of `len` bytes at `off`. -/
def leAt (b : Bytes) (off len : Nat) : Nat := leNat (slice b off len)

/-- The big-endian field of `len` bytes at `off`. -/
def beAt (b : Bytes) (off len : Nat) : Nat := beNat (slice b off len)

/-- `b` with the bytes from `off` on replaced by `v`, as far as `v` and `b` reach. -/
def patch (b : Bytes) (off : Nat) (v : Bytes) : Bytes :=
  b.take off ++ v.take (b.length - off) ++ b.drop (off + v.length)

/-- `k` zero bytes. -/
def zeros (k : Nat) : Bytes := List.replicate k 0

/-- The exclusive-or of two byte strings, as long as the shorter. -/
def xorBytes (a b : Bytes) : Bytes := List.zipWith (· ^^^ ·) a b

/-- Bit `i` of a number. -/
def bit (n i : Nat) : Bool := n.testBit i

/-- Bits [hi:lo] of a number (R7). -/
def bits (n hi lo : Nat) : Nat := (n / 2 ^ lo) % 2 ^ (hi - lo + 1)

/-- `n` with bits [hi:lo] replaced by `v`. -/
def putBits (n hi lo v : Nat) : Nat :=
  n - bits n hi lo * 2 ^ lo + (v % 2 ^ (hi - lo + 1)) * 2 ^ lo

/-- `b` as a bit. -/
def ofBool (b : Bool) : Nat := if b then 1 else 0

/-- A count of `w` bits that saturates. -/
def satAdd (w a b : Nat) : Nat := min (a + b) (2 ^ w - 1)

/-- Quotient rounded up. -/
def ceilDiv (a b : Nat) : Nat := if a % b = 0 then a / b else a / b + 1

/-- `v` brought to the nearer limit of [lo, hi]. -/
def clamp (lo hi v : Nat) : Nat := max lo (min hi v)

/-- Difference of two free-running 32-bit indices (R49, R51). -/
def idxSub (a b : Nat) : Nat := (a + 2 ^ 32 - b % 2 ^ 32) % 2 ^ 32

/-- One bit of the CRC-32C register (R78): the reflected polynomial 0x82F63B78. -/
def crcBit (c : Nat) : Nat := if c % 2 = 1 then (c / 2) ^^^ 0x82F63B78 else c / 2

/-- `k` bits of the CRC-32C register. -/
def crcBits : Nat → Nat → Nat
  | 0, c => c
  | k + 1, c => crcBits k (crcBit c)

/-- The CRC-32C register over a byte string. -/
def crcLoop : Bytes → Nat → Nat
  | [], c => c
  | b :: r, c => crcLoop r (crcBits 8 (c ^^^ b.toNat))

/-- CRC-32C of a byte string (R78): preset and final exclusive-or with 0xFFFF_FFFF. -/
def crc32c (b : Bytes) : Nat := crcLoop b 0xFFFFFFFF ^^^ 0xFFFFFFFF

end Sys2Proof.Machine
end

