-- ==== Sys2Proof/Machine/Regs.lean ====
section
/-! DEFINITION. The register map of the die: every field of every register table of the manual, by the manual's
own names, with its place, its access code (R11), its reset value and the class of reset that restores it (R10,
R412). The table follows the register sections of spec/02 to spec/17 and the index of spec/18 (R450 to R453). -/
namespace Sys2Proof.Machine

/-- Access codes of R11. -/
inductive Access where
  | ro | rw | w1c | w1s | wo | so
  deriving DecidableEq, Repr

/-- What gives a field its value at the resets that restore it (R10, R412). `value`: the constant of the Reset
column; the others: loaded by the boot ROM, or kept in the store named. -/
inductive ResetSource where
  | value | tin | map | boot | nvm | otp | strap | backup | setAtReset | byFunction
  deriving DecidableEq, Repr

/-- The weakest reset that restores the field (R10): `cold` for an entry that names only a value. -/
inductive ResetClass where
  | tenant | warm | ensemble | cold
  deriving DecidableEq, Repr

/-- One row of a register table. `page` says that `base` is an offset in the tenant page of function `i`; otherwise
it is an offset in the physical function's BAR0 and `i` indexes an array of `icount` entries `istride` bytes apart.
`j` indexes a second dimension in the same way. `own` marks a field whose host write has a behaviour of its own (a
row of its own in the command table), which REGISTER_WRITE leaves alone. -/
structure FldInfo where
  page : Bool
  base : Nat
  istride : Nat
  icount : Nat
  jstride : Nat
  jcount : Nat
  wide : Bool
  hi : Nat
  lo : Nat
  acc : Access
  rst : Nat
  src : ResetSource
  cls : ResetClass
  own : Bool
  deriving DecidableEq, Repr

/-- Every field of every register table, named REGISTER_FIELD. -/
inductive Fld where
  | HLK_STATUS_REPAIRED_TX | HLK_STATUS_REPAIRED_RX | HLK_STATUS_RATE | HLK_STATUS_TRAIN_FAIL
  | HLK_STATUS_LINK_UP | HLK_CTL_RETRAIN | HLK_CTL_MAX_RATE | HLK_EVENT_DOWN
  | HLK_EVENT_RETRAINED | HLK_EVENT_REPAIRED | HLK_EVENT_RATE_CHANGED | HLK_CORR_COUNT_COUNT
  | QUE_PAGE_ID_TENANT | QUE_PAGE_STATUS_ASSIGNED | QUE_PAGE_STATUS_READY | QUE_PAIR_CTL_SIZE_LOG2
  | QUE_PAIR_CTL_WB_EN | QUE_PAIR_CTL_IN_ORDER | QUE_PAIR_CTL_ENABLE | QUE_PAIR_STATUS_ERR_CODE
  | QUE_PAIR_STATUS_STATE | QUE_RPL_IRQ_TIME | QUE_RPL_IRQ_COUNT | QUE_REQ_BASE_ADDR
  | QUE_RPL_BASE_ADDR | QUE_RPL_WB_ADDR | QUE_REQ_HEAD_INDEX | QUE_RPL_TAIL_INDEX
  | QUE_NTF_CTL_IRQ_TIME | QUE_NTF_CTL_SIZE_LOG2 | QUE_NTF_CTL_WB_EN | QUE_NTF_CTL_ENABLE
  | QUE_NTF_LOST_COUNT | QUE_NTF_BASE_ADDR | QUE_NTF_WB_ADDR | QUE_NTF_TAIL_INDEX
  | QUE_REQ_TAIL_DB_INDEX | QUE_RPL_HEAD_DB_INDEX | QUE_NTF_HEAD_DB_INDEX | REC_CTL_RELANE_ALWAYS
  | REC_STATUS_LANES_HELD | REC_STATUS_LANES_QUARANTINED | REC_STATUS_LANES_IN_SERVICE | REC_STEER_POSITION
  | REC_TEN_CFG0_REKEY_FRAC | REC_TEN_CFG0_LIMIT_SHIFT | REC_TEN_CFG0_CID_LEN | REC_TEN_CFG0_REPLAY_WIN
  | REC_TEN_CFG1_OUT_NO_LEN | REC_TEN_CFG1_OUT_SEQ8 | LANE_STATUS_RECENT | LANE_STATUS_KAT_FAIL
  | LANE_STATUS_HELD | LANE_STATUS_STATE | HASH_STATUS_RECENT | HASH_STATUS_KAT_FAIL
  | HASH_STATUS_HELD | HASH_STATUS_STATE | LANE_CTL_QUARANTINE | LANE_CTL_RELEASE
  | HASH_CTL_QUARANTINE | HASH_CTL_RELEASE | LANE_MISMATCH_COUNT_COUNT | HASH_MISMATCH_COUNT_COUNT
  | LANE_LAST_MISMATCH_KIND | LANE_LAST_MISMATCH_TENANT | HASH_LAST_MISMATCH_KIND | HASH_LAST_MISMATCH_TENANT
  | KFT_GEOMETRY_CACHE_UNITS | KFT_GEOMETRY_MAIN_UNITS | KFT_SWEEP_CTL_PASS_MIN | KFT_SWEEP_STATUS_PASSES
  | KFT_SWEEP_STATUS_PROGRESS | KFT_MINUTE_MINUTE | KFT_LOCK_CTL_PER_TENANT | KFT_LOCK_CTL_TIMEOUT
  | KFT_EVENT_SWEEP_LATE | KFT_EVENT_LOCK_TIMEOUT | KFT_EVENT_TABLE_FULL | KFT_EVENT_QUOTA_WARN
  | KFT_EVENT_EN_SWEEP_LATE | KFT_EVENT_EN_LOCK_TIMEOUT | KFT_EVENT_EN_TABLE_FULL | KFT_EVENT_EN_QUOTA_WARN
  | KFT_FULL_COUNT_COUNT | KFT_RELOC_COUNT_COUNT | KFT_MAIN_USED_COUNT | KFT_CRUMB_USED_COUNT
  | KFT_LEARN_COUNT_COUNT | KFT_TEN_USED_SLOTS | KFT_TEN_CFG_AGED_NTF | KFT_TEN_CFG_AGE_LIMIT
  | KFT_TEN_SHARE_SLOTS | KFT_TEN_TOTAL_SLOTS | KFT_TEN_KEYS_QUOTA | KFT_TEN_LOCKS_HELD
  | KFT_TEN_FULL_QUOTA_REFUSED | KFT_TEN_FULL_TABLE_FULL | MLF_SLICE_BASE_ADDR | MLF_SLICE_SIZE_TREE_MIB
  | MLF_SLICE_SIZE_SIZE_GIB | MLF_STATUS_MIRROR_OK | MLF_STATUS_ADOPTED_POS | MLF_STATUS_ADOPTED
  | MLF_STATUS_STATE | MLF_EVENT_EPOCH_BUMPED | MLF_EVENT_RESEAL_STALL | MLF_EVENT_ADOPTED
  | MLF_EVENT_MIRROR_LOST | MLF_EVENT_POISON_FULL | MLF_EVENT_INTEGRITY | MLF_EVENT_EN_EPOCH_BUMPED
  | MLF_EVENT_EN_RESEAL_STALL | MLF_EVENT_EN_ADOPTED | MLF_EVENT_EN_MIRROR_LOST | MLF_EVENT_EN_POISON_FULL
  | MLF_EVENT_EN_INTEGRITY | MLF_INTEG_COUNT_COUNT | MLF_INTEG_ADDR_OFFSET | MLF_INTEG_INFO_TENANT
  | MLF_INTEG_INFO_ADOPTED_SLICE | MLF_INTEG_INFO_KIND | MLF_INTEG_INFO_LEVEL | MLF_TREE_STATUS_RESEALS
  | MLF_TREE_STATUS_DIRTY_L2 | MLF_CACHE_STATUS_PENDING | MLF_CACHE_STATUS_CAPACITY | MLF_RESEAL_COUNT_COUNT
  | MLF_POISON_CTL_REFORMAT | MLF_POISON_CTL_INDEX | MLF_POISON_STATUS_COUNT | MLF_POISON_ENTRY_VALID
  | MLF_POISON_ENTRY_LEVEL | MLF_POISON_ENTRY_OFFSET | MLF_ARCHIVE_EPOCH_EPOCH | MLF_ARCHIVE_CTL_CONFIRM
  | MLF_ARCHIVE_CTL_BUMP | CON_CTL_RECORE_ALWAYS | CON_CORES_IN_SERVICE_CORES | CON_CORES_HELD_CORES
  | CON_CORES_QUARANTINED_CORES | CON_QUEUE_STATUS_LONG_WAITING | CON_QUEUE_STATUS_SHORT_WAITING | CON_CURVES_USED_COUNT
  | CON_JOB_COUNT_COUNT | CON_ABORT_COUNT_COUNT | CON_CORE_STATUS_TENANT | CON_CORE_STATUS_LONG
  | CON_CORE_STATUS_CONTEXTS_BUSY | CON_CORE_STATUS_RECENT | CON_CORE_STATUS_KAT_FAIL | CON_CORE_STATUS_HELD
  | CON_CORE_STATUS_STATE | CON_CORE_CTL_QUARANTINE | CON_CORE_CTL_RELEASE | CON_CORE_MISMATCH_COUNT_COUNT
  | CON_CORE_LAST_MISMATCH_KIND | CON_CORE_LAST_MISMATCH_TENANT | CON_CORE_JOBS_COUNT | CON_TEN_CURVES_LOADED_MASK
  | CON_TEN_CURVES_COUNT | NTT_CTL_RECORE_ALWAYS | NTT_CORES_QUARANTINED | NTT_CORES_IN_SERVICE
  | NTT_QUEUE_STATUS_WAITING | NTT_HS_CTL_RETAIN_H | NTT_HS_CTL_IDLE_S | NTT_HS_STATUS_CTX_USED
  | NTT_HS_DONE_COUNT | NTT_HS_FAILED_COUNT | NTT_HS_EXPIRED_COUNT | NTT_TICKET_EPOCH_EPOCH
  | NTT_CORE_STATUS_TENANT | NTT_CORE_STATUS_SIGNING | NTT_CORE_STATUS_CONTEXTS_BUSY | NTT_CORE_STATUS_RECENT
  | NTT_CORE_STATUS_KAT_FAIL | NTT_CORE_STATUS_STATE | NTT_CORE_CTL_QUARANTINE | NTT_CORE_CTL_RELEASE
  | NTT_CORE_MISMATCH_COUNT_COUNT | NTT_CORE_JOBS_COUNT | NTT_CORE_LAST_MISMATCH_KIND | NTT_CORE_LAST_MISMATCH_TENANT
  | KEY_ROOT_STATUS_SHARES_FOUND | KEY_ROOT_STATUS_THRESHOLD | KEY_ROOT_STATUS_COMBINE_FAIL | KEY_ROOT_STATUS_ESK_VALID
  | KEY_ROOT_STATUS_SHARE_LOST | KEY_ROOT_STATUS_SHARE_HELD | KEY_ROOT_STATUS_BBK_VALID | KEY_ROOT_STATUS_PUF_FAIL
  | KEY_SEAL_MASK_PENDING | KEY_SEAL_MASK_PENDING_MASK | KEY_SEAL_MASK_MASK | KEY_CEREMONY_STATUS_REMAINING_S
  | KEY_CEREMONY_STATUS_APPROVALS | KEY_CEREMONY_STATUS_M | KEY_CEREMONY_STATUS_KIND | KEY_CEREMONY_STATUS_STATE
  | KEY_CEREMONY_SERIAL_SERIAL | KEY_CUSTODIANS_OWNER_SET | KEY_CUSTODIANS_ALG_MLDSA | KEY_CUSTODIANS_REGISTERED
  | KEY_EVENT_MIGRATION_DONE | KEY_EVENT_SHARE_LOST | KEY_EVENT_TOKEN_REJECTED | KEY_EVENT_CEREMONY_LAPSED
  | KEY_EVENT_CEREMONY_DONE | KEY_EVENT_EN_MIGRATION_DONE | KEY_EVENT_EN_SHARE_LOST | KEY_EVENT_EN_TOKEN_REJECTED
  | KEY_EVENT_EN_CEREMONY_LAPSED | KEY_EVENT_EN_CEREMONY_DONE | KEY_CACHE_STATUS_UNITS_USED | KEY_MEAS_DIGEST
  | KEY_TEN_HANDLES_USED | KEY_TEN_GEN_GEN | KEY_TEN_VGEN_GEN | KEY_TEN_EXHAUSTED_COUNT
  | RNG_STATUS_FAIL_SOURCES | RNG_STATUS_RERUNS | RNG_STATUS_SEEDED | RNG_STATUS_STATE
  | RNG_EVENT_FAULT | RNG_EVENT_RESTARTED | RNG_EVENT_HEALTH_FAIL | RNG_EVENT_READY
  | RNG_EVENT_EN_FAULT | RNG_EVENT_EN_RESTARTED | RNG_EVENT_EN_HEALTH_FAIL | RNG_EVENT_EN_READY
  | RNG_HEALTH_CFG_APT_CUTOFF | RNG_HEALTH_CFG_RCT_CUTOFF | RNG_SRC_STATUS_APT_PEAK | RNG_SRC_STATUS_RCT_PEAK
  | RNG_FAIL_COUNT_COUNT | RNG_RESEED_COUNT_COUNT | RNG_QUEUE_STATUS_FE_BYTES | RNG_QUEUE_STATUS_DRBG_BYTES
  | RNG_WAITING_COUNT | RNG_TEST_INJECT_SRC | RNG_TEST_INJECT | RNG_TEST_RAW_EN
  | RNG_RAW_SAMPLES | RNG_TEN_CFG_FE_ALLOWED | RNG_TEN_CFG_RATE | RNG_TEN_BYTES_COUNT
  | TEN_CMD_CMD | TEN_STATE_CMD_RESULT | TEN_STATE_LOGGING | TEN_STATE_STEWARD
  | TEN_STATE_FORCED | TEN_STATE_STATE | TEN_SHARE_LANE | TEN_SHARE_CON
  | TEN_SHARE_NTT | TEN_SHARE_CAP | TEN_SHARE_PAIRS | TEN_USE_LANE
  | TEN_USE_CON | TEN_USE_NTT | TEN_USE_DEBT | TEN_MIG_BITMAP_VALUE
  | TEN_MIG_RANGE_BASE_VALUE | TEN_MIG_RANGE_LEN_VALUE | TEN_MIG_UNTRACKED_VALUE | TEN_QUIESCE_TIME_VALUE
  | TEN_STEWARD_DEPTH_VALUE | TEN_EPOCH_COUNT | TEN_EVENT_ROTATION_FAIL | TEN_EVENT_STEWARD_OP
  | TEN_EVENT_REMOVE_DONE | TEN_EVENT_FORCED | TEN_EVENT_QUIESCE_LATE | TEN_EVENT_QUIESCE_DONE
  | TEN_EVENT_EN_ROTATION_FAIL | TEN_EVENT_EN_STEWARD_OP | TEN_EVENT_EN_REMOVE_DONE | TEN_EVENT_EN_FORCED
  | TEN_EVENT_EN_QUIESCE_LATE | TEN_EVENT_EN_QUIESCE_DONE | TEN_PAGE_STATE_STATE | TEN_PAGE_SHARE_ALL
  | TEN_PAGE_MODE_STEWARD | TIN_STATUS_LAST_REASON | TIN_STATUS_DELTAS | TIN_STATUS_BUSY
  | TIN_STATUS_STAGED | TIN_STATUS_SOURCE | TIN_SERIAL_VALUE | TIN_DELTA_SEQ_VALUE
  | TIN_STAGED_SERIAL_VALUE | TIN_DIGEST_DIGEST | TIN_STAGED_DIGEST_DIGEST | TIN_POLICY_DIGEST_DIGEST
  | TIN_GEOM_DIGEST_DIGEST | TIN_EVENT_DEFAULT_BOOT | TIN_EVENT_REFUSED | TIN_EVENT_DELTA_APPLIED
  | TIN_EVENT_ACTIVATED | TIN_EVENT_STAGED | TIN_EVENT_EN_DEFAULT_BOOT | TIN_EVENT_EN_REFUSED
  | TIN_EVENT_EN_DELTA_APPLIED | TIN_EVENT_EN_ACTIVATED | TIN_EVENT_EN_STAGED | TIN_NVM_USE_CHAIN_BYTES
  | ENS_STATUS_FAULT | ENS_STATUS_ACTING_LEAD | ENS_STATUS_LEAD_POS | ENS_STATUS_POSITION
  | ENS_STATUS_SIZE | ENS_STATUS_STATE | ENS_LINKS_REPAIRED_B | ENS_LINKS_REPAIRED_A
  | ENS_LINKS_AUTH_FAIL_B | ENS_LINKS_AUTH_FAIL_A | ENS_LINKS_UP_B | ENS_LINKS_UP_A
  | ENS_CTL_POS | ENS_CTL_HANDBACK | ENS_CTL_LINK_GRACE | ENS_SERVE_SERVER
  | ENS_EVENT_ACTIVATION_MISSED | ENS_EVENT_ACTIVATED | ENS_EVENT_ARMED | ENS_EVENT_QUARANTINE
  | ENS_EVENT_MISMATCH | ENS_EVENT_STEER_REFUSED | ENS_EVENT_HANDBACK_DONE | ENS_EVENT_LINK_DOWN
  | ENS_EVENT_DIE_FAILED | ENS_EVENT_CFG_FAULT | ENS_EVENT_EN_ACTIVATION_MISSED | ENS_EVENT_EN_ACTIVATED
  | ENS_EVENT_EN_ARMED | ENS_EVENT_EN_QUARANTINE | ENS_EVENT_EN_MISMATCH | ENS_EVENT_EN_STEER_REFUSED
  | ENS_EVENT_EN_HANDBACK_DONE | ENS_EVENT_EN_LINK_DOWN | ENS_EVENT_EN_DIE_FAILED | ENS_EVENT_EN_CFG_FAULT
  | ENS_IDENTITY_DIGEST | ENS_ADMIT_IDENTITY_DIGEST | ENS_DOMAIN_STATUS_ROOT | ENS_DOMAIN_STATUS_ADMIT_PENDING
  | ENS_DOMAIN_STATUS_JOIN_OUT | ENS_DOMAIN_STATUS_ARMED | ENS_DOMAIN_STATUS_MEMBER | ENS_DOMAIN_EPOCH_VALUE
  | ENS_DOMAIN_TIME_VALUE | ENS_ACT_TIME_VALUE | ENS_DOMAIN_COUNTS_MISMATCHED | ENS_DOMAIN_COUNTS_PRESENT
  | ENS_ENV_OUT_BASE_ADDR | ENS_ENV_OUT_CTL_LOST | ENS_ENV_OUT_CTL_SIZE_LOG2 | ENS_ENV_OUT_CTL_ENABLE
  | ENS_ENV_OUT_TAIL_INDEX | ENS_ENV_OUT_HEAD_INDEX | ENS_STEER_PREV_VALID | ENS_STEER_PREV_POSITION
  | ENS_STEER_COUNT_SESSIONS | ENS_STANDBY_VALID | ENS_STANDBY_ALIASED | ENS_STANDBY_STANDBY
  | WLD_STATUS_GATE_DEPTH0 | WLD_STATUS_GATE_DEPTH1 | WLD_STATUS_GATE_DEPTH2 | WLD_STATUS_GATE_DEPTH3
  | WLD_STATUS_WORLD0 | WLD_STATUS_WORLD1 | WLD_STATUS_WORLD2 | WLD_STATUS_WORLD3
  | WLD_CORE_GUEST_TENANT0 | WLD_CORE_GUEST_TENANT1 | WLD_CORE_GUEST_TENANT2 | WLD_CORE_GUEST_TENANT3
  | WLD_EVENT_POLICY_STEP_LIMIT | WLD_EVENT_DBG_VIOLATION | WLD_EVENT_MPU_COMMIT_REFUSED | WLD_EVENT_MPU_FAULT
  | WLD_EVENT_GATE_IGNORED | WLD_EVENT_GATE_DEFERRED | WLD_EVENT_POT_FAULT | WLD_EVENT_GATE_FAULT
  | WLD_EVENT_EN_POLICY_STEP_LIMIT | WLD_EVENT_EN_DBG_VIOLATION | WLD_EVENT_EN_MPU_COMMIT_REFUSED | WLD_EVENT_EN_MPU_FAULT
  | WLD_EVENT_EN_GATE_IGNORED | WLD_EVENT_EN_GATE_DEFERRED | WLD_EVENT_EN_POT_FAULT | WLD_EVENT_EN_GATE_FAULT
  | WLD_WDOG_CTL_PERIOD_MS | WLD_WDOG_KICK_KEY | WLD_WDOG_STATUS_EXPIRIES | WLD_WDOG_STATUS_REMAINING_MS
  | WLD_HOLD_BLOCKS | WLD_GATE_PENDING_BLOCKS | WLD_GATE_IGNORED_COUNT | WLD_GATE_FAULTS_COUNT
  | WLD_POT_FAULTS_COUNT | WLD_POLICY_EVALS_COUNT | WLD_POLICY_DENIES_COUNT | WLD_POT_KIND
  | WLD_POT_PENDING | WLD_POT_TENANT | MPU_RGN_BASE_BASE | MPU_RGN_ATTR_ENABLE
  | MPU_RGN_ATTR_SIZE_LOG2 | MPU_RGN_ATTR_X | MPU_RGN_ATTR_W | MPU_RGN_ATTR_R
  | MPU_COMMIT_COMMIT | MPU_STATUS_COMMIT_GEN | MPU_STATUS_FAULT_REGION | MPU_STATUS_LAST_RESULT
  | MPU_STATUS_DRAINING | MPU_FAULT_ADDR_ADDR | MPU_FAULT_INFO_COUNT | MPU_FAULT_INFO_WRITE
  | MPU_FAULT_INFO_LOCKED | MPU_FAULT_INFO_LEN | TMP_STATUS_ACTIVE | TMP_STATUS_RANK
  | TMP_STATUS_BROWNOUT | TMP_STATUS_THROTTLED | TMP_STATUS_HALTED | TMP_STATUS_OUT
  | TMP_STATUS_BIST_BUSY | TMP_STATUS_MAP_SOURCE | TMP_COND_SOURCES | TMP_ALARM_SOURCES
  | TMP_CTL_OUT_ACK | TMP_CTL_RELEASE | TMP_TEMP_SENSOR1 | TMP_TEMP_SENSOR0
  | TMP_TEMP_LIMITS_HIGH | TMP_TEMP_LIMITS_LOW | TMP_SUPPLY_AUX_MV | TMP_SUPPLY_CORE_MV
  | TMP_VBAT_REVERSED | TMP_VBAT_VBAT_MV | TMP_BROWNOUT_COUNT_COUNT | TMP_MESH_STATUS_MESH_D
  | TMP_MESH_STATUS_MESH_C | TMP_MESH_STATUS_MESH_B | TMP_MESH_STATUS_MESH_A | TMP_PIN_STATUS_IN1
  | TMP_PIN_STATUS_IN0 | TMP_PIN_STATUS_LID | TMP_BIST_CTL_START | TMP_BIST_CTL_WINDOW_US
  | TMP_BIST_CTL_SOURCE | TMP_BIST_STATUS_PASSES | TMP_BIST_STATUS_RESULT | TMP_BIST_STATUS_LAST_SOURCE
  | TMP_BACKUP_TIME_SECONDS | TMP_BACKUP_TIME_FRACTION | TMP_BACKUP_TIME_SET_VALUE | TMP_BACKUP_STATUS_NEW
  | TMP_BACKUP_STATUS_NEXT | TMP_BACKUP_STATUS_BACKUP_ALARM | TMP_BACKUP_STATUS_BBK_ZEROIZED | TMP_BACKUP_STATUS_RUNNING
  | TMP_BLOG_CTL_ACK | TMP_MAP_ENABLED | TMP_MAP_PROPAGATE | TMP_MAP_OUT
  | TMP_MAP_RANK | TMP_BLOG_WORD | CLK_STATUS_SETTLE_TRIES | CLK_STATUS_FRO_FAIL
  | CLK_STATUS_REFCLK_ABSENT | CLK_STATUS_FRO_REF | CLK_STATUS_ARMED | CLK_STATUS_PLL_LOCK
  | CLK_STATUS_SOURCE | CLK_EVENT_REFCLK_RETRY | CLK_EVENT_FRO_FAIL | CLK_EVENT_FAILOVER
  | CLK_EVENT_EN_REFCLK_RETRY | CLK_EVENT_EN_FRO_FAIL | CLK_EVENT_EN_FAILOVER | CLK_FRO_KHZ_KHZ
  | CLK_SETTLE_CODE_CODE | CLK_FAIL_COUNT_COUNT | PWR_CTL_IDLE_EN | PWR_CTL_PARK
  | PWR_STATUS_POINT | PWR_STATUS_DEFERRED | PWR_STATUS_THROTTLE | PWR_STATUS_THERMAL
  | PWR_STATUS_STATE | PWR_OPPOINT_SOURCE | PWR_OPPOINT_POINT | PWR_OPPOINT_CAP
  | PWR_POWER_ESTIMATE | PWR_POWER_EFFECTIVE_CAP | PWR_ENERGY_MICROJOULES | RST_CTL_CONFIRM
  | RST_CTL_POWER_CYCLE | RST_CTL_ENSEMBLE | RST_CTL_WARM | RST_CAUSE_NOFRO_SEEN
  | RST_CAUSE_BACKUP_LOST | RST_CAUSE_ENSEMBLE | RST_CAUSE_MANAGER | RST_CAUSE_DECLARED
  | RST_CAUSE_TAMPER | RST_CAUSE_SUPPLY | RST_CAUSE_WATCHDOG | RST_CAUSE_PORST
  | RST_CAUSE_POWER_ON | RST_COUNT_WARM | RST_COUNT_ENSEMBLE | RST_PWR_REQ_TIMEOUT
  | RST_PWR_REQ_ASSERTED | LCS_STATE_TOGGLES | LCS_STATE_STATE | LCS_STATUS_PENDING_TARGET
  | LCS_STATUS_RESUMED | LCS_STATUS_INVALID_CODE | LCS_STATUS_PENDING | LCS_SERIAL_SERIAL
  | LCS_JOURNAL_LAST_MARKS | LCS_JOURNAL_NEXT | LCS_TOKENS_REMAINING | LCS_EVENT_DEBUG_AUTH
  | LCS_EVENT_REQUEST_DROPPED | LCS_EVENT_ACCEPTED | LCS_EVENT_TRANSITION_DONE | LCS_EVENT_EN_DEBUG_AUTH
  | LCS_EVENT_EN_REQUEST_DROPPED | LCS_EVENT_EN_ACCEPTED | LCS_EVENT_EN_TRANSITION_DONE | DBG_STATUS_REMAINING_S
  | DBG_STATUS_CHALLENGE_VALID | DBG_STATUS_SIGNER | DBG_STATUS_LEVEL | DBG_CTL_REVOKE
  | DBG_CTL_NEW_CHALLENGE | DBG_CHALLENGE_NONCE | DBG_VIOLATION_COUNT_COUNT | EVR_CTL_FREEZE
  | EVR_STATUS_TORN | EVR_STATUS_WRITING | EVR_STATUS_FROZEN | EVR_STATUS_RSV_USED
  | EVR_STATUS_GEN_USED | EVR_STATUS_NEXT | EVR_SEQ_VALUE | EVR_LOST_VALUE
  | EVR_OP_HOURS_VALUE | EVR_POWER_CYCLES_VALUE | EVR_EVENT_FREEZE_TIMEOUT | EVR_EVENT_LOST
  | EVR_EVENT_RECORD | EVR_EVENT_EN_FREEZE_TIMEOUT | EVR_EVENT_EN_LOST | EVR_EVENT_EN_RECORD
  | EVR_READ_IDX_SLOT | EVR_READ_DATA_WORD | PMC_CTL_ENABLE | PMC_CTL_WINDOW_US
  | PMC_RING_BASE_ADDR | PMC_RING_CTL_IRQ_COUNT | PMC_RING_CTL_SIZE_LOG2 | PMC_RING_TAIL_INDEX
  | PMC_RING_HEAD_INDEX | PMC_STATUS_DROPPED | PMC_EVENT_OVERRUN | PMC_EVENT_EN_OVERRUN
  | PMC_SEL_SELECTION | PMC_TEN_CYCLES_CYCLES | PMC_TEN_SEL_LEVEL | PMC_TEN_SEL_ENABLE
  | PMC_TEN_SEL_BLOCK | PMC_TEN_SEL_EVENT | PMC_TEN_CNT_COUNT
  deriving DecidableEq, Repr

/-- The places a register can have: one register, an array, a register of each tenant page, an array in each
tenant page, a two-dimensional array in BAR0. -/
structure RegPlace where
  page : Bool
  base : Nat
  istride : Nat
  icount : Nat
  jstride : Nat
  jcount : Nat
  wide : Bool

def bar32 (base : Nat) : RegPlace := { page := false, base, istride := 0, icount := 1, jstride := 0, jcount := 1, wide := false }
def bar64 (base : Nat) : RegPlace := { bar32 base with wide := true }
def barArr (base istride icount : Nat) (wide : Bool) : RegPlace := { bar32 base with istride, icount, wide }
def barArr2 (base istride icount jstride jcount : Nat) (wide : Bool) : RegPlace :=
  { bar32 base with istride, icount, jstride, jcount, wide }
def page32 (base : Nat) : RegPlace :=
  { page := true, base, istride := 0x10000, icount := 256, jstride := 0, jcount := 1, wide := false }
def page64 (base : Nat) : RegPlace := { page32 base with wide := true }
def pageArr (base jstride jcount : Nat) (wide : Bool) : RegPlace := { page32 base with jstride, jcount, wide }

/-- One field at a place. -/
def fld (p : RegPlace) (hi lo : Nat) (acc : Access) (rst : Nat) (src : ResetSource) (cls : ResetClass) : FldInfo :=
  { page := p.page, base := p.base, istride := p.istride, icount := p.icount, jstride := p.jstride, jcount := p.jcount,
    wide := p.wide, hi, lo, acc, rst, src, cls, own := false }

/-- A field whose host write is a command of its own. -/
def fldOwn (p : RegPlace) (hi lo : Nat) (acc : Access) (rst : Nat) (src : ResetSource) (cls : ResetClass) : FldInfo :=
  { fld p hi lo acc rst src cls with own := true }

/-- The register tables of the manual, one row a field. -/
def Fld.info : Fld → FldInfo
  | .HLK_STATUS_REPAIRED_TX => fld (bar32 0x0) 23 20 .ro 0 .value .warm
  | .HLK_STATUS_REPAIRED_RX => fld (bar32 0x0) 19 16 .ro 0 .value .warm
  | .HLK_STATUS_RATE => fld (bar32 0x0) 9 8 .ro 0 .value .warm
  | .HLK_STATUS_TRAIN_FAIL => fld (bar32 0x0) 1 1 .ro 0 .value .warm
  | .HLK_STATUS_LINK_UP => fld (bar32 0x0) 0 0 .ro 0 .value .warm
  | .HLK_CTL_RETRAIN => fldOwn (bar32 0x4) 2 2 .w1s 0 .value .warm
  | .HLK_CTL_MAX_RATE => fld (bar32 0x4) 1 0 .rw 3 .value .warm
  | .HLK_EVENT_DOWN => fld (bar32 0x8) 3 3 .w1c 0 .value .warm
  | .HLK_EVENT_RETRAINED => fld (bar32 0x8) 2 2 .w1c 0 .value .warm
  | .HLK_EVENT_REPAIRED => fld (bar32 0x8) 1 1 .w1c 0 .value .warm
  | .HLK_EVENT_RATE_CHANGED => fld (bar32 0x8) 0 0 .w1c 0 .value .warm
  | .HLK_CORR_COUNT_COUNT => fld (bar32 0xc) 31 0 .rw 0 .value .warm
  | .QUE_PAGE_ID_TENANT => fld (page32 0x0) 10 0 .ro 0 .byFunction .cold
  | .QUE_PAGE_STATUS_ASSIGNED => fld (page32 0x4) 1 1 .ro 0 .value .warm
  | .QUE_PAGE_STATUS_READY => fld (page32 0x4) 0 0 .ro 0 .value .tenant
  | .QUE_PAIR_CTL_SIZE_LOG2 => fld (pageArr 0x1000 0x100 16 false) 12 8 .rw 6 .value .tenant
  | .QUE_PAIR_CTL_WB_EN => fld (pageArr 0x1000 0x100 16 false) 3 3 .rw 0 .value .tenant
  | .QUE_PAIR_CTL_IN_ORDER => fld (pageArr 0x1000 0x100 16 false) 2 2 .rw 0 .value .tenant
  | .QUE_PAIR_CTL_ENABLE => fldOwn (pageArr 0x1000 0x100 16 false) 0 0 .rw 0 .value .tenant
  | .QUE_PAIR_STATUS_ERR_CODE => fld (pageArr 0x1004 0x100 16 false) 23 16 .ro 0 .value .tenant
  | .QUE_PAIR_STATUS_STATE => fld (pageArr 0x1004 0x100 16 false) 1 0 .ro 0 .value .tenant
  | .QUE_RPL_IRQ_TIME => fld (pageArr 0x1008 0x100 16 false) 31 16 .rw 0 .value .tenant
  | .QUE_RPL_IRQ_COUNT => fld (pageArr 0x1008 0x100 16 false) 15 0 .rw 1 .value .tenant
  | .QUE_REQ_BASE_ADDR => fld (pageArr 0x1010 0x100 16 true) 63 0 .rw 0 .value .tenant
  | .QUE_RPL_BASE_ADDR => fld (pageArr 0x1018 0x100 16 true) 63 0 .rw 0 .value .tenant
  | .QUE_RPL_WB_ADDR => fld (pageArr 0x1020 0x100 16 true) 63 0 .rw 0 .value .tenant
  | .QUE_REQ_HEAD_INDEX => fld (pageArr 0x1028 0x100 16 false) 31 0 .ro 0 .value .tenant
  | .QUE_RPL_TAIL_INDEX => fld (pageArr 0x102c 0x100 16 false) 31 0 .ro 0 .value .tenant
  | .QUE_NTF_CTL_IRQ_TIME => fld (page32 0x2000) 31 16 .rw 0 .value .tenant
  | .QUE_NTF_CTL_SIZE_LOG2 => fld (page32 0x2000) 12 8 .rw 6 .value .tenant
  | .QUE_NTF_CTL_WB_EN => fld (page32 0x2000) 3 3 .rw 0 .value .tenant
  | .QUE_NTF_CTL_ENABLE => fldOwn (page32 0x2000) 0 0 .rw 0 .value .tenant
  | .QUE_NTF_LOST_COUNT => fld (page32 0x2008) 31 0 .ro 0 .value .tenant
  | .QUE_NTF_BASE_ADDR => fld (page64 0x2010) 63 0 .rw 0 .value .tenant
  | .QUE_NTF_WB_ADDR => fld (page64 0x2018) 63 0 .rw 0 .value .tenant
  | .QUE_NTF_TAIL_INDEX => fld (page32 0x2020) 31 0 .ro 0 .value .tenant
  | .QUE_REQ_TAIL_DB_INDEX => fldOwn (pageArr 0xc000 0x8 16 false) 31 0 .wo 0 .value .tenant
  | .QUE_RPL_HEAD_DB_INDEX => fldOwn (pageArr 0xc080 0x8 16 false) 31 0 .wo 0 .value .tenant
  | .QUE_NTF_HEAD_DB_INDEX => fldOwn (page32 0xc100) 31 0 .wo 0 .value .tenant
  | .REC_CTL_RELANE_ALWAYS => fld (bar32 0x100000) 0 0 .rw 0 .value .warm
  | .REC_STATUS_LANES_HELD => fld (bar32 0x100004) 23 16 .ro 0 .value .warm
  | .REC_STATUS_LANES_QUARANTINED => fld (bar32 0x100004) 15 8 .ro 0 .value .warm
  | .REC_STATUS_LANES_IN_SERVICE => fld (bar32 0x100004) 7 0 .ro 0xff .value .warm
  | .REC_STEER_POSITION => fldOwn (barArr 0x100100 0x4 64 false) 2 0 .rw 0 .value .ensemble
  | .REC_TEN_CFG0_REKEY_FRAC => fld (barArr 0x101000 0x8 256 false) 23 20 .rw 2 .value .warm
  | .REC_TEN_CFG0_LIMIT_SHIFT => fld (barArr 0x101000 0x8 256 false) 19 16 .rw 0 .value .warm
  | .REC_TEN_CFG0_CID_LEN => fld (barArr 0x101000 0x8 256 false) 15 8 .rw 0 .value .warm
  | .REC_TEN_CFG0_REPLAY_WIN => fld (barArr 0x101000 0x8 256 false) 3 0 .rw 0 .value .warm
  | .REC_TEN_CFG1_OUT_NO_LEN => fld (barArr 0x101004 0x8 256 false) 1 1 .rw 0 .value .warm
  | .REC_TEN_CFG1_OUT_SEQ8 => fld (barArr 0x101004 0x8 256 false) 0 0 .rw 0 .value .warm
  | .LANE_STATUS_RECENT => fld (barArr 0x104000 0x40 8 false) 17 16 .ro 0 .value .warm
  | .LANE_STATUS_KAT_FAIL => fld (barArr 0x104000 0x40 8 false) 3 3 .ro 0 .value .warm
  | .LANE_STATUS_HELD => fld (barArr 0x104000 0x40 8 false) 2 2 .ro 0 .value .warm
  | .LANE_STATUS_STATE => fld (barArr 0x104000 0x40 8 false) 1 0 .ro 0 .value .warm
  | .HASH_STATUS_RECENT => fld (barArr 0x106000 0x40 4 false) 17 16 .ro 0 .value .warm
  | .HASH_STATUS_KAT_FAIL => fld (barArr 0x106000 0x40 4 false) 3 3 .ro 0 .value .warm
  | .HASH_STATUS_HELD => fld (barArr 0x106000 0x40 4 false) 2 2 .ro 0 .value .warm
  | .HASH_STATUS_STATE => fld (barArr 0x106000 0x40 4 false) 1 0 .ro 0 .value .warm
  | .LANE_CTL_QUARANTINE => fldOwn (barArr 0x104004 0x40 8 false) 1 1 .w1s 0 .value .warm
  | .LANE_CTL_RELEASE => fldOwn (barArr 0x104004 0x40 8 false) 0 0 .w1s 0 .value .warm
  | .HASH_CTL_QUARANTINE => fldOwn (barArr 0x106004 0x40 4 false) 1 1 .w1s 0 .value .warm
  | .HASH_CTL_RELEASE => fldOwn (barArr 0x106004 0x40 4 false) 0 0 .w1s 0 .value .warm
  | .LANE_MISMATCH_COUNT_COUNT => fld (barArr 0x104008 0x40 8 false) 31 0 .ro 0 .value .warm
  | .HASH_MISMATCH_COUNT_COUNT => fld (barArr 0x106008 0x40 4 false) 31 0 .ro 0 .value .warm
  | .LANE_LAST_MISMATCH_KIND => fld (barArr 0x10400c 0x40 8 false) 31 28 .ro 0 .value .warm
  | .LANE_LAST_MISMATCH_TENANT => fld (barArr 0x10400c 0x40 8 false) 10 0 .ro 0 .value .warm
  | .HASH_LAST_MISMATCH_KIND => fld (barArr 0x10600c 0x40 4 false) 31 28 .ro 0 .value .warm
  | .HASH_LAST_MISMATCH_TENANT => fld (barArr 0x10600c 0x40 4 false) 10 0 .ro 0 .value .warm
  | .KFT_GEOMETRY_CACHE_UNITS => fld (bar32 0x200000) 23 16 .ro 0 .tin .warm
  | .KFT_GEOMETRY_MAIN_UNITS => fld (bar32 0x200000) 14 0 .ro 0 .tin .warm
  | .KFT_SWEEP_CTL_PASS_MIN => fld (bar32 0x200004) 10 0 .ro 0x3c .tin .warm
  | .KFT_SWEEP_STATUS_PASSES => fld (bar32 0x200008) 31 16 .ro 0 .value .warm
  | .KFT_SWEEP_STATUS_PROGRESS => fld (bar32 0x200008) 15 0 .ro 0 .value .warm
  | .KFT_MINUTE_MINUTE => fld (bar32 0x20000c) 15 0 .ro 0 .value .ensemble
  | .KFT_LOCK_CTL_PER_TENANT => fld (bar32 0x200010) 19 16 .rw 4 .value .warm
  | .KFT_LOCK_CTL_TIMEOUT => fld (bar32 0x200010) 9 0 .rw 0xa .value .warm
  | .KFT_EVENT_SWEEP_LATE => fld (bar32 0x200014) 3 3 .w1c 0 .value .warm
  | .KFT_EVENT_LOCK_TIMEOUT => fld (bar32 0x200014) 2 2 .w1c 0 .value .warm
  | .KFT_EVENT_TABLE_FULL => fld (bar32 0x200014) 1 1 .w1c 0 .value .warm
  | .KFT_EVENT_QUOTA_WARN => fld (bar32 0x200014) 0 0 .w1c 0 .value .warm
  | .KFT_EVENT_EN_SWEEP_LATE => fld (bar32 0x200018) 3 3 .rw 0 .value .warm
  | .KFT_EVENT_EN_LOCK_TIMEOUT => fld (bar32 0x200018) 2 2 .rw 0 .value .warm
  | .KFT_EVENT_EN_TABLE_FULL => fld (bar32 0x200018) 1 1 .rw 0 .value .warm
  | .KFT_EVENT_EN_QUOTA_WARN => fld (bar32 0x200018) 0 0 .rw 0 .value .warm
  | .KFT_FULL_COUNT_COUNT => fld (bar32 0x20001c) 31 0 .ro 0 .value .warm
  | .KFT_RELOC_COUNT_COUNT => fld (bar32 0x200020) 31 0 .ro 0 .value .warm
  | .KFT_MAIN_USED_COUNT => fld (bar32 0x200024) 31 0 .ro 0 .value .warm
  | .KFT_CRUMB_USED_COUNT => fld (bar32 0x200028) 31 0 .ro 0 .value .warm
  | .KFT_LEARN_COUNT_COUNT => fld (bar64 0x200030) 63 0 .ro 0 .value .ensemble
  | .KFT_TEN_USED_SLOTS => fld (barArr 0x202000 0x4 2048 false) 31 0 .ro 0 .value .warm
  | .KFT_TEN_CFG_AGED_NTF => fld (page32 0x4000) 16 16 .rw 1 .value .tenant
  | .KFT_TEN_CFG_AGE_LIMIT => fld (page32 0x4000) 15 0 .ro 0 .tin .warm
  | .KFT_TEN_SHARE_SLOTS => fld (page32 0x4004) 31 0 .ro 0 .tin .warm
  | .KFT_TEN_TOTAL_SLOTS => fld (page32 0x4008) 31 0 .ro 0 .value .warm
  | .KFT_TEN_KEYS_QUOTA => fld (page32 0x4010) 16 0 .ro 0 .tin .warm
  | .KFT_TEN_LOCKS_HELD => fld (page32 0x4014) 3 0 .ro 0 .value .tenant
  | .KFT_TEN_FULL_QUOTA_REFUSED => fld (page32 0x4018) 31 16 .ro 0 .value .warm
  | .KFT_TEN_FULL_TABLE_FULL => fld (page32 0x4018) 15 0 .ro 0 .value .warm
  | .MLF_SLICE_BASE_ADDR => fld (bar64 0x300000) 63 0 .ro 0 .tin .warm
  | .MLF_SLICE_SIZE_TREE_MIB => fld (bar32 0x300008) 29 16 .ro 0 .tin .warm
  | .MLF_SLICE_SIZE_SIZE_GIB => fld (bar32 0x300008) 9 0 .ro 0 .tin .warm
  | .MLF_STATUS_MIRROR_OK => fld (bar32 0x30000c) 8 8 .ro 0 .value .warm
  | .MLF_STATUS_ADOPTED_POS => fld (bar32 0x30000c) 6 4 .ro 0 .value .warm
  | .MLF_STATUS_ADOPTED => fld (bar32 0x30000c) 3 3 .ro 0 .value .warm
  | .MLF_STATUS_STATE => fld (bar32 0x30000c) 2 0 .ro 0 .value .warm
  | .MLF_EVENT_EPOCH_BUMPED => fld (bar32 0x300010) 5 5 .w1c 0 .value .warm
  | .MLF_EVENT_RESEAL_STALL => fld (bar32 0x300010) 4 4 .w1c 0 .value .warm
  | .MLF_EVENT_ADOPTED => fld (bar32 0x300010) 3 3 .w1c 0 .value .warm
  | .MLF_EVENT_MIRROR_LOST => fld (bar32 0x300010) 2 2 .w1c 0 .value .warm
  | .MLF_EVENT_POISON_FULL => fld (bar32 0x300010) 1 1 .w1c 0 .value .warm
  | .MLF_EVENT_INTEGRITY => fld (bar32 0x300010) 0 0 .w1c 0 .value .warm
  | .MLF_EVENT_EN_EPOCH_BUMPED => fld (bar32 0x300014) 5 5 .rw 0 .value .warm
  | .MLF_EVENT_EN_RESEAL_STALL => fld (bar32 0x300014) 4 4 .rw 0 .value .warm
  | .MLF_EVENT_EN_ADOPTED => fld (bar32 0x300014) 3 3 .rw 0 .value .warm
  | .MLF_EVENT_EN_MIRROR_LOST => fld (bar32 0x300014) 2 2 .rw 0 .value .warm
  | .MLF_EVENT_EN_POISON_FULL => fld (bar32 0x300014) 1 1 .rw 0 .value .warm
  | .MLF_EVENT_EN_INTEGRITY => fld (bar32 0x300014) 0 0 .rw 0 .value .warm
  | .MLF_INTEG_COUNT_COUNT => fld (bar32 0x300018) 31 0 .ro 0 .value .warm
  | .MLF_INTEG_ADDR_OFFSET => fld (bar64 0x300020) 38 0 .ro 0 .value .warm
  | .MLF_INTEG_INFO_TENANT => fld (bar32 0x300028) 26 16 .ro 0 .value .warm
  | .MLF_INTEG_INFO_ADOPTED_SLICE => fld (bar32 0x300028) 8 8 .ro 0 .value .warm
  | .MLF_INTEG_INFO_KIND => fld (bar32 0x300028) 7 4 .ro 0 .value .warm
  | .MLF_INTEG_INFO_LEVEL => fld (bar32 0x300028) 2 0 .ro 0 .value .warm
  | .MLF_TREE_STATUS_RESEALS => fld (bar32 0x300030) 22 16 .ro 0 .value .warm
  | .MLF_TREE_STATUS_DIRTY_L2 => fld (bar32 0x300030) 13 0 .ro 0 .value .warm
  | .MLF_CACHE_STATUS_PENDING => fld (bar32 0x300034) 31 16 .ro 0 .value .warm
  | .MLF_CACHE_STATUS_CAPACITY => fld (bar32 0x300034) 15 0 .ro 0 .tin .warm
  | .MLF_RESEAL_COUNT_COUNT => fld (bar32 0x300038) 31 0 .ro 0 .value .warm
  | .MLF_POISON_CTL_REFORMAT => fldOwn (bar32 0x300040) 16 16 .w1s 0 .value .warm
  | .MLF_POISON_CTL_INDEX => fld (bar32 0x300040) 7 0 .rw 0 .value .warm
  | .MLF_POISON_STATUS_COUNT => fld (bar32 0x300044) 8 0 .ro 0 .value .warm
  | .MLF_POISON_ENTRY_VALID => fld (bar64 0x300048) 63 63 .ro 0 .value .warm
  | .MLF_POISON_ENTRY_LEVEL => fld (bar64 0x300048) 41 39 .ro 0 .value .warm
  | .MLF_POISON_ENTRY_OFFSET => fld (bar64 0x300048) 38 0 .ro 0 .value .warm
  | .MLF_ARCHIVE_EPOCH_EPOCH => fld (bar32 0x300050) 31 0 .ro 0 .nvm .cold
  | .MLF_ARCHIVE_CTL_CONFIRM => fldOwn (bar32 0x300054) 15 8 .wo 0 .value .cold
  | .MLF_ARCHIVE_CTL_BUMP => fldOwn (bar32 0x300054) 0 0 .w1s 0 .value .warm
  | .CON_CTL_RECORE_ALWAYS => fld (bar32 0x400000) 0 0 .rw 0 .value .warm
  | .CON_CORES_IN_SERVICE_CORES => fld (bar32 0x400004) 23 0 .ro 0xffffff .value .warm
  | .CON_CORES_HELD_CORES => fld (bar32 0x400008) 23 0 .ro 0 .value .warm
  | .CON_CORES_QUARANTINED_CORES => fld (bar32 0x40000c) 23 0 .ro 0 .value .warm
  | .CON_QUEUE_STATUS_LONG_WAITING => fld (bar32 0x400010) 28 16 .ro 0 .value .warm
  | .CON_QUEUE_STATUS_SHORT_WAITING => fld (bar32 0x400010) 12 0 .ro 0 .value .warm
  | .CON_CURVES_USED_COUNT => fld (bar32 0x400014) 9 0 .ro 0 .value .warm
  | .CON_JOB_COUNT_COUNT => fld (bar32 0x400018) 31 0 .ro 0 .value .warm
  | .CON_ABORT_COUNT_COUNT => fld (bar32 0x40001c) 31 0 .ro 0 .value .warm
  | .CON_CORE_STATUS_TENANT => fld (barArr 0x401000 0x40 24 false) 31 21 .ro 0 .value .warm
  | .CON_CORE_STATUS_LONG => fld (barArr 0x401000 0x40 24 false) 20 20 .ro 0 .value .warm
  | .CON_CORE_STATUS_CONTEXTS_BUSY => fld (barArr 0x401000 0x40 24 false) 19 16 .ro 0 .value .warm
  | .CON_CORE_STATUS_RECENT => fld (barArr 0x401000 0x40 24 false) 13 12 .ro 0 .value .warm
  | .CON_CORE_STATUS_KAT_FAIL => fld (barArr 0x401000 0x40 24 false) 3 3 .ro 0 .value .warm
  | .CON_CORE_STATUS_HELD => fld (barArr 0x401000 0x40 24 false) 2 2 .ro 0 .value .warm
  | .CON_CORE_STATUS_STATE => fld (barArr 0x401000 0x40 24 false) 1 0 .ro 0 .value .warm
  | .CON_CORE_CTL_QUARANTINE => fldOwn (barArr 0x401004 0x40 24 false) 1 1 .w1s 0 .value .warm
  | .CON_CORE_CTL_RELEASE => fldOwn (barArr 0x401004 0x40 24 false) 0 0 .w1s 0 .value .warm
  | .CON_CORE_MISMATCH_COUNT_COUNT => fld (barArr 0x401008 0x40 24 false) 31 0 .ro 0 .value .warm
  | .CON_CORE_LAST_MISMATCH_KIND => fld (barArr 0x40100c 0x40 24 false) 31 28 .ro 0 .value .warm
  | .CON_CORE_LAST_MISMATCH_TENANT => fld (barArr 0x40100c 0x40 24 false) 10 0 .ro 0 .value .warm
  | .CON_CORE_JOBS_COUNT => fld (barArr 0x401010 0x40 24 false) 31 0 .ro 0 .value .warm
  | .CON_TEN_CURVES_LOADED_MASK => fld (barArr 0x402000 0x4 256 false) 31 16 .ro 0 .value .tenant
  | .CON_TEN_CURVES_COUNT => fld (barArr 0x402000 0x4 256 false) 4 0 .ro 0 .value .tenant
  | .NTT_CTL_RECORE_ALWAYS => fld (bar32 0x480000) 0 0 .rw 0 .value .warm
  | .NTT_CORES_QUARANTINED => fld (bar32 0x480004) 11 8 .ro 0 .value .warm
  | .NTT_CORES_IN_SERVICE => fld (bar32 0x480004) 3 0 .ro 0xf .value .warm
  | .NTT_QUEUE_STATUS_WAITING => fld (bar32 0x480008) 10 0 .ro 0 .value .warm
  | .NTT_HS_CTL_RETAIN_H => fld (bar32 0x480010) 15 8 .rw 0x18 .value .warm
  | .NTT_HS_CTL_IDLE_S => fld (bar32 0x480010) 7 0 .rw 0xa .value .warm
  | .NTT_HS_STATUS_CTX_USED => fld (bar32 0x480014) 17 0 .ro 0 .value .warm
  | .NTT_HS_DONE_COUNT => fld (bar32 0x480018) 31 0 .ro 0 .value .warm
  | .NTT_HS_FAILED_COUNT => fld (bar32 0x48001c) 31 0 .ro 0 .value .warm
  | .NTT_HS_EXPIRED_COUNT => fld (bar32 0x480020) 31 0 .ro 0 .value .warm
  | .NTT_TICKET_EPOCH_EPOCH => fld (bar32 0x480024) 31 0 .ro 0 .nvm .cold
  | .NTT_CORE_STATUS_TENANT => fld (barArr 0x481000 0x40 4 false) 31 21 .ro 0 .value .warm
  | .NTT_CORE_STATUS_SIGNING => fld (barArr 0x481000 0x40 4 false) 20 20 .ro 0 .value .warm
  | .NTT_CORE_STATUS_CONTEXTS_BUSY => fld (barArr 0x481000 0x40 4 false) 19 18 .ro 0 .value .warm
  | .NTT_CORE_STATUS_RECENT => fld (barArr 0x481000 0x40 4 false) 13 12 .ro 0 .value .warm
  | .NTT_CORE_STATUS_KAT_FAIL => fld (barArr 0x481000 0x40 4 false) 3 3 .ro 0 .value .warm
  | .NTT_CORE_STATUS_STATE => fld (barArr 0x481000 0x40 4 false) 1 0 .ro 0 .value .warm
  | .NTT_CORE_CTL_QUARANTINE => fldOwn (barArr 0x481004 0x40 4 false) 1 1 .w1s 0 .value .warm
  | .NTT_CORE_CTL_RELEASE => fldOwn (barArr 0x481004 0x40 4 false) 0 0 .w1s 0 .value .warm
  | .NTT_CORE_MISMATCH_COUNT_COUNT => fld (barArr 0x481008 0x40 4 false) 31 0 .ro 0 .value .warm
  | .NTT_CORE_JOBS_COUNT => fld (barArr 0x481010 0x40 4 false) 31 0 .ro 0 .value .warm
  | .NTT_CORE_LAST_MISMATCH_KIND => fld (barArr 0x48100c 0x40 4 false) 31 28 .ro 0 .value .warm
  | .NTT_CORE_LAST_MISMATCH_TENANT => fld (barArr 0x48100c 0x40 4 false) 10 0 .ro 0 .value .warm
  | .KEY_ROOT_STATUS_SHARES_FOUND => fld (bar32 0x500000) 19 16 .ro 0 .value .ensemble
  | .KEY_ROOT_STATUS_THRESHOLD => fld (bar32 0x500000) 15 12 .ro 0 .tin .cold
  | .KEY_ROOT_STATUS_COMBINE_FAIL => fld (bar32 0x500000) 5 5 .ro 0 .value .ensemble
  | .KEY_ROOT_STATUS_ESK_VALID => fld (bar32 0x500000) 4 4 .ro 0 .value .warm
  | .KEY_ROOT_STATUS_SHARE_LOST => fld (bar32 0x500000) 3 3 .ro 0 .value .warm
  | .KEY_ROOT_STATUS_SHARE_HELD => fld (bar32 0x500000) 2 2 .ro 0 .value .warm
  | .KEY_ROOT_STATUS_BBK_VALID => fld (bar32 0x500000) 1 1 .ro 0 .backup .cold
  | .KEY_ROOT_STATUS_PUF_FAIL => fld (bar32 0x500000) 0 0 .ro 0 .value .cold
  | .KEY_SEAL_MASK_PENDING => fld (bar32 0x500004) 16 16 .ro 0 .nvm .cold
  | .KEY_SEAL_MASK_PENDING_MASK => fld (bar32 0x500004) 15 8 .ro 0 .nvm .cold
  | .KEY_SEAL_MASK_MASK => fld (bar32 0x500004) 7 0 .ro 0x1f .nvm .cold
  | .KEY_CEREMONY_STATUS_REMAINING_S => fld (bar32 0x500008) 22 14 .ro 0 .value .warm
  | .KEY_CEREMONY_STATUS_APPROVALS => fld (bar32 0x500008) 13 10 .ro 0 .value .warm
  | .KEY_CEREMONY_STATUS_M => fld (bar32 0x500008) 9 6 .ro 0 .nvm .cold
  | .KEY_CEREMONY_STATUS_KIND => fld (bar32 0x500008) 5 2 .ro 0 .value .warm
  | .KEY_CEREMONY_STATUS_STATE => fld (bar32 0x500008) 1 0 .ro 0 .value .warm
  | .KEY_CEREMONY_SERIAL_SERIAL => fld (bar64 0x500010) 63 0 .ro 0 .nvm .cold
  | .KEY_CUSTODIANS_OWNER_SET => fld (bar32 0x500018) 16 16 .ro 0 .nvm .cold
  | .KEY_CUSTODIANS_ALG_MLDSA => fld (bar32 0x500018) 15 8 .ro 0 .nvm .cold
  | .KEY_CUSTODIANS_REGISTERED => fld (bar32 0x500018) 7 0 .ro 0 .nvm .cold
  | .KEY_EVENT_MIGRATION_DONE => fld (bar32 0x50001c) 4 4 .w1c 0 .value .warm
  | .KEY_EVENT_SHARE_LOST => fld (bar32 0x50001c) 3 3 .w1c 0 .value .warm
  | .KEY_EVENT_TOKEN_REJECTED => fld (bar32 0x50001c) 2 2 .w1c 0 .value .warm
  | .KEY_EVENT_CEREMONY_LAPSED => fld (bar32 0x50001c) 1 1 .w1c 0 .value .warm
  | .KEY_EVENT_CEREMONY_DONE => fld (bar32 0x50001c) 0 0 .w1c 0 .value .warm
  | .KEY_EVENT_EN_MIGRATION_DONE => fld (bar32 0x500020) 4 4 .rw 0 .value .warm
  | .KEY_EVENT_EN_SHARE_LOST => fld (bar32 0x500020) 3 3 .rw 0 .value .warm
  | .KEY_EVENT_EN_TOKEN_REJECTED => fld (bar32 0x500020) 2 2 .rw 0 .value .warm
  | .KEY_EVENT_EN_CEREMONY_LAPSED => fld (bar32 0x500020) 1 1 .rw 0 .value .warm
  | .KEY_EVENT_EN_CEREMONY_DONE => fld (bar32 0x500020) 0 0 .rw 0 .value .warm
  | .KEY_CACHE_STATUS_UNITS_USED => fld (bar32 0x500024) 16 0 .ro 0 .value .warm
  | .KEY_MEAS_DIGEST => fld (barArr2 0x500100 0x40 8 0x8 6 true) 63 0 .so 0 .value .warm
  | .KEY_TEN_HANDLES_USED => fld (page32 0x4100) 16 0 .ro 0 .value .warm
  | .KEY_TEN_GEN_GEN => fld (page32 0x4104) 31 0 .ro 0 .nvm .cold
  | .KEY_TEN_VGEN_GEN => fld (page32 0x4108) 31 0 .ro 0 .value .ensemble
  | .KEY_TEN_EXHAUSTED_COUNT => fld (page32 0x410c) 31 0 .ro 0 .value .warm
  | .RNG_STATUS_FAIL_SOURCES => fld (bar32 0x580000) 23 20 .ro 0 .value .warm
  | .RNG_STATUS_RERUNS => fld (bar32 0x580000) 17 16 .ro 0 .value .warm
  | .RNG_STATUS_SEEDED => fld (bar32 0x580000) 15 8 .ro 0 .value .warm
  | .RNG_STATUS_STATE => fld (bar32 0x580000) 1 0 .ro 0 .value .warm
  | .RNG_EVENT_FAULT => fld (bar32 0x580004) 3 3 .w1c 0 .value .warm
  | .RNG_EVENT_RESTARTED => fld (bar32 0x580004) 2 2 .w1c 0 .value .warm
  | .RNG_EVENT_HEALTH_FAIL => fld (bar32 0x580004) 1 1 .w1c 0 .value .warm
  | .RNG_EVENT_READY => fld (bar32 0x580004) 0 0 .w1c 0 .value .warm
  | .RNG_EVENT_EN_FAULT => fld (bar32 0x580008) 3 3 .rw 0 .value .warm
  | .RNG_EVENT_EN_RESTARTED => fld (bar32 0x580008) 2 2 .rw 0 .value .warm
  | .RNG_EVENT_EN_HEALTH_FAIL => fld (bar32 0x580008) 1 1 .rw 0 .value .warm
  | .RNG_EVENT_EN_READY => fld (bar32 0x580008) 0 0 .rw 0 .value .warm
  | .RNG_HEALTH_CFG_APT_CUTOFF => fld (bar32 0x58000c) 25 16 .ro 0x319 .value .cold
  | .RNG_HEALTH_CFG_RCT_CUTOFF => fld (bar32 0x58000c) 7 0 .ro 0x29 .value .cold
  | .RNG_SRC_STATUS_APT_PEAK => fld (barArr 0x580010 0x4 4 false) 25 16 .ro 0 .value .warm
  | .RNG_SRC_STATUS_RCT_PEAK => fld (barArr 0x580010 0x4 4 false) 7 0 .ro 0 .value .warm
  | .RNG_FAIL_COUNT_COUNT => fld (bar32 0x580020) 31 0 .ro 0 .value .cold
  | .RNG_RESEED_COUNT_COUNT => fld (bar32 0x580024) 31 0 .ro 0 .value .warm
  | .RNG_QUEUE_STATUS_FE_BYTES => fld (bar32 0x580030) 29 17 .ro 0 .value .warm
  | .RNG_QUEUE_STATUS_DRBG_BYTES => fld (bar32 0x580030) 16 0 .ro 0 .value .warm
  | .RNG_WAITING_COUNT => fld (bar32 0x580034) 15 0 .ro 0 .value .warm
  | .RNG_TEST_INJECT_SRC => fld (bar32 0x580040) 5 4 .rw 0 .value .warm
  | .RNG_TEST_INJECT => fldOwn (bar32 0x580040) 1 1 .w1s 0 .value .warm
  | .RNG_TEST_RAW_EN => fld (bar32 0x580040) 0 0 .rw 0 .value .warm
  | .RNG_RAW_SAMPLES => fld (bar64 0x580048) 63 0 .ro 0 .value .warm
  | .RNG_TEN_CFG_FE_ALLOWED => fld (page32 0x4200) 16 16 .ro 0 .tin .warm
  | .RNG_TEN_CFG_RATE => fld (page32 0x4200) 11 0 .ro 0 .tin .warm
  | .RNG_TEN_BYTES_COUNT => fld (page32 0x4204) 31 0 .ro 0 .value .tenant
  | .TEN_CMD_CMD => fldOwn (barArr 0x680000 0x40 256 false) 2 0 .wo 0 .value .cold
  | .TEN_STATE_CMD_RESULT => fld (barArr 0x680004 0x40 256 false) 19 16 .ro 0 .value .warm
  | .TEN_STATE_LOGGING => fld (barArr 0x680004 0x40 256 false) 10 10 .ro 0 .value .warm
  | .TEN_STATE_STEWARD => fld (barArr 0x680004 0x40 256 false) 9 9 .ro 0 .tin .warm
  | .TEN_STATE_FORCED => fld (barArr 0x680004 0x40 256 false) 8 8 .ro 0 .value .warm
  | .TEN_STATE_STATE => fld (barArr 0x680004 0x40 256 false) 2 0 .ro 0 .tin .warm
  | .TEN_SHARE_LANE => fld (barArr 0x680008 0x40 256 false) 31 24 .ro 0 .tin .warm
  | .TEN_SHARE_CON => fld (barArr 0x680008 0x40 256 false) 23 16 .ro 0 .tin .warm
  | .TEN_SHARE_NTT => fld (barArr 0x680008 0x40 256 false) 15 8 .ro 0 .tin .warm
  | .TEN_SHARE_CAP => fld (barArr 0x680008 0x40 256 false) 7 7 .ro 0 .tin .warm
  | .TEN_SHARE_PAIRS => fld (barArr 0x680008 0x40 256 false) 4 0 .ro 0 .tin .warm
  | .TEN_USE_LANE => fld (barArr 0x68000c 0x40 256 false) 31 24 .ro 0 .value .warm
  | .TEN_USE_CON => fld (barArr 0x68000c 0x40 256 false) 23 16 .ro 0 .value .warm
  | .TEN_USE_NTT => fld (barArr 0x68000c 0x40 256 false) 15 8 .ro 0 .value .warm
  | .TEN_USE_DEBT => fld (barArr 0x68000c 0x40 256 false) 7 0 .ro 0 .value .warm
  | .TEN_MIG_BITMAP_VALUE => fld (barArr 0x680010 0x40 256 true) 63 0 .ro 0 .value .warm
  | .TEN_MIG_RANGE_BASE_VALUE => fld (barArr 0x680018 0x40 256 true) 63 0 .ro 0 .value .warm
  | .TEN_MIG_RANGE_LEN_VALUE => fld (barArr 0x680020 0x40 256 true) 63 0 .ro 0 .value .warm
  | .TEN_MIG_UNTRACKED_VALUE => fld (barArr 0x680028 0x40 256 false) 31 0 .ro 0 .value .warm
  | .TEN_QUIESCE_TIME_VALUE => fld (barArr 0x68002c 0x40 256 false) 31 0 .ro 0 .value .warm
  | .TEN_STEWARD_DEPTH_VALUE => fld (barArr 0x680030 0x40 256 false) 31 0 .ro 0 .value .warm
  | .TEN_EPOCH_COUNT => fld (bar64 0x684000) 63 0 .ro 0 .value .warm
  | .TEN_EVENT_ROTATION_FAIL => fld (bar32 0x684008) 5 5 .w1c 0 .value .warm
  | .TEN_EVENT_STEWARD_OP => fld (bar32 0x684008) 4 4 .w1c 0 .value .warm
  | .TEN_EVENT_REMOVE_DONE => fld (bar32 0x684008) 3 3 .w1c 0 .value .warm
  | .TEN_EVENT_FORCED => fld (bar32 0x684008) 2 2 .w1c 0 .value .warm
  | .TEN_EVENT_QUIESCE_LATE => fld (bar32 0x684008) 1 1 .w1c 0 .value .warm
  | .TEN_EVENT_QUIESCE_DONE => fld (bar32 0x684008) 0 0 .w1c 0 .value .warm
  | .TEN_EVENT_EN_ROTATION_FAIL => fld (bar32 0x68400c) 5 5 .rw 0 .value .warm
  | .TEN_EVENT_EN_STEWARD_OP => fld (bar32 0x68400c) 4 4 .rw 0 .value .warm
  | .TEN_EVENT_EN_REMOVE_DONE => fld (bar32 0x68400c) 3 3 .rw 0 .value .warm
  | .TEN_EVENT_EN_FORCED => fld (bar32 0x68400c) 2 2 .rw 0 .value .warm
  | .TEN_EVENT_EN_QUIESCE_LATE => fld (bar32 0x68400c) 1 1 .rw 0 .value .warm
  | .TEN_EVENT_EN_QUIESCE_DONE => fld (bar32 0x68400c) 0 0 .rw 0 .value .warm
  | .TEN_PAGE_STATE_STATE => fld (page32 0x3000) 2 0 .ro 0 .tin .warm
  | .TEN_PAGE_SHARE_ALL => fld (page32 0x3004) 31 0 .ro 0 .tin .warm
  | .TEN_PAGE_MODE_STEWARD => fld (page32 0x3008) 0 0 .ro 0 .tin .warm
  | .TIN_STATUS_LAST_REASON => fld (bar32 0x700000) 23 16 .ro 0 .value .warm
  | .TIN_STATUS_DELTAS => fld (bar32 0x700000) 15 8 .ro 0 .nvm .cold
  | .TIN_STATUS_BUSY => fld (bar32 0x700000) 5 5 .ro 0 .value .warm
  | .TIN_STATUS_STAGED => fld (bar32 0x700000) 4 4 .ro 0 .nvm .cold
  | .TIN_STATUS_SOURCE => fld (bar32 0x700000) 0 0 .ro 0 .nvm .cold
  | .TIN_SERIAL_VALUE => fld (bar32 0x700004) 31 0 .ro 0 .nvm .cold
  | .TIN_DELTA_SEQ_VALUE => fld (bar32 0x700008) 31 0 .ro 0 .nvm .cold
  | .TIN_STAGED_SERIAL_VALUE => fld (bar32 0x70000c) 31 0 .ro 0 .nvm .cold
  | .TIN_DIGEST_DIGEST => fld (barArr 0x700010 0x8 6 true) 63 0 .ro 0 .nvm .cold
  | .TIN_STAGED_DIGEST_DIGEST => fld (barArr 0x700040 0x8 6 true) 63 0 .ro 0 .nvm .cold
  | .TIN_POLICY_DIGEST_DIGEST => fld (barArr 0x700070 0x8 6 true) 63 0 .ro 0 .nvm .cold
  | .TIN_GEOM_DIGEST_DIGEST => fld (barArr 0x7000a0 0x8 6 true) 63 0 .ro 0 .nvm .cold
  | .TIN_EVENT_DEFAULT_BOOT => fld (bar32 0x7000d8) 4 4 .w1c 0 .value .warm
  | .TIN_EVENT_REFUSED => fld (bar32 0x7000d8) 3 3 .w1c 0 .value .warm
  | .TIN_EVENT_DELTA_APPLIED => fld (bar32 0x7000d8) 2 2 .w1c 0 .value .warm
  | .TIN_EVENT_ACTIVATED => fld (bar32 0x7000d8) 1 1 .w1c 0 .value .warm
  | .TIN_EVENT_STAGED => fld (bar32 0x7000d8) 0 0 .w1c 0 .value .warm
  | .TIN_EVENT_EN_DEFAULT_BOOT => fld (bar32 0x7000dc) 4 4 .rw 0 .value .warm
  | .TIN_EVENT_EN_REFUSED => fld (bar32 0x7000dc) 3 3 .rw 0 .value .warm
  | .TIN_EVENT_EN_DELTA_APPLIED => fld (bar32 0x7000dc) 2 2 .rw 0 .value .warm
  | .TIN_EVENT_EN_ACTIVATED => fld (bar32 0x7000dc) 1 1 .rw 0 .value .warm
  | .TIN_EVENT_EN_STAGED => fld (bar32 0x7000dc) 0 0 .rw 0 .value .warm
  | .TIN_NVM_USE_CHAIN_BYTES => fld (bar32 0x7000e0) 18 0 .ro 0 .nvm .cold
  | .ENS_STATUS_FAULT => fld (bar32 0x600000) 19 16 .ro 0 .value .cold
  | .ENS_STATUS_ACTING_LEAD => fld (bar32 0x600000) 15 13 .ro 0 .value .ensemble
  | .ENS_STATUS_LEAD_POS => fld (bar32 0x600000) 12 10 .ro 0 .strap .cold
  | .ENS_STATUS_POSITION => fld (bar32 0x600000) 9 7 .ro 0 .strap .cold
  | .ENS_STATUS_SIZE => fld (bar32 0x600000) 6 3 .ro 0 .value .ensemble
  | .ENS_STATUS_STATE => fld (bar32 0x600000) 2 0 .ro 0 .value .warm
  | .ENS_LINKS_REPAIRED_B => fld (bar32 0x600004) 11 10 .ro 0 .value .warm
  | .ENS_LINKS_REPAIRED_A => fld (bar32 0x600004) 9 8 .ro 0 .value .warm
  | .ENS_LINKS_AUTH_FAIL_B => fld (bar32 0x600004) 3 3 .ro 0 .value .warm
  | .ENS_LINKS_AUTH_FAIL_A => fld (bar32 0x600004) 2 2 .ro 0 .value .warm
  | .ENS_LINKS_UP_B => fld (bar32 0x600004) 1 1 .ro 0 .value .warm
  | .ENS_LINKS_UP_A => fld (bar32 0x600004) 0 0 .ro 0 .value .warm
  | .ENS_CTL_POS => fld (bar32 0x600008) 19 16 .rw 0 .value .ensemble
  | .ENS_CTL_HANDBACK => fldOwn (bar32 0x600008) 12 12 .w1s 0 .value .ensemble
  | .ENS_CTL_LINK_GRACE => fld (bar32 0x600008) 11 0 .rw 0xa .value .ensemble
  | .ENS_SERVE_SERVER => fld (bar32 0x60000c) 31 0 .ro 0x76543210 .value .ensemble
  | .ENS_EVENT_ACTIVATION_MISSED => fld (bar32 0x600010) 9 9 .w1c 0 .value .warm
  | .ENS_EVENT_ACTIVATED => fld (bar32 0x600010) 8 8 .w1c 0 .value .warm
  | .ENS_EVENT_ARMED => fld (bar32 0x600010) 7 7 .w1c 0 .value .warm
  | .ENS_EVENT_QUARANTINE => fld (bar32 0x600010) 6 6 .w1c 0 .value .warm
  | .ENS_EVENT_MISMATCH => fld (bar32 0x600010) 5 5 .w1c 0 .value .warm
  | .ENS_EVENT_STEER_REFUSED => fld (bar32 0x600010) 4 4 .w1c 0 .value .warm
  | .ENS_EVENT_HANDBACK_DONE => fld (bar32 0x600010) 3 3 .w1c 0 .value .warm
  | .ENS_EVENT_LINK_DOWN => fld (bar32 0x600010) 2 2 .w1c 0 .value .warm
  | .ENS_EVENT_DIE_FAILED => fld (bar32 0x600010) 1 1 .w1c 0 .value .warm
  | .ENS_EVENT_CFG_FAULT => fld (bar32 0x600010) 0 0 .w1c 0 .value .cold
  | .ENS_EVENT_EN_ACTIVATION_MISSED => fld (bar32 0x600014) 9 9 .rw 0 .value .warm
  | .ENS_EVENT_EN_ACTIVATED => fld (bar32 0x600014) 8 8 .rw 0 .value .warm
  | .ENS_EVENT_EN_ARMED => fld (bar32 0x600014) 7 7 .rw 0 .value .warm
  | .ENS_EVENT_EN_QUARANTINE => fld (bar32 0x600014) 6 6 .rw 0 .value .warm
  | .ENS_EVENT_EN_MISMATCH => fld (bar32 0x600014) 5 5 .rw 0 .value .warm
  | .ENS_EVENT_EN_STEER_REFUSED => fld (bar32 0x600014) 4 4 .rw 0 .value .warm
  | .ENS_EVENT_EN_HANDBACK_DONE => fld (bar32 0x600014) 3 3 .rw 0 .value .warm
  | .ENS_EVENT_EN_LINK_DOWN => fld (bar32 0x600014) 2 2 .rw 0 .value .warm
  | .ENS_EVENT_EN_DIE_FAILED => fld (bar32 0x600014) 1 1 .rw 0 .value .warm
  | .ENS_EVENT_EN_CFG_FAULT => fld (bar32 0x600014) 0 0 .rw 0 .value .cold
  | .ENS_IDENTITY_DIGEST => fld (barArr 0x600040 0x8 6 true) 63 0 .ro 0 .nvm .cold
  | .ENS_ADMIT_IDENTITY_DIGEST => fld (barArr 0x600070 0x8 6 true) 63 0 .ro 0 .value .warm
  | .ENS_DOMAIN_STATUS_ROOT => fld (bar32 0x6000a0) 15 15 .ro 0 .nvm .cold
  | .ENS_DOMAIN_STATUS_ADMIT_PENDING => fld (bar32 0x6000a0) 14 14 .ro 0 .value .warm
  | .ENS_DOMAIN_STATUS_JOIN_OUT => fld (bar32 0x6000a0) 13 13 .ro 0 .nvm .cold
  | .ENS_DOMAIN_STATUS_ARMED => fld (bar32 0x6000a0) 12 12 .ro 0 .value .ensemble
  | .ENS_DOMAIN_STATUS_MEMBER => fld (bar32 0x6000a0) 11 0 .ro 0 .nvm .cold
  | .ENS_DOMAIN_EPOCH_VALUE => fld (bar64 0x6000a8) 63 0 .ro 0 .nvm .cold
  | .ENS_DOMAIN_TIME_VALUE => fld (bar64 0x6000b0) 63 0 .rw 0 .value .ensemble
  | .ENS_ACT_TIME_VALUE => fld (bar64 0x6000b8) 63 0 .ro 0 .value .ensemble
  | .ENS_DOMAIN_COUNTS_MISMATCHED => fld (bar32 0x6000c0) 28 16 .ro 0 .value .warm
  | .ENS_DOMAIN_COUNTS_PRESENT => fld (bar32 0x6000c0) 12 0 .ro 0 .value .warm
  | .ENS_ENV_OUT_BASE_ADDR => fld (bar64 0x6000d0) 63 0 .rw 0 .value .warm
  | .ENS_ENV_OUT_CTL_LOST => fld (bar32 0x6000d8) 31 16 .ro 0 .value .warm
  | .ENS_ENV_OUT_CTL_SIZE_LOG2 => fld (bar32 0x6000d8) 11 8 .rw 4 .value .warm
  | .ENS_ENV_OUT_CTL_ENABLE => fld (bar32 0x6000d8) 0 0 .rw 0 .value .warm
  | .ENS_ENV_OUT_TAIL_INDEX => fld (bar32 0x6000dc) 31 0 .ro 0 .value .warm
  | .ENS_ENV_OUT_HEAD_INDEX => fld (bar32 0x6000e0) 31 0 .rw 0 .value .warm
  | .ENS_STEER_PREV_VALID => fld (barArr 0x600100 0x4 64 false) 3 3 .ro 0 .value .ensemble
  | .ENS_STEER_PREV_POSITION => fld (barArr 0x600100 0x4 64 false) 2 0 .ro 0 .value .ensemble
  | .ENS_STEER_COUNT_SESSIONS => fld (barArr 0x600200 0x4 64 false) 31 0 .ro 0 .value .warm
  | .ENS_STANDBY_VALID => fldOwn (barArr 0x601000 0x4 2048 false) 16 16 .rw 0 .value .ensemble
  | .ENS_STANDBY_ALIASED => fld (barArr 0x601000 0x4 2048 false) 15 15 .ro 0 .value .ensemble
  | .ENS_STANDBY_STANDBY => fldOwn (barArr 0x601000 0x4 2048 false) 10 0 .rw 0 .value .ensemble
  | .WLD_STATUS_GATE_DEPTH0 => fld (bar32 0x780000) 5 2 .ro 0 .value .warm
  | .WLD_STATUS_GATE_DEPTH1 => fld (bar32 0x780000) 13 10 .ro 0 .value .warm
  | .WLD_STATUS_GATE_DEPTH2 => fld (bar32 0x780000) 21 18 .ro 0 .value .warm
  | .WLD_STATUS_GATE_DEPTH3 => fld (bar32 0x780000) 29 26 .ro 0 .value .warm
  | .WLD_STATUS_WORLD0 => fld (bar32 0x780000) 1 0 .ro 0 .value .warm
  | .WLD_STATUS_WORLD1 => fld (bar32 0x780000) 9 8 .ro 0 .value .warm
  | .WLD_STATUS_WORLD2 => fld (bar32 0x780000) 17 16 .ro 0 .value .warm
  | .WLD_STATUS_WORLD3 => fld (bar32 0x780000) 25 24 .ro 0 .value .warm
  | .WLD_CORE_GUEST_TENANT0 => fld (bar64 0x780008) 10 0 .ro 0 .value .warm
  | .WLD_CORE_GUEST_TENANT1 => fld (bar64 0x780008) 26 16 .ro 0 .value .warm
  | .WLD_CORE_GUEST_TENANT2 => fld (bar64 0x780008) 42 32 .ro 0 .value .warm
  | .WLD_CORE_GUEST_TENANT3 => fld (bar64 0x780008) 58 48 .ro 0 .value .warm
  | .WLD_EVENT_POLICY_STEP_LIMIT => fld (bar32 0x780010) 7 7 .w1c 0 .value .warm
  | .WLD_EVENT_DBG_VIOLATION => fld (bar32 0x780010) 6 6 .w1c 0 .value .warm
  | .WLD_EVENT_MPU_COMMIT_REFUSED => fld (bar32 0x780010) 5 5 .w1c 0 .value .warm
  | .WLD_EVENT_MPU_FAULT => fld (bar32 0x780010) 4 4 .w1c 0 .value .warm
  | .WLD_EVENT_GATE_IGNORED => fld (bar32 0x780010) 3 3 .w1c 0 .value .warm
  | .WLD_EVENT_GATE_DEFERRED => fld (bar32 0x780010) 2 2 .w1c 0 .value .warm
  | .WLD_EVENT_POT_FAULT => fld (bar32 0x780010) 1 1 .w1c 0 .value .warm
  | .WLD_EVENT_GATE_FAULT => fld (bar32 0x780010) 0 0 .w1c 0 .value .warm
  | .WLD_EVENT_EN_POLICY_STEP_LIMIT => fld (bar32 0x780014) 7 7 .rw 0 .value .warm
  | .WLD_EVENT_EN_DBG_VIOLATION => fld (bar32 0x780014) 6 6 .rw 0 .value .warm
  | .WLD_EVENT_EN_MPU_COMMIT_REFUSED => fld (bar32 0x780014) 5 5 .rw 0 .value .warm
  | .WLD_EVENT_EN_MPU_FAULT => fld (bar32 0x780014) 4 4 .rw 0 .value .warm
  | .WLD_EVENT_EN_GATE_IGNORED => fld (bar32 0x780014) 3 3 .rw 0 .value .warm
  | .WLD_EVENT_EN_GATE_DEFERRED => fld (bar32 0x780014) 2 2 .rw 0 .value .warm
  | .WLD_EVENT_EN_POT_FAULT => fld (bar32 0x780014) 1 1 .rw 0 .value .warm
  | .WLD_EVENT_EN_GATE_FAULT => fld (bar32 0x780014) 0 0 .rw 0 .value .warm
  | .WLD_WDOG_CTL_PERIOD_MS => fld (bar32 0x780020) 9 0 .so 0x64 .value .warm
  | .WLD_WDOG_KICK_KEY => fldOwn (bar32 0x780024) 15 0 .so 0 .value .cold
  | .WLD_WDOG_STATUS_EXPIRIES => fld (bar32 0x780028) 31 16 .ro 0 .value .cold
  | .WLD_WDOG_STATUS_REMAINING_MS => fld (bar32 0x780028) 9 0 .ro 0x64 .value .warm
  | .WLD_HOLD_BLOCKS => fld (bar32 0x780030) 10 0 .so 0x4c0 .value .warm
  | .WLD_GATE_PENDING_BLOCKS => fld (bar32 0x780034) 10 0 .ro 0 .value .warm
  | .WLD_GATE_IGNORED_COUNT => fld (bar32 0x780038) 31 0 .ro 0 .value .warm
  | .WLD_GATE_FAULTS_COUNT => fld (bar32 0x78003c) 31 0 .ro 0 .value .warm
  | .WLD_POT_FAULTS_COUNT => fld (bar32 0x780040) 31 0 .ro 0 .value .warm
  | .WLD_POLICY_EVALS_COUNT => fld (bar32 0x780044) 31 0 .ro 0 .value .warm
  | .WLD_POLICY_DENIES_COUNT => fld (bar32 0x780048) 31 0 .ro 0 .value .warm
  | .WLD_POT_KIND => fld (barArr 0x788000 0x4 8192 false) 31 30 .so 0 .boot .warm
  | .WLD_POT_PENDING => fld (barArr 0x788000 0x4 8192 false) 29 29 .so 0 .value .warm
  | .WLD_POT_TENANT => fld (barArr 0x788000 0x4 8192 false) 10 0 .so 0 .value .warm
  | .MPU_RGN_BASE_BASE => fld (barArr2 0x7a0000 0x200 263 0x10 16 true) 63 12 .so 0 .boot .warm
  | .MPU_RGN_ATTR_ENABLE => fld (barArr2 0x7a0008 0x200 263 0x10 16 false) 31 31 .so 0 .boot .warm
  | .MPU_RGN_ATTR_SIZE_LOG2 => fld (barArr2 0x7a0008 0x200 263 0x10 16 false) 21 16 .so 0 .boot .warm
  | .MPU_RGN_ATTR_X => fld (barArr2 0x7a0008 0x200 263 0x10 16 false) 2 2 .so 0 .boot .warm
  | .MPU_RGN_ATTR_W => fld (barArr2 0x7a0008 0x200 263 0x10 16 false) 1 1 .so 0 .boot .warm
  | .MPU_RGN_ATTR_R => fld (barArr2 0x7a0008 0x200 263 0x10 16 false) 0 0 .so 0 .boot .warm
  | .MPU_COMMIT_COMMIT => fldOwn (barArr 0x7a0100 0x200 263 false) 0 0 .so 0 .value .warm
  | .MPU_STATUS_COMMIT_GEN => fld (barArr 0x7a0104 0x200 263 false) 31 16 .ro 0 .value .warm
  | .MPU_STATUS_FAULT_REGION => fld (barArr 0x7a0104 0x200 263 false) 11 8 .ro 0 .value .warm
  | .MPU_STATUS_LAST_RESULT => fld (barArr 0x7a0104 0x200 263 false) 2 1 .ro 0 .value .warm
  | .MPU_STATUS_DRAINING => fld (barArr 0x7a0104 0x200 263 false) 0 0 .ro 0 .value .warm
  | .MPU_FAULT_ADDR_ADDR => fld (barArr 0x7a0108 0x200 263 true) 63 0 .ro 0 .value .warm
  | .MPU_FAULT_INFO_COUNT => fld (barArr 0x7a0110 0x200 263 false) 31 16 .ro 0 .value .warm
  | .MPU_FAULT_INFO_WRITE => fld (barArr 0x7a0110 0x200 263 false) 15 15 .ro 0 .value .warm
  | .MPU_FAULT_INFO_LOCKED => fld (barArr 0x7a0110 0x200 263 false) 14 14 .ro 0 .value .warm
  | .MPU_FAULT_INFO_LEN => fld (barArr 0x7a0110 0x200 263 false) 12 0 .ro 0 .value .warm
  | .TMP_STATUS_ACTIVE => fld (bar32 0x800000) 19 19 .ro 0 .value .warm
  | .TMP_STATUS_RANK => fld (bar32 0x800000) 18 16 .ro 0 .value .warm
  | .TMP_STATUS_BROWNOUT => fld (bar32 0x800000) 9 9 .ro 0 .value .warm
  | .TMP_STATUS_THROTTLED => fld (bar32 0x800000) 8 8 .ro 0 .value .warm
  | .TMP_STATUS_HALTED => fld (bar32 0x800000) 7 7 .ro 0 .value .warm
  | .TMP_STATUS_OUT => fld (bar32 0x800000) 6 6 .ro 0 .value .warm
  | .TMP_STATUS_BIST_BUSY => fld (bar32 0x800000) 5 5 .ro 0 .value .warm
  | .TMP_STATUS_MAP_SOURCE => fld (bar32 0x800000) 0 0 .ro 0 .value .warm
  | .TMP_COND_SOURCES => fld (bar32 0x800004) 23 0 .ro 0 .value .warm
  | .TMP_ALARM_SOURCES => fld (bar32 0x800008) 23 0 .w1c 0 .value .cold
  | .TMP_CTL_OUT_ACK => fldOwn (bar32 0x80000c) 1 1 .w1s 0 .value .warm
  | .TMP_CTL_RELEASE => fldOwn (bar32 0x80000c) 0 0 .w1s 0 .value .warm
  | .TMP_TEMP_SENSOR1 => fld (bar32 0x800010) 31 16 .ro 0 .value .warm
  | .TMP_TEMP_SENSOR0 => fld (bar32 0x800010) 15 0 .ro 0 .value .warm
  | .TMP_TEMP_LIMITS_HIGH => fld (bar32 0x800014) 31 16 .ro 0 .map .warm
  | .TMP_TEMP_LIMITS_LOW => fld (bar32 0x800014) 15 0 .ro 0 .map .warm
  | .TMP_SUPPLY_AUX_MV => fld (bar32 0x800018) 31 16 .ro 0 .value .warm
  | .TMP_SUPPLY_CORE_MV => fld (bar32 0x800018) 15 0 .ro 0 .value .warm
  | .TMP_VBAT_REVERSED => fld (bar32 0x80001c) 16 16 .ro 0 .value .warm
  | .TMP_VBAT_VBAT_MV => fld (bar32 0x80001c) 15 0 .ro 0 .value .warm
  | .TMP_BROWNOUT_COUNT_COUNT => fld (bar32 0x800020) 31 0 .ro 0 .value .cold
  | .TMP_MESH_STATUS_MESH_D => fld (bar32 0x800024) 15 12 .ro 0 .value .warm
  | .TMP_MESH_STATUS_MESH_C => fld (bar32 0x800024) 11 8 .ro 0 .value .warm
  | .TMP_MESH_STATUS_MESH_B => fld (bar32 0x800024) 7 4 .ro 0 .value .warm
  | .TMP_MESH_STATUS_MESH_A => fld (bar32 0x800024) 3 0 .ro 0 .value .warm
  | .TMP_PIN_STATUS_IN1 => fld (bar32 0x800028) 5 4 .ro 0 .value .warm
  | .TMP_PIN_STATUS_IN0 => fld (bar32 0x800028) 3 2 .ro 0 .value .warm
  | .TMP_PIN_STATUS_LID => fld (bar32 0x800028) 1 0 .ro 0 .value .warm
  | .TMP_BIST_CTL_START => fldOwn (bar32 0x800030) 31 31 .w1s 0 .value .warm
  | .TMP_BIST_CTL_WINDOW_US => fld (bar32 0x800030) 22 16 .rw 0x64 .value .warm
  | .TMP_BIST_CTL_SOURCE => fld (bar32 0x800030) 4 0 .rw 0 .value .warm
  | .TMP_BIST_STATUS_PASSES => fld (bar32 0x800034) 31 16 .ro 0 .value .warm
  | .TMP_BIST_STATUS_RESULT => fld (bar32 0x800034) 9 8 .ro 0 .value .warm
  | .TMP_BIST_STATUS_LAST_SOURCE => fld (bar32 0x800034) 4 0 .ro 0 .value .warm
  | .TMP_BACKUP_TIME_SECONDS => fld (bar64 0x800040) 63 16 .ro 0 .backup .cold
  | .TMP_BACKUP_TIME_FRACTION => fld (bar64 0x800040) 15 0 .ro 0 .backup .cold
  | .TMP_BACKUP_TIME_SET_VALUE => fldOwn (bar64 0x800048) 63 0 .wo 0 .value .cold
  | .TMP_BACKUP_STATUS_NEW => fld (bar32 0x800050) 23 16 .ro 0 .backup .cold
  | .TMP_BACKUP_STATUS_NEXT => fld (bar32 0x800050) 12 8 .ro 0 .backup .cold
  | .TMP_BACKUP_STATUS_BACKUP_ALARM => fld (bar32 0x800050) 2 2 .ro 0 .backup .cold
  | .TMP_BACKUP_STATUS_BBK_ZEROIZED => fld (bar32 0x800050) 1 1 .ro 0 .backup .cold
  | .TMP_BACKUP_STATUS_RUNNING => fld (bar32 0x800050) 0 0 .ro 0 .backup .cold
  | .TMP_BLOG_CTL_ACK => fldOwn (bar32 0x800054) 0 0 .w1s 0 .value .cold
  | .TMP_MAP_ENABLED => fld (barArr 0x800100 0x4 25 false) 11 11 .ro 0 .map .warm
  | .TMP_MAP_PROPAGATE => fld (barArr 0x800100 0x4 25 false) 10 10 .ro 0 .map .warm
  | .TMP_MAP_OUT => fld (barArr 0x800100 0x4 25 false) 9 9 .ro 0 .map .warm
  | .TMP_MAP_RANK => fld (barArr 0x800100 0x4 25 false) 2 0 .ro 0 .map .warm
  | .TMP_BLOG_WORD => fld (barArr2 0x800200 0x10 32 0x8 2 true) 63 0 .ro 0 .backup .cold
  | .CLK_STATUS_SETTLE_TRIES => fld (bar32 0x880000) 9 8 .ro 0 .value .cold
  | .CLK_STATUS_FRO_FAIL => fld (bar32 0x880000) 5 5 .ro 0 .value .warm
  | .CLK_STATUS_REFCLK_ABSENT => fld (bar32 0x880000) 4 4 .ro 0 .value .cold
  | .CLK_STATUS_FRO_REF => fld (bar32 0x880000) 3 3 .ro 0 .value .cold
  | .CLK_STATUS_ARMED => fld (bar32 0x880000) 2 2 .ro 0 .value .cold
  | .CLK_STATUS_PLL_LOCK => fld (bar32 0x880000) 1 1 .ro 0 .value .cold
  | .CLK_STATUS_SOURCE => fld (bar32 0x880000) 0 0 .ro 1 .value .warm
  | .CLK_EVENT_REFCLK_RETRY => fld (bar32 0x880004) 2 2 .w1c 0 .value .warm
  | .CLK_EVENT_FRO_FAIL => fld (bar32 0x880004) 1 1 .w1c 0 .value .warm
  | .CLK_EVENT_FAILOVER => fld (bar32 0x880004) 0 0 .w1c 0 .value .warm
  | .CLK_EVENT_EN_REFCLK_RETRY => fld (bar32 0x880008) 2 2 .rw 0 .value .warm
  | .CLK_EVENT_EN_FRO_FAIL => fld (bar32 0x880008) 1 1 .rw 0 .value .warm
  | .CLK_EVENT_EN_FAILOVER => fld (bar32 0x880008) 0 0 .ro 1 .value .warm
  | .CLK_FRO_KHZ_KHZ => fld (bar32 0x88000c) 17 0 .ro 0 .value .warm
  | .CLK_SETTLE_CODE_CODE => fld (bar32 0x880010) 7 0 .ro 0 .otp .cold
  | .CLK_FAIL_COUNT_COUNT => fld (bar32 0x880014) 31 0 .ro 0 .value .cold
  | .PWR_CTL_IDLE_EN => fld (bar32 0x880100) 1 1 .rw 1 .value .warm
  | .PWR_CTL_PARK => fldOwn (bar32 0x880100) 0 0 .rw 0 .value .warm
  | .PWR_STATUS_POINT => fld (bar32 0x880104) 9 8 .ro 0 .tin .ensemble
  | .PWR_STATUS_DEFERRED => fld (bar32 0x880104) 6 6 .ro 0 .value .warm
  | .PWR_STATUS_THROTTLE => fld (bar32 0x880104) 5 5 .ro 0 .value .warm
  | .PWR_STATUS_THERMAL => fld (bar32 0x880104) 4 4 .ro 0 .value .warm
  | .PWR_STATUS_STATE => fld (bar32 0x880104) 2 0 .ro 0 .value .warm
  | .PWR_OPPOINT_SOURCE => fld (bar32 0x880108) 21 20 .ro 0 .value .ensemble
  | .PWR_OPPOINT_POINT => fldOwn (bar32 0x880108) 17 16 .rw 0 .tin .ensemble
  | .PWR_OPPOINT_CAP => fldOwn (bar32 0x880108) 7 0 .rw 0 .tin .ensemble
  | .PWR_POWER_ESTIMATE => fld (bar32 0x88010c) 31 16 .ro 0 .value .warm
  | .PWR_POWER_EFFECTIVE_CAP => fld (bar32 0x88010c) 15 0 .ro 0 .value .warm
  | .PWR_ENERGY_MICROJOULES => fld (bar64 0x880110) 63 0 .ro 0 .value .warm
  | .RST_CTL_CONFIRM => fldOwn (bar32 0x880200) 15 8 .wo 0 .value .cold
  | .RST_CTL_POWER_CYCLE => fldOwn (bar32 0x880200) 2 2 .w1s 0 .value .warm
  | .RST_CTL_ENSEMBLE => fldOwn (bar32 0x880200) 1 1 .w1s 0 .value .warm
  | .RST_CTL_WARM => fldOwn (bar32 0x880200) 0 0 .w1s 0 .value .warm
  | .RST_CAUSE_NOFRO_SEEN => fld (bar32 0x880204) 9 9 .w1c 0 .backup .cold
  | .RST_CAUSE_BACKUP_LOST => fld (bar32 0x880204) 8 8 .w1c 0 .backup .cold
  | .RST_CAUSE_ENSEMBLE => fld (bar32 0x880204) 7 7 .ro 0 .setAtReset .cold
  | .RST_CAUSE_MANAGER => fld (bar32 0x880204) 6 6 .ro 0 .setAtReset .cold
  | .RST_CAUSE_DECLARED => fld (bar32 0x880204) 5 5 .ro 0 .setAtReset .cold
  | .RST_CAUSE_TAMPER => fld (bar32 0x880204) 4 4 .ro 0 .setAtReset .cold
  | .RST_CAUSE_SUPPLY => fld (bar32 0x880204) 3 3 .ro 0 .setAtReset .cold
  | .RST_CAUSE_WATCHDOG => fld (bar32 0x880204) 2 2 .ro 0 .setAtReset .cold
  | .RST_CAUSE_PORST => fld (bar32 0x880204) 1 1 .ro 0 .setAtReset .cold
  | .RST_CAUSE_POWER_ON => fld (bar32 0x880204) 0 0 .ro 0 .setAtReset .cold
  | .RST_COUNT_WARM => fld (bar32 0x880208) 31 16 .ro 0 .value .cold
  | .RST_COUNT_ENSEMBLE => fld (bar32 0x880208) 15 0 .ro 0 .value .cold
  | .RST_PWR_REQ_TIMEOUT => fld (bar32 0x88020c) 1 1 .w1c 0 .value .cold
  | .RST_PWR_REQ_ASSERTED => fld (bar32 0x88020c) 0 0 .ro 0 .value .cold
  | .LCS_STATE_TOGGLES => fld (bar32 0x900000) 23 16 .ro 0 .otp .cold
  | .LCS_STATE_STATE => fld (bar32 0x900000) 2 0 .ro 0 .otp .warm
  | .LCS_STATUS_PENDING_TARGET => fld (bar32 0x900004) 15 8 .ro 0 .nvm .cold
  | .LCS_STATUS_RESUMED => fld (bar32 0x900004) 2 2 .ro 0 .value .warm
  | .LCS_STATUS_INVALID_CODE => fld (bar32 0x900004) 1 1 .ro 0 .value .warm
  | .LCS_STATUS_PENDING => fld (bar32 0x900004) 0 0 .ro 0 .nvm .cold
  | .LCS_SERIAL_SERIAL => fld (bar64 0x900008) 63 0 .ro 0 .otp .cold
  | .LCS_JOURNAL_LAST_MARKS => fld (bar32 0x900010) 15 8 .ro 0 .otp .cold
  | .LCS_JOURNAL_NEXT => fld (bar32 0x900010) 4 0 .ro 0 .otp .cold
  | .LCS_TOKENS_REMAINING => fld (bar32 0x900014) 3 0 .ro 0 .otp .cold
  | .LCS_EVENT_DEBUG_AUTH => fld (bar32 0x900018) 3 3 .w1c 0 .value .warm
  | .LCS_EVENT_REQUEST_DROPPED => fld (bar32 0x900018) 2 2 .w1c 0 .value .warm
  | .LCS_EVENT_ACCEPTED => fld (bar32 0x900018) 1 1 .w1c 0 .value .warm
  | .LCS_EVENT_TRANSITION_DONE => fld (bar32 0x900018) 0 0 .w1c 0 .value .warm
  | .LCS_EVENT_EN_DEBUG_AUTH => fld (bar32 0x90001c) 3 3 .rw 0 .value .warm
  | .LCS_EVENT_EN_REQUEST_DROPPED => fld (bar32 0x90001c) 2 2 .rw 0 .value .warm
  | .LCS_EVENT_EN_ACCEPTED => fld (bar32 0x90001c) 1 1 .rw 0 .value .warm
  | .LCS_EVENT_EN_TRANSITION_DONE => fld (bar32 0x90001c) 0 0 .rw 0 .value .warm
  | .DBG_STATUS_REMAINING_S => fld (bar32 0x900100) 19 8 .ro 0 .value .warm
  | .DBG_STATUS_CHALLENGE_VALID => fld (bar32 0x900100) 3 3 .ro 0 .value .warm
  | .DBG_STATUS_SIGNER => fld (bar32 0x900100) 2 2 .ro 0 .value .warm
  | .DBG_STATUS_LEVEL => fld (bar32 0x900100) 1 0 .ro 0 .value .warm
  | .DBG_CTL_REVOKE => fldOwn (bar32 0x900104) 1 1 .w1s 0 .value .warm
  | .DBG_CTL_NEW_CHALLENGE => fldOwn (bar32 0x900104) 0 0 .w1s 0 .value .warm
  | .DBG_CHALLENGE_NONCE => fld (barArr 0x900110 0x8 4 true) 63 0 .ro 0 .value .warm
  | .DBG_VIOLATION_COUNT_COUNT => fld (bar32 0x900130) 31 0 .ro 0 .value .warm
  | .EVR_CTL_FREEZE => fldOwn (bar32 0x980000) 0 0 .rw 0 .value .warm
  | .EVR_STATUS_TORN => fld (bar32 0x980004) 29 28 .ro 0 .value .warm
  | .EVR_STATUS_WRITING => fld (bar32 0x980004) 27 27 .ro 0 .value .warm
  | .EVR_STATUS_FROZEN => fld (bar32 0x980004) 26 26 .ro 0 .value .warm
  | .EVR_STATUS_RSV_USED => fld (bar32 0x980004) 25 21 .ro 0 .value .warm
  | .EVR_STATUS_GEN_USED => fld (bar32 0x980004) 20 16 .ro 0 .value .warm
  | .EVR_STATUS_NEXT => fld (bar32 0x980004) 9 0 .ro 0 .nvm .cold
  | .EVR_SEQ_VALUE => fld (bar32 0x980008) 31 0 .ro 0 .nvm .cold
  | .EVR_LOST_VALUE => fld (bar32 0x98000c) 31 0 .ro 0 .value .cold
  | .EVR_OP_HOURS_VALUE => fld (bar32 0x980010) 31 0 .ro 0 .nvm .cold
  | .EVR_POWER_CYCLES_VALUE => fld (bar32 0x980014) 31 0 .ro 0 .nvm .cold
  | .EVR_EVENT_FREEZE_TIMEOUT => fld (bar32 0x980018) 2 2 .w1c 0 .value .warm
  | .EVR_EVENT_LOST => fld (bar32 0x980018) 1 1 .w1c 0 .value .warm
  | .EVR_EVENT_RECORD => fld (bar32 0x980018) 0 0 .w1c 0 .value .warm
  | .EVR_EVENT_EN_FREEZE_TIMEOUT => fld (bar32 0x98001c) 2 2 .rw 0 .value .warm
  | .EVR_EVENT_EN_LOST => fld (bar32 0x98001c) 1 1 .rw 0 .value .warm
  | .EVR_EVENT_EN_RECORD => fld (bar32 0x98001c) 0 0 .rw 0 .value .warm
  | .EVR_READ_IDX_SLOT => fld (bar32 0x980020) 9 0 .rw 0 .value .warm
  | .EVR_READ_DATA_WORD => fld (barArr 0x980100 0x8 32 true) 63 0 .ro 0 .nvm .cold
  | .PMC_CTL_ENABLE => fld (bar32 0xa00000) 31 31 .rw 0 .value .warm
  | .PMC_CTL_WINDOW_US => fld (bar32 0xa00000) 19 0 .rw 0 .tin .warm
  | .PMC_RING_BASE_ADDR => fld (bar64 0xa00008) 63 0 .rw 0 .value .warm
  | .PMC_RING_CTL_IRQ_COUNT => fld (bar32 0xa00010) 31 16 .rw 1 .value .warm
  | .PMC_RING_CTL_SIZE_LOG2 => fld (bar32 0xa00010) 12 8 .rw 6 .value .warm
  | .PMC_RING_TAIL_INDEX => fld (bar32 0xa00014) 31 0 .ro 0 .value .warm
  | .PMC_RING_HEAD_INDEX => fld (bar32 0xa00018) 31 0 .rw 0 .value .warm
  | .PMC_STATUS_DROPPED => fld (bar32 0xa0001c) 31 0 .ro 0 .value .warm
  | .PMC_EVENT_OVERRUN => fld (bar32 0xa00020) 0 0 .w1c 0 .value .warm
  | .PMC_EVENT_EN_OVERRUN => fld (bar32 0xa00024) 0 0 .rw 0 .value .warm
  | .PMC_SEL_SELECTION => fld (barArr 0xa00100 0x8 52 true) 63 0 .ro 0 .tin .warm
  | .PMC_TEN_CYCLES_CYCLES => fld (page64 0x5000) 63 0 .ro 0 .value .tenant
  | .PMC_TEN_SEL_LEVEL => fld (pageArr 0x5010 0x4 8 false) 17 17 .rw 0 .value .tenant
  | .PMC_TEN_SEL_ENABLE => fld (pageArr 0x5010 0x4 8 false) 16 16 .rw 0 .value .tenant
  | .PMC_TEN_SEL_BLOCK => fld (pageArr 0x5010 0x4 8 false) 11 8 .rw 0 .value .tenant
  | .PMC_TEN_SEL_EVENT => fld (pageArr 0x5010 0x4 8 false) 7 0 .rw 0 .value .tenant
  | .PMC_TEN_CNT_COUNT => fld (pageArr 0x5040 0x8 8 true) 63 0 .rw 0 .value .tenant

def allFldsPart0 : List Fld :=
    [.HLK_STATUS_REPAIRED_TX, .HLK_STATUS_REPAIRED_RX, .HLK_STATUS_RATE, .HLK_STATUS_TRAIN_FAIL,
   .HLK_STATUS_LINK_UP, .HLK_CTL_RETRAIN, .HLK_CTL_MAX_RATE, .HLK_EVENT_DOWN, .HLK_EVENT_RETRAINED,
   .HLK_EVENT_REPAIRED, .HLK_EVENT_RATE_CHANGED, .HLK_CORR_COUNT_COUNT, .QUE_PAGE_ID_TENANT,
   .QUE_PAGE_STATUS_ASSIGNED, .QUE_PAGE_STATUS_READY, .QUE_PAIR_CTL_SIZE_LOG2, .QUE_PAIR_CTL_WB_EN,
   .QUE_PAIR_CTL_IN_ORDER, .QUE_PAIR_CTL_ENABLE, .QUE_PAIR_STATUS_ERR_CODE, .QUE_PAIR_STATUS_STATE,
   .QUE_RPL_IRQ_TIME, .QUE_RPL_IRQ_COUNT, .QUE_REQ_BASE_ADDR, .QUE_RPL_BASE_ADDR, .QUE_RPL_WB_ADDR,
   .QUE_REQ_HEAD_INDEX, .QUE_RPL_TAIL_INDEX, .QUE_NTF_CTL_IRQ_TIME, .QUE_NTF_CTL_SIZE_LOG2, .QUE_NTF_CTL_WB_EN,
   .QUE_NTF_CTL_ENABLE, .QUE_NTF_LOST_COUNT, .QUE_NTF_BASE_ADDR, .QUE_NTF_WB_ADDR, .QUE_NTF_TAIL_INDEX,
   .QUE_REQ_TAIL_DB_INDEX, .QUE_RPL_HEAD_DB_INDEX, .QUE_NTF_HEAD_DB_INDEX, .REC_CTL_RELANE_ALWAYS,
   .REC_STATUS_LANES_HELD, .REC_STATUS_LANES_QUARANTINED, .REC_STATUS_LANES_IN_SERVICE, .REC_STEER_POSITION,
   .REC_TEN_CFG0_REKEY_FRAC, .REC_TEN_CFG0_LIMIT_SHIFT, .REC_TEN_CFG0_CID_LEN, .REC_TEN_CFG0_REPLAY_WIN,
   .REC_TEN_CFG1_OUT_NO_LEN, .REC_TEN_CFG1_OUT_SEQ8, .LANE_STATUS_RECENT, .LANE_STATUS_KAT_FAIL, .LANE_STATUS_HELD,
   .LANE_STATUS_STATE, .HASH_STATUS_RECENT, .HASH_STATUS_KAT_FAIL, .HASH_STATUS_HELD, .HASH_STATUS_STATE,
   .LANE_CTL_QUARANTINE, .LANE_CTL_RELEASE]
def allFldsPart1 : List Fld :=
    [.HASH_CTL_QUARANTINE, .HASH_CTL_RELEASE, .LANE_MISMATCH_COUNT_COUNT, .HASH_MISMATCH_COUNT_COUNT,
   .LANE_LAST_MISMATCH_KIND, .LANE_LAST_MISMATCH_TENANT, .HASH_LAST_MISMATCH_KIND, .HASH_LAST_MISMATCH_TENANT,
   .KFT_GEOMETRY_CACHE_UNITS, .KFT_GEOMETRY_MAIN_UNITS, .KFT_SWEEP_CTL_PASS_MIN, .KFT_SWEEP_STATUS_PASSES,
   .KFT_SWEEP_STATUS_PROGRESS, .KFT_MINUTE_MINUTE, .KFT_LOCK_CTL_PER_TENANT, .KFT_LOCK_CTL_TIMEOUT,
   .KFT_EVENT_SWEEP_LATE, .KFT_EVENT_LOCK_TIMEOUT, .KFT_EVENT_TABLE_FULL, .KFT_EVENT_QUOTA_WARN,
   .KFT_EVENT_EN_SWEEP_LATE, .KFT_EVENT_EN_LOCK_TIMEOUT, .KFT_EVENT_EN_TABLE_FULL, .KFT_EVENT_EN_QUOTA_WARN,
   .KFT_FULL_COUNT_COUNT, .KFT_RELOC_COUNT_COUNT, .KFT_MAIN_USED_COUNT, .KFT_CRUMB_USED_COUNT,
   .KFT_LEARN_COUNT_COUNT, .KFT_TEN_USED_SLOTS, .KFT_TEN_CFG_AGED_NTF, .KFT_TEN_CFG_AGE_LIMIT, .KFT_TEN_SHARE_SLOTS,
   .KFT_TEN_TOTAL_SLOTS, .KFT_TEN_KEYS_QUOTA, .KFT_TEN_LOCKS_HELD, .KFT_TEN_FULL_QUOTA_REFUSED,
   .KFT_TEN_FULL_TABLE_FULL, .MLF_SLICE_BASE_ADDR, .MLF_SLICE_SIZE_TREE_MIB, .MLF_SLICE_SIZE_SIZE_GIB,
   .MLF_STATUS_MIRROR_OK, .MLF_STATUS_ADOPTED_POS, .MLF_STATUS_ADOPTED, .MLF_STATUS_STATE, .MLF_EVENT_EPOCH_BUMPED,
   .MLF_EVENT_RESEAL_STALL, .MLF_EVENT_ADOPTED, .MLF_EVENT_MIRROR_LOST, .MLF_EVENT_POISON_FULL,
   .MLF_EVENT_INTEGRITY, .MLF_EVENT_EN_EPOCH_BUMPED, .MLF_EVENT_EN_RESEAL_STALL, .MLF_EVENT_EN_ADOPTED,
   .MLF_EVENT_EN_MIRROR_LOST, .MLF_EVENT_EN_POISON_FULL, .MLF_EVENT_EN_INTEGRITY, .MLF_INTEG_COUNT_COUNT,
   .MLF_INTEG_ADDR_OFFSET, .MLF_INTEG_INFO_TENANT]
def allFldsPart2 : List Fld :=
    [.MLF_INTEG_INFO_ADOPTED_SLICE, .MLF_INTEG_INFO_KIND, .MLF_INTEG_INFO_LEVEL, .MLF_TREE_STATUS_RESEALS,
   .MLF_TREE_STATUS_DIRTY_L2, .MLF_CACHE_STATUS_PENDING, .MLF_CACHE_STATUS_CAPACITY, .MLF_RESEAL_COUNT_COUNT,
   .MLF_POISON_CTL_REFORMAT, .MLF_POISON_CTL_INDEX, .MLF_POISON_STATUS_COUNT, .MLF_POISON_ENTRY_VALID,
   .MLF_POISON_ENTRY_LEVEL, .MLF_POISON_ENTRY_OFFSET, .MLF_ARCHIVE_EPOCH_EPOCH, .MLF_ARCHIVE_CTL_CONFIRM,
   .MLF_ARCHIVE_CTL_BUMP, .CON_CTL_RECORE_ALWAYS, .CON_CORES_IN_SERVICE_CORES, .CON_CORES_HELD_CORES,
   .CON_CORES_QUARANTINED_CORES, .CON_QUEUE_STATUS_LONG_WAITING, .CON_QUEUE_STATUS_SHORT_WAITING,
   .CON_CURVES_USED_COUNT, .CON_JOB_COUNT_COUNT, .CON_ABORT_COUNT_COUNT, .CON_CORE_STATUS_TENANT,
   .CON_CORE_STATUS_LONG, .CON_CORE_STATUS_CONTEXTS_BUSY, .CON_CORE_STATUS_RECENT, .CON_CORE_STATUS_KAT_FAIL,
   .CON_CORE_STATUS_HELD, .CON_CORE_STATUS_STATE, .CON_CORE_CTL_QUARANTINE, .CON_CORE_CTL_RELEASE,
   .CON_CORE_MISMATCH_COUNT_COUNT, .CON_CORE_LAST_MISMATCH_KIND, .CON_CORE_LAST_MISMATCH_TENANT,
   .CON_CORE_JOBS_COUNT, .CON_TEN_CURVES_LOADED_MASK, .CON_TEN_CURVES_COUNT, .NTT_CTL_RECORE_ALWAYS,
   .NTT_CORES_QUARANTINED, .NTT_CORES_IN_SERVICE, .NTT_QUEUE_STATUS_WAITING, .NTT_HS_CTL_RETAIN_H,
   .NTT_HS_CTL_IDLE_S, .NTT_HS_STATUS_CTX_USED, .NTT_HS_DONE_COUNT, .NTT_HS_FAILED_COUNT, .NTT_HS_EXPIRED_COUNT,
   .NTT_TICKET_EPOCH_EPOCH, .NTT_CORE_STATUS_TENANT, .NTT_CORE_STATUS_SIGNING, .NTT_CORE_STATUS_CONTEXTS_BUSY,
   .NTT_CORE_STATUS_RECENT, .NTT_CORE_STATUS_KAT_FAIL, .NTT_CORE_STATUS_STATE, .NTT_CORE_CTL_QUARANTINE,
   .NTT_CORE_CTL_RELEASE]
def allFldsPart3 : List Fld :=
    [.NTT_CORE_MISMATCH_COUNT_COUNT, .NTT_CORE_JOBS_COUNT, .NTT_CORE_LAST_MISMATCH_KIND,
   .NTT_CORE_LAST_MISMATCH_TENANT, .KEY_ROOT_STATUS_SHARES_FOUND, .KEY_ROOT_STATUS_THRESHOLD,
   .KEY_ROOT_STATUS_COMBINE_FAIL, .KEY_ROOT_STATUS_ESK_VALID, .KEY_ROOT_STATUS_SHARE_LOST,
   .KEY_ROOT_STATUS_SHARE_HELD, .KEY_ROOT_STATUS_BBK_VALID, .KEY_ROOT_STATUS_PUF_FAIL, .KEY_SEAL_MASK_PENDING,
   .KEY_SEAL_MASK_PENDING_MASK, .KEY_SEAL_MASK_MASK, .KEY_CEREMONY_STATUS_REMAINING_S,
   .KEY_CEREMONY_STATUS_APPROVALS, .KEY_CEREMONY_STATUS_M, .KEY_CEREMONY_STATUS_KIND, .KEY_CEREMONY_STATUS_STATE,
   .KEY_CEREMONY_SERIAL_SERIAL, .KEY_CUSTODIANS_OWNER_SET, .KEY_CUSTODIANS_ALG_MLDSA, .KEY_CUSTODIANS_REGISTERED,
   .KEY_EVENT_MIGRATION_DONE, .KEY_EVENT_SHARE_LOST, .KEY_EVENT_TOKEN_REJECTED, .KEY_EVENT_CEREMONY_LAPSED,
   .KEY_EVENT_CEREMONY_DONE, .KEY_EVENT_EN_MIGRATION_DONE, .KEY_EVENT_EN_SHARE_LOST, .KEY_EVENT_EN_TOKEN_REJECTED,
   .KEY_EVENT_EN_CEREMONY_LAPSED, .KEY_EVENT_EN_CEREMONY_DONE, .KEY_CACHE_STATUS_UNITS_USED, .KEY_MEAS_DIGEST,
   .KEY_TEN_HANDLES_USED, .KEY_TEN_GEN_GEN, .KEY_TEN_VGEN_GEN, .KEY_TEN_EXHAUSTED_COUNT, .RNG_STATUS_FAIL_SOURCES,
   .RNG_STATUS_RERUNS, .RNG_STATUS_SEEDED, .RNG_STATUS_STATE, .RNG_EVENT_FAULT, .RNG_EVENT_RESTARTED,
   .RNG_EVENT_HEALTH_FAIL, .RNG_EVENT_READY, .RNG_EVENT_EN_FAULT, .RNG_EVENT_EN_RESTARTED,
   .RNG_EVENT_EN_HEALTH_FAIL, .RNG_EVENT_EN_READY, .RNG_HEALTH_CFG_APT_CUTOFF, .RNG_HEALTH_CFG_RCT_CUTOFF,
   .RNG_SRC_STATUS_APT_PEAK, .RNG_SRC_STATUS_RCT_PEAK, .RNG_FAIL_COUNT_COUNT, .RNG_RESEED_COUNT_COUNT,
   .RNG_QUEUE_STATUS_FE_BYTES, .RNG_QUEUE_STATUS_DRBG_BYTES]
def allFldsPart4 : List Fld :=
    [.RNG_WAITING_COUNT, .RNG_TEST_INJECT_SRC, .RNG_TEST_INJECT, .RNG_TEST_RAW_EN, .RNG_RAW_SAMPLES,
   .RNG_TEN_CFG_FE_ALLOWED, .RNG_TEN_CFG_RATE, .RNG_TEN_BYTES_COUNT, .TEN_CMD_CMD, .TEN_STATE_CMD_RESULT,
   .TEN_STATE_LOGGING, .TEN_STATE_STEWARD, .TEN_STATE_FORCED, .TEN_STATE_STATE, .TEN_SHARE_LANE, .TEN_SHARE_CON,
   .TEN_SHARE_NTT, .TEN_SHARE_CAP, .TEN_SHARE_PAIRS, .TEN_USE_LANE, .TEN_USE_CON, .TEN_USE_NTT, .TEN_USE_DEBT,
   .TEN_MIG_BITMAP_VALUE, .TEN_MIG_RANGE_BASE_VALUE, .TEN_MIG_RANGE_LEN_VALUE, .TEN_MIG_UNTRACKED_VALUE,
   .TEN_QUIESCE_TIME_VALUE, .TEN_STEWARD_DEPTH_VALUE, .TEN_EPOCH_COUNT, .TEN_EVENT_ROTATION_FAIL,
   .TEN_EVENT_STEWARD_OP, .TEN_EVENT_REMOVE_DONE, .TEN_EVENT_FORCED, .TEN_EVENT_QUIESCE_LATE,
   .TEN_EVENT_QUIESCE_DONE, .TEN_EVENT_EN_ROTATION_FAIL, .TEN_EVENT_EN_STEWARD_OP, .TEN_EVENT_EN_REMOVE_DONE,
   .TEN_EVENT_EN_FORCED, .TEN_EVENT_EN_QUIESCE_LATE, .TEN_EVENT_EN_QUIESCE_DONE, .TEN_PAGE_STATE_STATE,
   .TEN_PAGE_SHARE_ALL, .TEN_PAGE_MODE_STEWARD, .TIN_STATUS_LAST_REASON, .TIN_STATUS_DELTAS, .TIN_STATUS_BUSY,
   .TIN_STATUS_STAGED, .TIN_STATUS_SOURCE, .TIN_SERIAL_VALUE, .TIN_DELTA_SEQ_VALUE, .TIN_STAGED_SERIAL_VALUE,
   .TIN_DIGEST_DIGEST, .TIN_STAGED_DIGEST_DIGEST, .TIN_POLICY_DIGEST_DIGEST, .TIN_GEOM_DIGEST_DIGEST,
   .TIN_EVENT_DEFAULT_BOOT, .TIN_EVENT_REFUSED, .TIN_EVENT_DELTA_APPLIED]
def allFldsPart5 : List Fld :=
    [.TIN_EVENT_ACTIVATED, .TIN_EVENT_STAGED, .TIN_EVENT_EN_DEFAULT_BOOT, .TIN_EVENT_EN_REFUSED,
   .TIN_EVENT_EN_DELTA_APPLIED, .TIN_EVENT_EN_ACTIVATED, .TIN_EVENT_EN_STAGED, .TIN_NVM_USE_CHAIN_BYTES,
   .ENS_STATUS_FAULT, .ENS_STATUS_ACTING_LEAD, .ENS_STATUS_LEAD_POS, .ENS_STATUS_POSITION, .ENS_STATUS_SIZE,
   .ENS_STATUS_STATE, .ENS_LINKS_REPAIRED_B, .ENS_LINKS_REPAIRED_A, .ENS_LINKS_AUTH_FAIL_B, .ENS_LINKS_AUTH_FAIL_A,
   .ENS_LINKS_UP_B, .ENS_LINKS_UP_A, .ENS_CTL_POS, .ENS_CTL_HANDBACK, .ENS_CTL_LINK_GRACE, .ENS_SERVE_SERVER,
   .ENS_EVENT_ACTIVATION_MISSED, .ENS_EVENT_ACTIVATED, .ENS_EVENT_ARMED, .ENS_EVENT_QUARANTINE, .ENS_EVENT_MISMATCH,
   .ENS_EVENT_STEER_REFUSED, .ENS_EVENT_HANDBACK_DONE, .ENS_EVENT_LINK_DOWN, .ENS_EVENT_DIE_FAILED,
   .ENS_EVENT_CFG_FAULT, .ENS_EVENT_EN_ACTIVATION_MISSED, .ENS_EVENT_EN_ACTIVATED, .ENS_EVENT_EN_ARMED,
   .ENS_EVENT_EN_QUARANTINE, .ENS_EVENT_EN_MISMATCH, .ENS_EVENT_EN_STEER_REFUSED, .ENS_EVENT_EN_HANDBACK_DONE,
   .ENS_EVENT_EN_LINK_DOWN, .ENS_EVENT_EN_DIE_FAILED, .ENS_EVENT_EN_CFG_FAULT, .ENS_IDENTITY_DIGEST,
   .ENS_ADMIT_IDENTITY_DIGEST, .ENS_DOMAIN_STATUS_ROOT, .ENS_DOMAIN_STATUS_ADMIT_PENDING,
   .ENS_DOMAIN_STATUS_JOIN_OUT, .ENS_DOMAIN_STATUS_ARMED, .ENS_DOMAIN_STATUS_MEMBER, .ENS_DOMAIN_EPOCH_VALUE,
   .ENS_DOMAIN_TIME_VALUE, .ENS_ACT_TIME_VALUE, .ENS_DOMAIN_COUNTS_MISMATCHED, .ENS_DOMAIN_COUNTS_PRESENT,
   .ENS_ENV_OUT_BASE_ADDR, .ENS_ENV_OUT_CTL_LOST, .ENS_ENV_OUT_CTL_SIZE_LOG2, .ENS_ENV_OUT_CTL_ENABLE]
def allFldsPart6 : List Fld :=
    [.ENS_ENV_OUT_TAIL_INDEX, .ENS_ENV_OUT_HEAD_INDEX, .ENS_STEER_PREV_VALID, .ENS_STEER_PREV_POSITION,
   .ENS_STEER_COUNT_SESSIONS, .ENS_STANDBY_VALID, .ENS_STANDBY_ALIASED, .ENS_STANDBY_STANDBY,
   .WLD_STATUS_GATE_DEPTH0, .WLD_STATUS_GATE_DEPTH1, .WLD_STATUS_GATE_DEPTH2, .WLD_STATUS_GATE_DEPTH3,
   .WLD_STATUS_WORLD0, .WLD_STATUS_WORLD1, .WLD_STATUS_WORLD2, .WLD_STATUS_WORLD3, .WLD_CORE_GUEST_TENANT0,
   .WLD_CORE_GUEST_TENANT1, .WLD_CORE_GUEST_TENANT2, .WLD_CORE_GUEST_TENANT3, .WLD_EVENT_POLICY_STEP_LIMIT,
   .WLD_EVENT_DBG_VIOLATION, .WLD_EVENT_MPU_COMMIT_REFUSED, .WLD_EVENT_MPU_FAULT, .WLD_EVENT_GATE_IGNORED,
   .WLD_EVENT_GATE_DEFERRED, .WLD_EVENT_POT_FAULT, .WLD_EVENT_GATE_FAULT, .WLD_EVENT_EN_POLICY_STEP_LIMIT,
   .WLD_EVENT_EN_DBG_VIOLATION, .WLD_EVENT_EN_MPU_COMMIT_REFUSED, .WLD_EVENT_EN_MPU_FAULT,
   .WLD_EVENT_EN_GATE_IGNORED, .WLD_EVENT_EN_GATE_DEFERRED, .WLD_EVENT_EN_POT_FAULT, .WLD_EVENT_EN_GATE_FAULT,
   .WLD_WDOG_CTL_PERIOD_MS, .WLD_WDOG_KICK_KEY, .WLD_WDOG_STATUS_EXPIRIES, .WLD_WDOG_STATUS_REMAINING_MS,
   .WLD_HOLD_BLOCKS, .WLD_GATE_PENDING_BLOCKS, .WLD_GATE_IGNORED_COUNT, .WLD_GATE_FAULTS_COUNT,
   .WLD_POT_FAULTS_COUNT, .WLD_POLICY_EVALS_COUNT, .WLD_POLICY_DENIES_COUNT, .WLD_POT_KIND, .WLD_POT_PENDING,
   .WLD_POT_TENANT, .MPU_RGN_BASE_BASE, .MPU_RGN_ATTR_ENABLE, .MPU_RGN_ATTR_SIZE_LOG2, .MPU_RGN_ATTR_X,
   .MPU_RGN_ATTR_W, .MPU_RGN_ATTR_R, .MPU_COMMIT_COMMIT, .MPU_STATUS_COMMIT_GEN, .MPU_STATUS_FAULT_REGION,
   .MPU_STATUS_LAST_RESULT]
def allFldsPart7 : List Fld :=
    [.MPU_STATUS_DRAINING, .MPU_FAULT_ADDR_ADDR, .MPU_FAULT_INFO_COUNT, .MPU_FAULT_INFO_WRITE,
   .MPU_FAULT_INFO_LOCKED, .MPU_FAULT_INFO_LEN, .TMP_STATUS_ACTIVE, .TMP_STATUS_RANK, .TMP_STATUS_BROWNOUT,
   .TMP_STATUS_THROTTLED, .TMP_STATUS_HALTED, .TMP_STATUS_OUT, .TMP_STATUS_BIST_BUSY, .TMP_STATUS_MAP_SOURCE,
   .TMP_COND_SOURCES, .TMP_ALARM_SOURCES, .TMP_CTL_OUT_ACK, .TMP_CTL_RELEASE, .TMP_TEMP_SENSOR1, .TMP_TEMP_SENSOR0,
   .TMP_TEMP_LIMITS_HIGH, .TMP_TEMP_LIMITS_LOW, .TMP_SUPPLY_AUX_MV, .TMP_SUPPLY_CORE_MV, .TMP_VBAT_REVERSED,
   .TMP_VBAT_VBAT_MV, .TMP_BROWNOUT_COUNT_COUNT, .TMP_MESH_STATUS_MESH_D, .TMP_MESH_STATUS_MESH_C,
   .TMP_MESH_STATUS_MESH_B, .TMP_MESH_STATUS_MESH_A, .TMP_PIN_STATUS_IN1, .TMP_PIN_STATUS_IN0, .TMP_PIN_STATUS_LID,
   .TMP_BIST_CTL_START, .TMP_BIST_CTL_WINDOW_US, .TMP_BIST_CTL_SOURCE, .TMP_BIST_STATUS_PASSES,
   .TMP_BIST_STATUS_RESULT, .TMP_BIST_STATUS_LAST_SOURCE, .TMP_BACKUP_TIME_SECONDS, .TMP_BACKUP_TIME_FRACTION,
   .TMP_BACKUP_TIME_SET_VALUE, .TMP_BACKUP_STATUS_NEW, .TMP_BACKUP_STATUS_NEXT, .TMP_BACKUP_STATUS_BACKUP_ALARM,
   .TMP_BACKUP_STATUS_BBK_ZEROIZED, .TMP_BACKUP_STATUS_RUNNING, .TMP_BLOG_CTL_ACK, .TMP_MAP_ENABLED,
   .TMP_MAP_PROPAGATE, .TMP_MAP_OUT, .TMP_MAP_RANK, .TMP_BLOG_WORD, .CLK_STATUS_SETTLE_TRIES, .CLK_STATUS_FRO_FAIL,
   .CLK_STATUS_REFCLK_ABSENT, .CLK_STATUS_FRO_REF, .CLK_STATUS_ARMED, .CLK_STATUS_PLL_LOCK]
def allFldsPart8 : List Fld :=
    [.CLK_STATUS_SOURCE, .CLK_EVENT_REFCLK_RETRY, .CLK_EVENT_FRO_FAIL, .CLK_EVENT_FAILOVER,
   .CLK_EVENT_EN_REFCLK_RETRY, .CLK_EVENT_EN_FRO_FAIL, .CLK_EVENT_EN_FAILOVER, .CLK_FRO_KHZ_KHZ,
   .CLK_SETTLE_CODE_CODE, .CLK_FAIL_COUNT_COUNT, .PWR_CTL_IDLE_EN, .PWR_CTL_PARK, .PWR_STATUS_POINT,
   .PWR_STATUS_DEFERRED, .PWR_STATUS_THROTTLE, .PWR_STATUS_THERMAL, .PWR_STATUS_STATE, .PWR_OPPOINT_SOURCE,
   .PWR_OPPOINT_POINT, .PWR_OPPOINT_CAP, .PWR_POWER_ESTIMATE, .PWR_POWER_EFFECTIVE_CAP, .PWR_ENERGY_MICROJOULES,
   .RST_CTL_CONFIRM, .RST_CTL_POWER_CYCLE, .RST_CTL_ENSEMBLE, .RST_CTL_WARM, .RST_CAUSE_NOFRO_SEEN,
   .RST_CAUSE_BACKUP_LOST, .RST_CAUSE_ENSEMBLE, .RST_CAUSE_MANAGER, .RST_CAUSE_DECLARED, .RST_CAUSE_TAMPER,
   .RST_CAUSE_SUPPLY, .RST_CAUSE_WATCHDOG, .RST_CAUSE_PORST, .RST_CAUSE_POWER_ON, .RST_COUNT_WARM,
   .RST_COUNT_ENSEMBLE, .RST_PWR_REQ_TIMEOUT, .RST_PWR_REQ_ASSERTED, .LCS_STATE_TOGGLES, .LCS_STATE_STATE,
   .LCS_STATUS_PENDING_TARGET, .LCS_STATUS_RESUMED, .LCS_STATUS_INVALID_CODE, .LCS_STATUS_PENDING,
   .LCS_SERIAL_SERIAL, .LCS_JOURNAL_LAST_MARKS, .LCS_JOURNAL_NEXT, .LCS_TOKENS_REMAINING, .LCS_EVENT_DEBUG_AUTH,
   .LCS_EVENT_REQUEST_DROPPED, .LCS_EVENT_ACCEPTED, .LCS_EVENT_TRANSITION_DONE, .LCS_EVENT_EN_DEBUG_AUTH,
   .LCS_EVENT_EN_REQUEST_DROPPED, .LCS_EVENT_EN_ACCEPTED, .LCS_EVENT_EN_TRANSITION_DONE, .DBG_STATUS_REMAINING_S]
def allFldsPart9 : List Fld :=
    [.DBG_STATUS_CHALLENGE_VALID, .DBG_STATUS_SIGNER, .DBG_STATUS_LEVEL, .DBG_CTL_REVOKE, .DBG_CTL_NEW_CHALLENGE,
   .DBG_CHALLENGE_NONCE, .DBG_VIOLATION_COUNT_COUNT, .EVR_CTL_FREEZE, .EVR_STATUS_TORN, .EVR_STATUS_WRITING,
   .EVR_STATUS_FROZEN, .EVR_STATUS_RSV_USED, .EVR_STATUS_GEN_USED, .EVR_STATUS_NEXT, .EVR_SEQ_VALUE,
   .EVR_LOST_VALUE, .EVR_OP_HOURS_VALUE, .EVR_POWER_CYCLES_VALUE, .EVR_EVENT_FREEZE_TIMEOUT, .EVR_EVENT_LOST,
   .EVR_EVENT_RECORD, .EVR_EVENT_EN_FREEZE_TIMEOUT, .EVR_EVENT_EN_LOST, .EVR_EVENT_EN_RECORD, .EVR_READ_IDX_SLOT,
   .EVR_READ_DATA_WORD, .PMC_CTL_ENABLE, .PMC_CTL_WINDOW_US, .PMC_RING_BASE_ADDR, .PMC_RING_CTL_IRQ_COUNT,
   .PMC_RING_CTL_SIZE_LOG2, .PMC_RING_TAIL_INDEX, .PMC_RING_HEAD_INDEX, .PMC_STATUS_DROPPED, .PMC_EVENT_OVERRUN,
   .PMC_EVENT_EN_OVERRUN, .PMC_SEL_SELECTION, .PMC_TEN_CYCLES_CYCLES, .PMC_TEN_SEL_LEVEL, .PMC_TEN_SEL_ENABLE,
   .PMC_TEN_SEL_BLOCK, .PMC_TEN_SEL_EVENT, .PMC_TEN_CNT_COUNT]

/-- Every field, in the order of the manual. -/
def allFlds : List Fld :=
  allFldsPart0 ++ allFldsPart1 ++ allFldsPart2 ++ allFldsPart3 ++ allFldsPart4 ++ allFldsPart5 ++ allFldsPart6 ++ allFldsPart7 ++ allFldsPart8 ++ allFldsPart9

/-- The width of a field in bits. -/
def Fld.width (f : Fld) : Nat := f.info.hi - f.info.lo + 1

/-- The place of a field in the order of `allFlds`, which orders the register file. -/
def Fld.num (f : Fld) : Nat := f.ctorIdx

/-- The byte offset of the register that holds element (i, j) of a field: in BAR0 of the physical function, tenant
pages at their mirror (R46, R450). -/
def Fld.offset (f : Fld) (i j : Nat) : Nat :=
  (if f.info.page then 0x1000000 else 0) + f.info.base + f.info.istride * i + f.info.jstride * j

end Sys2Proof.Machine
end

