-- ==== Sys2Proof/Machine/Sparse.lean ====
section
/-! DEFINITION. Sparse maps from a number to a value, held as a list of pairs in one canonical form: keys strictly
rising, and no entry equal to what an unlisted key reads as. The register file, the host memory and every indexed
piece of state (lanes, cores, ring pairs, tenants) are held this way, so that equal contents are equal data. -/
namespace Sys2Proof.Machine

/-- The value at key `k`; an unlisted key reads `d k`. -/
def sget {α : Type} (d : Nat → α) : List (Nat × α) → Nat → α
  | [], k => d k
  | (k', v) :: r, k => if k = k' then v else sget d r k

/-- The map with `v` listed at key `k`, keys rising. -/
def sins {α : Type} : List (Nat × α) → Nat → α → List (Nat × α)
  | [], k, v => [(k, v)]
  | (k', v') :: r, k, v => if k < k' then (k, v) :: (k', v') :: r else if k = k' then (k, v) :: r else (k', v') :: sins r k v

/-- The map with `v` at key `k`, in canonical form: writing what an unlisted key reads as removes the entry. -/
def sput {α : Type} [DecidableEq α] (d : Nat → α) (m : List (Nat × α)) (k : Nat) (v : α) : List (Nat × α) :=
  if v = d k then m.filter fun p => p.1 != k else sins m k v

/-- Canonical form, given a bound that every key must exceed. -/
def swfFrom {α : Type} [DecidableEq α] (d : Nat → α) : Nat → List (Nat × α) → Bool
  | _, [] => true
  | lo, (k, v) :: r => decide (lo ≤ k) && decide (v ≠ d k) && swfFrom d (k + 1) r

/-- The canonical form of a sparse map. -/
def swf {α : Type} [DecidableEq α] (d : Nat → α) (m : List (Nat × α)) : Bool := swfFrom d 0 m

/-- A map whose unlisted keys read the type's default value. -/
def tget {α : Type} [Inhabited α] (m : List (Nat × α)) (k : Nat) : α := sget (fun _ => default) m k

/-- Writing a map whose unlisted keys read the type's default value. -/
def tput {α : Type} [Inhabited α] [DecidableEq α] (m : List (Nat × α)) (k : Nat) (v : α) : List (Nat × α) :=
  sput (fun _ => default) m k v

end Sys2Proof.Machine
end

