-- ==== Sys2Proof/Machine/State.lean ====
section
/-! DEFINITION. The state of one TY8K40 die: every register of the manual (the sparse register file `regs`), host
memory as the die sees it over its link, and every piece of state of the blocks that no register shows. Plain data.
Unless a docstring says otherwise a field is empty, zero or false after a cold reset. -/
namespace Sys2Proof.Machine

/-! ## Status codes, replies and requests (spec/00 R15, spec/02 R49 to R65) -/

/-- The status codes of R15. -/
inductive Status where
  | ok | authFail | replay | noSession | busy | operandRange | notInvertible | invalidPoint | aborted | rngNotReady
  | rngFault | keyExhausted | keyExpired | policyDeny | faultRetry | quiesced | storeIntegrity | paramRejected
  | badDescriptor | accessFault | tamperHalt | untrustedOutput | tableFull | limitReached
  deriving DecidableEq, Repr

/-- The code of a status in reply byte 0 (R15). -/
def Status.code : Status → Nat
  | .ok => 0x00 | .authFail => 0x01 | .replay => 0x02 | .noSession => 0x03 | .busy => 0x04 | .operandRange => 0x05
  | .notInvertible => 0x06 | .invalidPoint => 0x07 | .aborted => 0x08 | .rngNotReady => 0x09 | .rngFault => 0x0A
  | .keyExhausted => 0x0B | .keyExpired => 0x0C | .policyDeny => 0x0D | .faultRetry => 0x0E | .quiesced => 0x0F
  | .storeIntegrity => 0x10 | .paramRejected => 0x11 | .badDescriptor => 0x12 | .accessFault => 0x13
  | .tamperHalt => 0x14 | .untrustedOutput => 0x15 | .tableFull => 0x16 | .limitReached => 0x17

/-- What a request answers with: the fields of R65 that its opcode decides. `flags` are reply byte 1, `detail` the
little-endian word of bytes 12 to 15, `pos` the position of the die that did the work. -/
structure Reply where
  status : Status
  flags : Nat
  length : Nat
  detail : Nat
  session : Nat
  pos : Nat
  deriving DecidableEq, Repr

/-- Where a fetched request stands. -/
inductive Stage where
  /-- fetched, its opcode not handled yet -/
  | fetched
  /-- checked; waits in a dispatcher, for a bucket, a lock, an interlock or random bytes (not dispatched, R234) -/
  | waiting
  /-- dispatched to a lane, core or step -/
  | running
  /-- its work is done; the reply waits for slot writes of it to complete (R123, R147) -/
  | writing (r : Reply)
  /-- its reply waits only for the order rules of R58 -/
  | ready (r : Reply)
  /-- forwarded to its home die (R23) -/
  | forwarded
  deriving DecidableEq, Repr

/-- Who submitted a request: a ring pair of a function of this die, or another die that forwarded it (R23). -/
inductive Origin where
  | pair (fn pair idx : Nat)
  | ring (pos msg hops : Nat)
  deriving DecidableEq, Repr

/-- Work that a request gives a block before its own effect: a Constantan job, a lattice job, or a message on a hash lane (R100, R176,
R184, R202). -/
inductive Work where
  /-- a Constantan job of so many cycles; `fresh` random bytes are drawn again where it is repeated -/
  | con (cycles fresh : Nat)
  /-- a lattice job; a signature has attempt boundaries -/
  | ntt (cycles : Nat) (signing : Bool) (fresh : Nat)
  /-- a message of so many bytes under the hash of an ALG code -/
  | hash (alg bytes : Nat)
  deriving DecidableEq, Repr

/-- A request in flight. `input` holds the record that travelled with a forwarded request. -/
structure Req where
  rid : Nat
  tenant : Nat
  origin : Origin
  desc : Bytes
  stage : Stage
  /-- a stop asked of running work by a quiesce, a cancel or a reset: the status it will complete with -/
  stop : Option Status
  /-- the cancel request that asked for the stop (R108, R187), 0 when none -/
  stopBy : Nat
  input : Bytes
  /-- the use of a key that this request has counted (R234): tenant, handle, and whether USES was counted down -/
  use : Option (Nat × Nat × Bool)
  /-- the policy program of the key it needs has allowed the use that its dispatch will count (R364) -/
  allowed : Bool
  /-- the session (its uid) that a record request was found to name, 0 before (R58) -/
  sess : Nat
  /-- the earlier record requests of its ring pair that name the same session: their replies go first (R58) -/
  behind : List Nat
  /-- the LAST_SEEN that its lookup replaced, with the session, as long as its own status is open (R71, R130) -/
  stamp : Option (Nat × Nat)
  /-- the status that a slot write of it met in place of completing: it replaces the request's own (R64, R157, R158) -/
  spoiled : Option Status
  /-- the work it still gives the blocks, the first of it under way, and whether all of it is done -/
  work : List Work
  worked : Bool
  /-- number of the first random byte drawn for that work (R179) -/
  drawn : Nat
  /-- work of it was repeated on another unit (R189) -/
  relaned : Bool
  /-- the TY6C request of a steward-mode tenant that this one was translated from, empty for a native request, and the native
  descriptors of its translation that are still to run (R288) -/
  orig : Bytes
  rest : List Bytes
  /-- when it was fetched, on the model's clock (R267) -/
  fetchMs : Nat
  deriving DecidableEq, Repr

/-- The moving parts of one ring pair that no register shows (R50, R51, R53, R68). -/
structure PairState where
  /-- t0 of R51: the last accepted request tail -/
  lastTail : Nat
  /-- the reply head the driver returned (R50) -/
  replyHead : Nat
  /-- replies written since the last message (R68) -/
  sinceMsg : Nat
  /-- a refusal of this drain has been reported (R53) -/
  drainReported : Bool
  deriving DecidableEq, Repr, Inhabited

/-- The moving parts of one notification ring (R60, R68). -/
structure NtfState where
  /-- the head the driver returned -/
  head : Nat
  /-- entries written since the vector's last message -/
  sinceMsg : Nat
  deriving DecidableEq, Repr, Inhabited

/-- One entry of an MSI-X table, as PCIe lays it out (R67). -/
structure MsixVec where
  addr : Nat
  data : Nat
  masked : Bool
  pending : Bool
  deriving DecidableEq, Repr

/-- One entry of the Advanced Error Reporting log (R69): the error, its class, and the header logged with it. -/
structure AerEntry where
  kind : AerKind
  cls : AerClass
  header : Bytes
  deriving DecidableEq, Repr

/-- A message the die sends over the ring (spec/12), by the name the manual gives it, with its contents. `dest` is a
position, or none for a broadcast; `links` the ring modules it leaves by, true for ring B. -/
structure RingMsg where
  kind : RingKind
  dest : Option Nat
  links : List Bool
  body : Bytes
  deriving DecidableEq, Repr

/-- What leaves the die other than writes to host memory. -/
inductive Output where
  /-- an MSI-X message of a vector of a function (R67, R68) -/
  | msi (fn vec addr data : Nat)
  /-- a message over the ring links -/
  | ring (m : RingMsg)
  /-- a Completer Abort (R47) -/
  | completerAbort (fn offset : Nat)
  /-- the data a host read returned where the read itself is a command (R270, R400) -/
  | readData (fn offset value : Nat)
  /-- the level of an output pin: PWR_REQ_N or TAMPER_OUT_N, true for released (high) -/
  | pin (name : PinName) (high : Bool)
  /-- data shifted out of the test access port (R425) -/
  | tap (data : Bytes)
  deriving DecidableEq, Repr

/-- A request that waits for the completion of others (R108, R187, R194, R202): AEAD_CANCEL, CON_CANCEL, NTT_CANCEL and
CURVE_UNLOAD. `count` counts the completions ABORTED where `counts` says so; `on` lists the requests awaited. -/
structure Waiter where
  rid : Nat
  counts : Bool
  count : Nat
  on : List Nat
  deriving DecidableEq, Repr

/-- State of the host link, the functions and the rings (spec/02). -/
structure QueState where
  /-- requests fetched and not yet replied, oldest first -/
  reqs : List Req
  /-- requests that wait for others to complete -/
  waiters : List Waiter
  /-- the identifier the next fetched request takes (the model's own, from 1) -/
  nextRid : Nat
  /-- ring pairs, keyed by function × 16 + pair -/
  pairs : List (Nat × PairState)
  /-- notification rings, keyed by function -/
  ntfs : List (Nat × NtfState)
  /-- MSI-X tables, keyed by function × 32 + vector; an unlisted entry is masked, with nothing pending -/
  msix : List (Nat × MsixVec)
  /-- SR-IOV VF Enable (R45) -/
  vfEnable : Bool
  /-- per function: the offset + 1 of the 64-bit register whose high word is held, and that word (R400) -/
  heldHigh : List (Nat × (Nat × Nat))
  /-- the AER log, oldest first (R69) -/
  aer : List AerEntry
  /-- the AER mask register: errors that are not logged (R69) -/
  aerMask : List AerKind
  /-- the AER severity register: uncorrectable errors of the class fatal (R69) -/
  aerFatal : List AerKind
  /-- RATE of the last training that succeeded, 0 before the first (HLK_EVENT.RATE_CHANGED) -/
  lastRate : Nat
  /-- the 10 ms retry after a failed training runs (R39) -/
  trainRetry : Bool
  /-- the physical function answers configuration requests with Request Retry Status (R44) -/
  crs : Bool
  deriving DecidableEq, Repr

/-! ## The record path (spec/03) -/

/-- A record or held raw object in a lane (R94): what the lane needs to finish it. -/
structure LaneJob where
  rid : Nat
  lane : Nat
  /-- session concerned (its uid), 0 for a raw object -/
  uid : Nat
  /-- the sequence number assigned or reconstructed -/
  seq : Nat
  /-- encrypts (outbound records, seals) or decrypts -/
  enc : Bool
  /-- algorithm, tag length, key, nonce and associated data of the AEAD -/
  alg : Nat
  tagLen : Nat
  key : Bytes
  nonce : Bytes
  aad : Bytes
  /-- plaintext to encrypt, or ciphertext followed by the tag -/
  body : Bytes
  /-- outbound: the record header, with which the output starts; DTLS inbound: its first byte; else empty -/
  hdr : Bytes
  /-- the key use that its dispatch counts, as handle and usage bit, none once counted or where there is none (R75, R234) -/
  use : Option (Nat × Nat)
  /-- the lane of an earlier attempt that mismatched (R96) -/
  first : Option Nat
  /-- re-issued once, by R96 or R97 -/
  relaned : Bool
  deriving DecidableEq, Repr

/-- A streamed raw AEAD job (R103 to R106). -/
structure StreamJob where
  rid : Nat
  lane : Nat
  enc : Bool
  alg : Nat
  tagLen : Nat
  key : Bytes
  nonce : Bytes
  aad : Bytes
  /-- bytes of the object without its tag -/
  total : Nat
  /-- bytes processed and written -/
  off : Nat
  /-- the ciphertext so far: what the running MAC state has taken in -/
  acc : Bytes
  /-- the key use that its dispatch counts, as of a held job -/
  use : Option (Nat × Nat)
  first : Option Nat
  relaned : Bool
  /-- the scrub's progress and the reply it precedes, when the job scrubs (R105) -/
  scrub : Option (Nat × Reply)
  deriving DecidableEq, Repr

/-- What a resume token binds beside what it repeats (R106): its number, the digest of the bound descriptor and parameter
fields, and the running state. -/
structure Suspended where
  id : Nat
  binding : Bytes
  off : Nat
  acc : Bytes
  deriving DecidableEq, Repr

/-- A hash request on a hash lane (R100, R101). -/
structure HashJob where
  rid : Nat
  lane : Nat
  /-- bytes of the message: of a hash request its input; else of a key schedule, a derivation or a pass of EdDSA (R100, R176), whose
  result is part of the request's own -/
  total : Nat
  /-- the ALG code of such a message, 0 for a hash request -/
  inner : Nat
  /-- bytes of the input processed, and those bytes -/
  off : Nat
  acc : Bytes
  /-- key of an HMAC, empty for a hash -/
  key : Bytes
  first : Option Nat
  relaned : Bool
  deriving DecidableEq, Repr

/-- State of the record path. Lane and hash lane states lie in LANE_STATUS and HASH_STATUS. -/
structure RecState where
  /-- times (ms) of the mismatches of lane l that still count (R97) -/
  laneMism : List (Nat × List Nat)
  hashMism : List (Nat × List Nat)
  jobs : List LaneJob
  streams : List StreamJob
  hashes : List HashJob
  /-- streams stopped with a resume token (R106) -/
  suspended : List Suspended
  /-- one more than the number of the draw that made the resume-token key of this warm reset, 0 before it exists (R106, R264) -/
  tokenGen : Nat
  deriving DecidableEq, Repr

/-! ## The key flow table (spec/04) -/

/-- A session (R117 to R119): identity, place, and body. Sequence fields not used by its PROTO are 0. -/
structure Session where
  /-- the model's own identity, never reused -/
  uid : Nat
  tenant : Nat
  /-- the position whose slice holds it -/
  home : Nat
  /-- home bucket -/
  bucket : Nat
  /-- SESSION_ID of R114 -/
  sid : Nat
  /-- in the Crumb bucket instead of the main bucket -/
  crumb : Bool
  /-- the slots it occupies in its bucket, in PART order -/
  slots : List Nat
  proto : Nat
  suite : Nat
  sflags : Nat
  idLen : Nat
  lastSeen : Nat
  wCode : Nat
  ident : Bytes
  /-- ESP: KEY and SALT -/
  key : Bytes
  salt : Bytes
  /-- highest accepted number (ESP inbound, DTLS read) -/
  h : Nat
  /-- BITMAP as a number: bit i says H − i was accepted -/
  bitmap : Nat
  /-- next number to assign: SEQ or WR_SEQ -/
  seq : Nat
  fails : Nat
  peerCid : Bytes
  rdEpoch : Nat
  wrEpoch : Nat
  rdKey : Bytes
  rdIv : Bytes
  rdSn : Bytes
  wrKey : Bytes
  wrIv : Bytes
  wrSn : Bytes
  /-- what the host copy holds (R123): H, SEQ or WR_SEQ, FAILS -/
  hostH : Nat
  hostSeq : Nat
  hostFails : Nat
  /-- the ways of its cache set that hold it, none when it is not cached, and its re-reference value (R122) -/
  ways : List Nat
  rrpv : Nat
  /-- records in flight (R122, R138) -/
  inFlight : Nat
  /-- marked deleted by TBL_DELETE (R138): the request that waits -/
  deleting : Option Nat
  deriving DecidableEq, Repr

/-- BUCKET_META of a main bucket (R117). -/
structure BucketMeta where
  nextId : Nat
  moveGen : Nat
  deriving DecidableEq, Repr

/-- A lookup in flight (R120): the bucket read that is out, 1 to 4 in the order of the pseudocode, the sessions the bucket held
when the read was issued, and the MOVE_GEN it held; g is the generation noted after the first main read. Steps 5 to 8 have a match of reads
1 to 4 whose fill waits for the interlock or for a way; steps 9 to 12 wait, after 0 to 3 reads, for one of the 2,048 reads of R29. -/
structure Lookup where
  rid : Nat
  bucket : Nat
  step : Nat
  snap : List Nat
  gen : Nat
  g : Nat
  deriving DecidableEq, Repr

/-- A bucket lock (R136). -/
structure Lock where
  bucket : Nat
  tenant : Nat
  deriving DecidableEq, Repr

/-- An open AGED batch of a tenant (R133): the handles and the stamps collected. -/
structure AgedBatch where
  tenant : Nat
  entries : List (Nat × Nat × Nat)
  deriving DecidableEq, Repr

/-- A relocation whose main bucket is being written: the Crumb slots to be written empty after it, and the request that waits
for it, 0 for none (R128, R138). -/
structure Move where
  main : Nat
  crumb : Nat
  slots : List Nat
  rid : Nat
  deriving DecidableEq, Repr

/-- State of the table engine. -/
structure KftState where
  sessions : List Session
  nextUid : Nat
  metas : List (Nat × BucketMeta)
  lookups : List Lookup
  locks : List Lock
  /-- requests waiting for a bucket lock: request, bucket (R137) -/
  lockWait : List (Nat × Nat)
  /-- changes and lookups waiting for an interlock: bucket, request, in request order (R121) -/
  ilWait : List (Nat × Nat)
  /-- relocations between their two writes (R128) -/
  moves : List Move
  /-- main buckets to relocate into once a deleted session's slots are written, with the request that waits (R138) -/
  relocDue : List (Nat × Nat)
  batches : List AgedBatch
  /-- next batch number per tenant (R133) -/
  batchNo : List (Nat × Nat)
  /-- the sweep's next bucket: main buckets first, then Crumb buckets -/
  sweepPos : Nat
  /-- nowMs at the start of the running pass, and whether it has been found late (R132) -/
  passStart : Nat
  passLate : Bool
  /-- a bucket whose sweep read failed and waits for its second read (R132) -/
  sweepRetry : Option Nat
  /-- tenants whose REMOVE waits for the pass after this one (true) or for the running pass (false) to end (R283) -/
  removing : List (Nat × Bool)
  deriving DecidableEq, Repr

/-! ## Millefeuille (spec/05) -/

/-- The counters of a version block (R143): MAJOR, and MINORS as the 224-bit field. -/
structure VBlock where
  major : Nat
  minors : Nat
  deriving DecidableEq, Repr, Inhabited

/-- One slot of a slot write: its index in the slice, payload, and the versions before and after. -/
structure SlotImage where
  index : Nat
  payload : Bytes
  old : Nat
  version : Nat
  deriving DecidableEq, Repr

/-- The share of one change in a slot write: the bucket (or handle slot) whose interlock it holds, its slots, and the request it
belongs to, 0 for none. -/
structure WritePart where
  bucket : Nat
  slots : List SlotImage
  rid : Nat
  deriving DecidableEq, Repr

/-- Where a slot write stands (R147 to R150). -/
inductive WriteStage where
  /-- no counter raised yet: it waits for one of the 1,024 places, a re-seal, a re-seal place or a dirty entry -/
  | parked
  /-- its pending entry awaits the mirror's acknowledgement -/
  | mirroring
  /-- its slots are written; the block follows at the end of the block's re-seal -/
  | sealing
  /-- slots and block are written; the flush read is out -/
  | flushing
  deriving DecidableEq, Repr

/-- A slot write (R147): all its slots lie under one level-1 block. Writes combined by R148 are parts of one. -/
structure SlotWrite where
  wid : Nat
  home : Nat
  block : Nat
  parts : List WritePart
  stage : WriteStage
  /-- mirror changes whose acknowledgements it awaits -/
  awaits : List Nat
  /-- version of the block before and after -/
  uOld : Nat
  uNew : Nat
  /-- it is the last step of the block's re-seal (R150) -/
  ends : Bool
  deriving DecidableEq, Repr

/-- A write-back of a level-2 block that awaits its acknowledgement (R149 step 5); `ends` as for a slot write. -/
structure BackWrite where
  home : Nat
  index : Nat
  ack : Nat
  ends : Bool
  deriving DecidableEq, Repr

/-- A re-seal in progress (R150): position of the slice, level and index of the block, its old image, and the children
not yet done. -/
structure Reseal where
  home : Nat
  level : Nat
  index : Nat
  old : VBlock
  left : List Nat
  deriving DecidableEq, Repr

/-- A poisoned range (R158): position of the slice, level, and slice offset of its first slot. -/
structure Poison where
  home : Nat
  level : Nat
  offset : Nat
  deriving DecidableEq, Repr

/-- The mirror area kept for a neighbour (R152): slice nonce, levels 4 and 5 and dirty level-2 blocks as they were
received, and pending entries. -/
structure MirrorArea where
  nonce : Nat
  blocks : List (Nat × VBlock)
  pendings : List Bytes
  deriving DecidableEq, Repr

/-- State of the store controller. -/
structure MlfState where
  /-- the slice nonce of this die's slice; 0 before formatting -/
  nonce : Nat
  /-- the version blocks that lie on the die, of the own slice and of an adopted one, keyed by (position × 8 + level) × 2^32 + index:
  levels 3 to 5, and the level-1 and level-2 blocks of the cache; an unlisted one of these is all zero (R144) -/
  tree : List (Nat × VBlock)
  /-- level-1 and level-2 blocks in the version-tree cache, by their keys, least recently used first (R146) -/
  cached : List Nat
  /-- level-3 blocks of an adopted slice that have been read from their host copy (R153) -/
  upper : List Nat
  /-- dirty level-2 blocks by their keys, least recently used first -/
  dirty : List Nat
  writes : List SlotWrite
  backs : List BackWrite
  nextWid : Nat
  /-- changes sent to the mirror holder and not yet acknowledged (R152) -/
  unacked : List Nat
  reseals : List Reseal
  /-- the poison list, by index 0 to 255 -/
  poison : List (Nat × Poison)
  /-- the poison entry whose reformat runs (R159) -/
  reformat : Option Nat
  mirror : MirrorArea
  /-- the mirror that the neighbour keeps of a slice it has itself adopted (R155) -/
  mirrorToo : MirrorArea
  /-- the mirror area frozen for adoption, with the nonce of the adopted slice (R153) -/
  adopted : MirrorArea
  /-- positions whose slices were written by another die: their buckets and handle slots are taken in as they are first read
  (R153, R329); true where the adjustments of R124 apply -/
  foreign : List (Nat × Bool)
  /-- buckets and handle slots of such slices that have been taken in -/
  taken : List Nat
  /-- an integrity failure of this command found the poison list full: the kind its alarm shows, presented as the command ends (R160) -/
  alarmDue : Option Nat
  /-- positions that have still to confirm the raised archive epoch (R162) -/
  bumpWait : List Nat
  deriving DecidableEq, Repr

/-! ## Constantan and the lattice cores (spec/06, spec/07 R196 to R203) -/

/-- Where a job of a compute block stands (R165, R185, R186). `waiting` counts in the queue status; `displaced` is a
long job, or a signature, whose core a short job took. -/
inductive JobPlace where
  | waiting
  | running (core : Nat)
  | displaced (core : Nat)
  /-- computed: its context delivers the results (R165) -/
  | storing (core : Nat)
  deriving DecidableEq, Repr

/-- A Constantan job: a request of family 0x3 (R167), or a job the block issues for another request. -/
structure ConJob where
  rid : Nat
  tenant : Nat
  /-- fixed time in CLK_NUM cycles (R175 to R177) -/
  cycles : Nat
  /-- long in the sense of R184 -/
  long : Bool
  place : JobPlace
  /-- its random values are drawn (R179) -/
  loaded : Bool
  /-- the core and the context of it that hold the job, none before its operands load into one (R165, R186) -/
  ctx : Option (Nat × Nat)
  /-- the hash pass of EdDSA that it needs before it starts is done, or it needs none (R176) -/
  hashed : Bool
  /-- operand block as read at loading -/
  input : Bytes
  /-- the curve the job names, as it was at its fetch: p, a, b, Gx, Gy, n, cofactor, bits of p, bits of n (R194) -/
  params : List Nat
  /-- random bytes to draw for it before it starts, and the number of the first of those drawn (R178, R179) -/
  need : Nat
  draw : Nat
  /-- times displaced (R171 PREEMPTED) -/
  preempted : Nat
  /-- resumed and not yet at its next yield point (R185) -/
  fresh : Bool
  /-- core of a first attempt that mismatched, and whether this is the repeat (R189) -/
  first : Option Nat
  relaned : Bool
  deriving DecidableEq, Repr

/-- A loaded curve of a tenant (R192 to R194). -/
structure Curve where
  tenant : Nat
  id : Nat
  /-- the domain-parameter record -/
  record : Bytes
  /-- p, a, b, Gx, Gy, n of the record as numbers -/
  params : List Nat
  deriving DecidableEq, Repr

/-- State of the Constantan engine. Core states lie in CON_CORE_STATUS. -/
structure ConState where
  /-- jobs in fetch order -/
  jobs : List ConJob
  /-- times (ms) of the mismatches of core c that still count (R190) -/
  mism : List (Nat × List Nat)
  curves : List Curve
  /-- operand memory of contexts that hold no job: bytes that are not 0, keyed by core × 65,536 + offset (R164) -/
  mem : List (Nat × Byte)
  deriving DecidableEq, Repr

/-- A lattice job (R197 to R202). -/
structure NttJob where
  rid : Nat
  tenant : Nat
  place : JobPlace
  /-- the core and the context of it that hold the job (R196) -/
  ctx : Option (Nat × Nat)
  /-- an MLDSA_SIGN, whose attempt boundaries are yield points -/
  signing : Bool
  /-- cycles of a job that another request gives the cores, 0 for a request of family 0x4 -/
  cycles : Nat
  input : Bytes
  /-- random bytes to draw before it starts, and one more than the number of the first of those drawn, 0 before -/
  need : Nat
  draw : Nat
  /-- attempts made so far (R201) -/
  attempts : Nat
  preempted : Nat
  first : Option Nat
  relaned : Bool
  deriving DecidableEq, Repr

/-- A handshake context: the table entry (R204) and what its body holds between steps (R211, R217). The body lies encrypted
in the context blob in host memory; the model keeps what the blob opens to. -/
structure HsCtx where
  ctxId : Nat
  tenant : Nat
  /-- completed steps -/
  step : Nat
  /-- 0x01 DTLS 1.3 server, 0x02 IKEv2 responder -/
  protocol : Nat
  suite : Nat
  prf : Nat
  /-- the last step that has taken the context up: it runs as long as that request is in flight (R208) -/
  busy : Nat
  /-- nowMs at its last step, from which its timeout runs (R204, R209) -/
  lastMs : Nat
  /-- retained after its install (R209) -/
  retained : Bool
  peerAuth : Bool
  /-- opened by HS_RESUME -/
  resumed : Bool
  /-- done so far: ServerHello appended, HS_SIGN, HS_FINISHED, HS_VERIFY_PEER -/
  helloDone : Bool
  signed : Bool
  finished : Bool
  verified : Bool
  /-- HS_ADDKE steps of the running exchange (R206), and their secrets on a retained context (R218) -/
  addke : Nat
  secrets : List Bytes
  /-- secrets whose SK_ keys come into use with the next exchange (R217) -/
  nextKe : List Bytes
  /-- the handshake messages appended so far; for IKEv2 the IKE_SA_INIT request and response -/
  transcript : Bytes
  /-- DTLS: the shared secret, the PSK, the handshake traffic secrets, the master secret, the application traffic secrets
  and the resumption master secret -/
  shared : Bytes
  psk : Bytes
  hsClient : Bytes
  hsServer : Bytes
  master : Bytes
  appClient : Bytes
  appServer : Bytes
  /-- IKEv2: SPIs, nonces, SK_d, SK_ei, SK_er (each with its salt), SK_pi, SK_pr -/
  spis : Bytes
  nonceI : Bytes
  nonceR : Bytes
  skD : Bytes
  skEi : Bytes
  skEr : Bytes
  skPi : Bytes
  skPr : Bytes
  /-- the IntAuth chain of each side, empty before an IKE_INTERMEDIATE message, and the last message ID unprotected -/
  intI : Bytes
  intR : Bytes
  msgId : Nat
  /-- epoch-2 records protected and accepted (R211) -/
  prSeq : Nat
  rdH : Nat
  rdBitmap : Nat
  /-- the session that its install learned, and one that it has learned and not yet installed (R218), as a uid or 0 -/
  handle : Nat
  half : Nat
  deriving DecidableEq, Repr

/-- State of the lattice cores and of the handshakes. -/
structure NttState where
  jobs : List NttJob
  mism : List (Nat × List Nat)
  ctxs : List HsCtx
  /-- one more than the number of the draw that made the handshake context key of this warm reset, 0 before it exists (R204, R220) -/
  ctxKeyGen : Nat
  /-- the CTX_ID that the next search for a free entry starts at -/
  nextCtx : Nat
  /-- memory of contexts that hold no job: bytes that are not 0, keyed by core × 262,144 + offset (R196) -/
  mem : List (Nat × Byte)
  deriving DecidableEq, Repr

/-! ## Keys (spec/08) -/

/-- A key object of a tenant at a handle: the fields of R230. -/
structure KeyObj where
  tenant : Nat
  handle : Nat
  type : Nat
  usage : Nat
  aflags : Nat
  origin : Nat
  policyId : Nat
  param : Nat
  len : Nat
  uses : Nat
  vgen : Nat
  /-- slot bytes 16 to 111: the material, or the extension descriptor of R236 -/
  material : Bytes
  /-- the units of its key cache set that hold it, none when it is not cached, and its re-reference value (R240) -/
  ways : List Nat
  rrpv : Nat
  /-- dispatched uses in flight (R234, R240) -/
  inFlight : Nat
  /-- USES as the host copy holds it (R235) -/
  hostUses : Nat
  /-- a KEY_DELETE fetched and waiting for the uses in flight (R241) -/
  deleting : Option Nat
  deriving DecidableEq, Repr

/-- A share record (R227). -/
structure Share where
  x : Nat
  threshold : Nat
  gen : Nat
  check : Bytes
  share : Bytes
  deriving DecidableEq, Repr

/-- A custodian of the set (R247). -/
structure Custodian where
  index : Nat
  alg : Nat
  key : Bytes
  deriving DecidableEq, Repr

/-- The open ceremony (R250). -/
structure Ceremony where
  serial : Nat
  kind : Nat
  digest : Bytes
  nonce : Bytes
  request : Bytes
  /-- custodians counted, bit i for custodian i; bit 8 for the owner pair (R252) -/
  approved : Nat
  deriving DecidableEq, Repr

/-- A dealing of shares that waits for every die to have written its own (R248), or a key import that waits for the die that serves its
tenant: the request, the generation dealt (0 for an import), the root, which is zeroized at the end (R26), the slot and the epoch where
the ensemble enters a domain with it, the positions that have still to answer, the reply that the request then completes with, and whether
the open ceremony ends with it. -/
structure Dealing where
  rid : Nat
  gen : Nat
  root : Bytes
  join : Option (Nat × Nat)
  wait : List Nat
  rep : Reply
  cer : Bool
  deriving DecidableEq, Repr

/-- State of the key manager. Secrets that exist only inside the die are byte strings, none when absent. -/
structure KeyState where
  drk : Option Bytes
  bbk : Option Bytes
  nk : Option Bytes
  esk : Option Bytes
  /-- what the share record in NVM opened to, and the record of a generation not yet committed (R248) -/
  share : Option Share
  nextShare : Option Share
  /-- the two records as the current NVM bank holds them, wrapped under NK, empty where there is none (R227) -/
  bank : Bytes
  nextBank : Bytes
  /-- the two records as the pending bank of MEAS_MIGRATE holds them, wrapped under NK′ (R253) -/
  pendBank : Bytes
  pendNext : Bytes
  /-- MEAS0 to MEAS7 are locked but for MEAS7 (R223) -/
  measLocked : Bool
  objs : List KeyObj
  custodians : List Custodian
  /-- m of the custodian set -/
  threshold : Nat
  /-- the owner key pair: P-384 point and ML-DSA-87 public key; empty when none is registered -/
  ownerEc : Bytes
  ownerMldsa : Bytes
  ceremony : Option Ceremony
  /-- a dealing of shares, or a ceremony, that waits for other dies -/
  dealing : Option Dealing
  /-- expected measurements of the pending bank (R253) -/
  pendingMeas : Bytes
  /-- statements made since cold reset (R255 claim 12) -/
  statements : Nat
  /-- state words ST0 to ST7 of the policy programs, keyed by tenant × 64 + program (R365); unlisted words are 0 -/
  policyState : List (Nat × List Nat)
  deriving DecidableEq, Repr

/-! ## Random numbers (spec/09) -/

/-- A request or internal draw waiting for random values (R265 to R267): bytes gathered so far for a request. -/
structure RngWait where
  rid : Nat
  full : Bool
  need : Nat
  got : Nat
  deriving DecidableEq, Repr

/-- One CTR_DRBG instance (R262). Whether it is seeded lies in RNG_STATUS.SEEDED. -/
structure Drbg where
  calls : Nat
  reseedDue : Bool
  /-- when it was last seeded, on the model's clock -/
  sinceMs : Nat
  deriving DecidableEq, Repr, Inhabited

/-- State of the generator. -/
structure RngState where
  /-- number of the next random byte handed out: what the opaque byte source is applied to -/
  draws : Nat
  drbgBytes : Nat
  feBytes : Nat
  insts : List (Nat × Drbg)
  /-- the instance that fills the queue next (R262) -/
  turn : Nat
  waits : List RngWait
  /-- 64-byte units delivered to function n in this epoch (R266) -/
  units : List (Nat × Nat)
  /-- the start-up test of this start or rerun has passed -/
  startupDone : Bool
  /-- reads of RNG_RAW so far: what the opaque samples are applied to (R270) -/
  rawReads : Nat
  /-- instantiations since cold reset (R262) -/
  instantiations : Nat
  /-- when READY was last reached, on the model's clock (R269) -/
  readyMs : Nat
  deriving DecidableEq, Repr

/-! ## Tenants and sharing (spec/10) -/

/-- What the block holds of one function beside its registers. -/
structure TenantCtl where
  /-- why the tenant drains: 0 not draining, 1 QUIESCE, 2 TEN_CMD RESET, 3 FLR; 4 TEN_CMD RESET whose drain is over -/
  cause : Nat
  /-- requests that completed QUIESCED (or ABORTED in a reset) in the running quiesce (R279) -/
  stopped : Nat
  /-- nowMs when the quiesce started -/
  since : Nat
  /-- REMOVE has still to write the handle slots empty (R283) -/
  regionClear : Bool
  /-- budgets and debts of this epoch: lanes, Constantan, lattice (R276), in cycles -/
  budget : List Nat
  debt : List Nat
  used : List Nat
  /-- cycles served on lent capacity in this epoch, by block (R276) -/
  lent : List Nat
  /-- pages that the active bitmap marks (R285); those whose line is still cached on the die; and pages marked since the fetch of a
  MIG_HARVEST that has not run yet, which belong to its bitmap (R286) -/
  marks : List Nat
  cached : List Nat
  late : List Nat
  deriving DecidableEq, Repr, Inhabited

/-- A key of a steward tenant under rotation rules (R289): TY6C identifier, handle, initial uses, seals. -/
structure StewardKey where
  tenant : Nat
  ident : Nat
  handle : Nat
  initial : Nat
  seals : Nat
  deriving DecidableEq, Repr

/-- State of tenant control. -/
structure TenState where
  ctl : List (Nat × TenantCtl)
  steward : List StewardKey
  /-- keys replaced by a rotation and not yet zeroized: tenant and handle (R34) -/
  retired : List (Nat × Nat)
  /-- counts of evaluations in a row: handshake-heavy, lane-heavy, neither (R289), and the time of the last change -/
  evalHs : Nat
  evalLane : Nat
  evalNone : Nat
  lastOpChange : Nat
  /-- lane cycles used in the last epoch, in percent of the capacity (R289) -/
  laneUse : Nat
  /-- capacities of the running epoch: lanes, Constantan, lattice, in cycles (R276) -/
  capacity : List Nat
  /-- by block, the function served last from its budget: the rotation goes on behind it (R276) -/
  turn : List Nat
  deriving DecidableEq, Repr

/-! ## The Tin image (spec/11) -/

/-- A section of a configuration: TYPE, INSTANCE and body (R293, R294). -/
structure Section where
  type : Nat
  inst : Nat
  body : Bytes
  deriving DecidableEq, Repr

/-- A full image as the die holds it in a bank (R307): its serial, its sections in catalogue order, and the image
bytes with its signature area. -/
structure TinImage where
  serial : Nat
  sections : List Section
  bytes : Bytes
  deriving DecidableEq, Repr

/-- A Tin operation that runs (R303 to R308): its request, 0 for a domain activation; its opcode; whether it stands in the checks of the
other dies or in their commits; the positions that have still to answer; the image, or the SERIAL of an activation; and the first refusal
answered. -/
structure TinOp where
  rid : Nat
  op : Nat
  committing : Bool
  wait : List Nat
  image : Bytes
  refusal : Option (Nat × Nat)
  deriving DecidableEq, Repr

/-- State of the Tin loader. -/
structure TinState where
  /-- the current bank in NVM: base image and accepted deltas; none before an image was committed -/
  base : Option TinImage
  deltas : List TinImage
  staged : Option TinImage
  /-- the running configuration: the sections in force (R302), in catalogue order; empty under the default -/
  running : List Section
  /-- a delta committed and not yet applied: it applies at the next epoch boundary (R308) -/
  atEpoch : List Section
  /-- security version of the running firmware (R304 check 7) -/
  fwSvn : Nat
  /-- the operation that runs on the lead die (R303) -/
  op : Option TinOp
  deriving DecidableEq, Repr

/-! ## Ensemble and domain (spec/12) -/

/-- The state of one ring link, A or B (R313 to R315). Whether it is up lies in ENS_LINKS. -/
structure RingLink where
  epoch : Nat
  /-- messages since the last rekey -/
  messages : Nat
  /-- FLIT_SEQ sent and expected -/
  txSeq : Nat
  rxSeq : Nat
  /-- flits retransmitted -/
  replays : Nat
  /-- heartbeats missed in a row from the neighbour on this link (R327) -/
  missed : Nat
  deriving DecidableEq, Repr, Inhabited

/-- A pending admission (R335): the joiner's identity, the slot, the join keys (P-384 point and ML-KEM-1024 key), and the
sealed ROOT envelope with its time when the split has made it. -/
structure Admission where
  identity : Bytes
  slot : Nat
  request : Bytes
  root : Option Bytes
  rootMs : Nat
  deriving DecidableEq, Repr

/-- An armed activation (R339). -/
structure Armed where
  serial : Nat
  digest : Bytes
  epoch : Nat
  actTime : Nat
  windowS : Nat
  /-- nowMs of the last attempt that came to nothing, none before the first -/
  tried : Option Nat
  deriving DecidableEq, Repr

/-- A request or message held for a position (R328). -/
structure Held where
  pos : Nat
  rid : Nat
  deriving DecidableEq, Repr

/-- What the lead die knows of one member of the domain (R337, R340). -/
structure Member where
  lastSeq : Nat
  /-- nowMs of the last accepted tuple, and whether it is present -/
  lastMs : Nat
  present : Bool
  /-- the four compared fields of its last tuple -/
  tuple : Bytes
  mismatch : Bool
  mismatchSince : Nat
  /-- the mismatch bit was set while an activation window was open -/
  inWindow : Bool
  quarantined : Bool
  deriving DecidableEq, Repr, Inhabited

/-- State of the ring links, the ensemble and the domain. -/
structure EnsState where
  /-- strap ENS_LEAD; the strap ENS_POS lies in ENS_STATUS.POSITION -/
  leadStrap : Bool
  linkA : RingLink
  linkB : RingLink
  /-- dies found along ring A and along ring B, nearest first (R317) -/
  found : List FoundDie
  foundBack : List FoundDie
  /-- identity digests recorded at the founding, by position, in NVM (R318) -/
  founded : List Bytes
  /-- next message number (R314) -/
  nextMsg : Nat
  /-- requests forwarded and awaiting completion: message number, request, the die they went to (R328) -/
  awaiting : List (Nat × Nat × Nat)
  /-- forwarded work done here that waits for its flush read (R57): request, completion body -/
  flushing : List (Nat × Bytes)
  held : List Held
  /-- positions that no die serves just now: declared failed, served by a die declared failed, or being handed back (R328, R329) -/
  declared : List Nat
  /-- positions whose host link is down, as the lead die has been told, and since when (R327) -/
  hostDown : List (Nat × Nat)
  /-- the adopted position that this die gives back once its aliases are quiesced (R329) -/
  giving : Option Nat
  /-- reports of missed heartbeats received on the lead: position, reporting link or neighbour (R327) -/
  reports : List (Nat × Nat)
  /-- domain membership in NVM: DOMAIN_TAG, slot -/
  domainTag : Bytes
  slot : Nat
  dxk : Option Bytes
  dtk : Option Bytes
  members : List (Nat × Member)
  joinSerial : Option Bytes
  admission : Option Admission
  armed : Option Armed
  /-- standby functions of this die that act for a tenant: function, tenant (R326) -/
  aliases : List (Nat × Nat)
  /-- end of the activation window that the last activation opened, in domain time (R340) -/
  windowEnd : Nat
  /-- TEN_GEN and VGEN of every tenant of the ensemble, keyed by tenant number; an unlisted one is 0 (R225, R237) -/
  gens : List (Nat × Nat)
  vgens : List (Nat × Nat)
  deriving DecidableEq, Repr

/-! ## Control cores, worlds and MPUs (spec/13) -/

/-- The worlds of R342. -/
inductive World where
  | secure | hypervisor | guest
  deriving DecidableEq, Repr

/-- A frame of a gate stack (R350). -/
structure Frame where
  world : World
  guest : Nat
  ret : Nat
  saved : List Nat
  deriving DecidableEq, Repr

/-- The architectural state of a control core as far as GATE uses it (R342, R348, R350). -/
structure Core where
  world : World
  guest : Nat
  pc : Nat
  /-- g0 to g23 -/
  g : List Nat
  /-- the gate stack, top first, at most 8 frames -/
  stack : List Frame
  deriving DecidableEq, Repr

/-- A shadow region of an MPU (R357). -/
structure Region where
  base : Nat
  sizeLog2 : Nat
  enable : Bool
  r : Bool
  w : Bool
  x : Bool
  deriving DecidableEq, Repr

/-- State of the control cores, the page owner table and the MPUs. -/
structure WldState where
  cores : List Core
  /-- page contents that are not zero, keyed by page × 4096 + offset, as bytes (control-core memory) -/
  pages : List (Nat × Byte)
  /-- second-stage translations that the hypervisor has built: guest × 2^36 + page as the guest names it, and page (R347) -/
  stage2 : List (Nat × Nat)
  /-- where the secure world has pointed window pages: page, register page or not, and host bus address or register page (R344) -/
  windows : List (Nat × (Bool × Nat))
  /-- loads from windows onto nothing the model holds, which number their free values (the model's own field, log 185) -/
  loads : Nat
  /-- shadow region sets, keyed by MPU × 16 + region -/
  shadow : List (Nat × Region)
  /-- region sets that passed a commit whose effect waits for earlier bursts (R358), by MPU -/
  commits : List (Nat × List Region)
  /-- deferred gating requests by block: true to gate (R353) -/
  deferred : List (Nat × Bool)
  /-- control cores gated while they wait for an interrupt (R402) -/
  gated : List Nat
  deriving DecidableEq, Repr

/-! ## Fondant and the backup domain (spec/14) -/

/-- A built-in test in progress (R388): the source, the kind its stimulus shows, and whether the monitor has seen it. -/
structure Bist where
  source : Nat
  kind : Nat
  detected : Bool
  deriving DecidableEq, Repr

/-- The parts of the backup domain that no register shows (R384 to R386). The log lies in TMP_BLOG_WORD. -/
structure Backup where
  /-- the backup domain has taken over pin monitoring -/
  active : Bool
  /-- enables of sources 0x01 to 0x07 as the last map copied them, bit s − 1 for source s -/
  enables : Nat
  /-- SEQ of the next log entry -/
  seq : Nat
  /-- a sample that found an alarm class and waits for its repeat: source and kind -/
  resample : Option (Nat × Nat)
  /-- CLK_NOFRO (R392) -/
  nofro : Bool
  /-- VBAT is above retention -/
  vbatGood : Bool
  deriving DecidableEq, Repr

/-- State of the monitors and the tamper responses. Conditions and alarms lie in TMP_COND and TMP_ALARM. -/
structure TmpState where
  /-- OUT_ACK was written since the last alarm with OUT set (R370) -/
  outAck : Bool
  /-- TAMPER_OUT_N is held by unacknowledged backup log entries (R387) -/
  outLog : Bool
  /-- RELEASE was written, with no Halt condition present, since the last Halt-ranked alarm (R377) -/
  released : Bool
  /-- the Halt conditions have been absent for 1 ms (R377) -/
  quiet : Bool
  /-- when a condition ranked Throttle or above last went away, or an alarm of that rank fired, in ms (R376) -/
  throttleMs : Nat
  /-- the same for the ranks from Halt on (R377) -/
  haltMs : Nat
  /-- rank of the clearing that runs: 3 or 4, 0 for none (R376, R378) -/
  clearing : Nat
  /-- Zeroize-all lockdown (R378) -/
  lockdown : Bool
  /-- draw numbers of the two scramble keys, 0 when zeroized (R376) -/
  scrambleSession : Nat
  scrambleRoot : Nat
  /-- draw number of the mesh seeds, 0 for the four fixed seeds (R368) -/
  meshSeed : Nat
  bist : Option Bist
  /-- what the last temperature sample showed: above the high limit, below the low limit, 2 °C inside the high limit,
  2 °C inside the low limit (R371) -/
  overHigh : Bool
  underLow : Bool
  inHigh : Bool
  inLow : Bool
  /-- the warnings in force: VDD_CORE, VDD_AUX (R373) -/
  brownCore : Bool
  brownAux : Bool
  backup : Backup
  deriving DecidableEq, Repr

/-! ## Clocks, power and resets (spec/15) -/

/-- Where the clock bring-up stands (R391 to R397). -/
inductive ClkPhase where
  /-- the FRO start check runs (steps 1 and 2) -/
  | froCheck
  /-- the REFCLK settle delay runs (step 4) -/
  | settle
  /-- the 100 ms wait before another settle delay (R394) -/
  | retryWait
  /-- the monitor is armed and the clocks run from the PLL (step 6) -/
  | armed
  /-- running on the FRO after a trip (R396) -/
  | failedOver
  /-- stopped for want of a clock: CLK_NOFRO latched (R392) or both oscillators failed (R397) -/
  | stopped
  deriving DecidableEq, Repr

/-- State of clocks, power control and resets. -/
structure ClkState where
  phase : ClkPhase
  /-- failed FRO checks of this cold reset -/
  froTries : Nat
  /-- clocks stable (R391 step 3): noise sampling and the boot ROM may run -/
  stable : Bool
  /-- the FRO has failed (R397) -/
  froDead : Bool
  /-- held in reset until the supply recovers (R374) -/
  supplyHold : Bool
  /-- the boot ROM has finished and the physical function is ready (R44) -/
  booted : Bool
  /-- nowMs when it finished (R317) -/
  bootMs : Nat
  /-- the reset in progress: 0 none, 2 warm, 3 ensemble, 4 cold; the boot ROM ends it -/
  resetClass : Nat
  /-- power estimates of the running millisecond in mW, their sum and count (R407) -/
  powerSum : Nat
  powerCount : Nat
  /-- the cap applied at the last epoch boundary, in 0.1 W (R37, R406) -/
  capInForce : Nat
  /-- the hotter sensor's term of R406 as of the last temperature sample, in 0.1 W -/
  thermalCap : Nat
  /-- the issue rates that the governor leaves the lanes, Constantan and the lattice cores, in 1/256 of the full rate (R35) -/
  rates : List Nat
  /-- blocks gated because idle (R402) -/
  idle : List Nat
  deriving DecidableEq, Repr

/-! ## Life cycle and debug (spec/16) -/

/-- An entry of the OTP journal (R421). -/
structure JournalEntry where
  target : Nat
  /-- marks written, bit i for step i -/
  marks : Nat
  deriving DecidableEq, Repr

/-- The one-time programmable memory. Only the boot ROM writes it, and it only sets bits (R417). -/
structure Otp where
  /-- the three copies of the codeword (R416) -/
  code0 : Nat
  code1 : Nat
  code2 : Nat
  /-- the 256-bit seed, none before Provisioning (R222, R422) -/
  seed : Option Bytes
  /-- token hashes 0 to 7, empty before they are programmed (R418) -/
  tokens : List Bytes
  journal : List JournalEntry
  /-- DIE_SERIAL (R429) -/
  serial : Nat
  /-- CLK_SETTLE (R393) -/
  settle : Nat
  deriving DecidableEq, Repr

/-- State of the life cycle and debug blocks. -/
structure LcsState where
  /-- PUF helper data and check value are enrolled in NVM (R222) -/
  puf : Bool
  /-- the pending request in NVM, empty for none (R420) -/
  pending : Bytes
  /-- the outstanding debug challenge, empty for none (R426) -/
  challenge : Bytes
  /-- when it was drawn, on the model's clock -/
  challengeMs : Nat
  /-- reads by the debug master, which number the free bytes of contexts at work (the model's own field, log 50) -/
  reads : Nat
  /-- a FIELD authorisation holds (R427) -/
  auth : Bool
  /-- normal-world cores the debugger has halted (R424) -/
  halted : List Nat
  /-- the answer of the mailbox: status code and reply detail (R429) -/
  mailbox : Option (Nat × Nat)
  deriving DecidableEq, Repr

/-! ## Recorder and counters (spec/17) -/

/-- A staged record (R436). The bytes hold everything but SEQ and VALID. -/
structure Staged where
  place : Nat
  trigger : Nat
  record : Bytes
  deriving DecidableEq, Repr

/-- State of the event recorder and the counter reader. -/
structure EvrState where
  staging : List Staged
  /-- reports coalesced per trigger, keyed by its code (R436) -/
  supp : List (Nat × Nat)
  /-- record slots of the NVM ring that were written, keyed by slot -/
  ring : List (Nat × Bytes)
  /-- the staged entry whose write is in progress, and the steps of it that are done, 1 or 2 (R434) -/
  writing : Option (Staged × Nat)
  /-- a slot whose write was cut short (R434) -/
  torn : Option Nat
  /-- a freeze is in force (R438) -/
  frozen : Bool
  /-- when the freeze began, in ms -/
  freezeMs : Nat
  /-- milliseconds since the last 0.1 h of OP_HOURS was written (R435) -/
  hoursMs : Nat
  /-- selected counters, keyed by selection (R443) -/
  counts : List (Nat × Nat)
  /-- port byte counts, keyed by port 0 to 7 (R444) -/
  ports : List (Nat × Nat)
  windowSeq : Nat
  /-- samples dropped since the previous sample written -/
  droppedNow : Nat
  /-- samples written since the last message (R445) -/
  sinceMsg : Nat
  /-- selections were replaced at the running window's start, or wait to be (R447) -/
  changed : Bool
  /-- WINDOW_US in force for the running window -/
  windowUs : Nat
  /-- selections of an applied delta that the next boundary takes over -/
  nextSel : Option (List Nat)
  deriving DecidableEq, Repr

/-! ## The whole die -/

/-- Everything a die holds but its OTP: registers, block state and NVM. -/
structure Die where
  /-- the register file: fields that differ from their reset value, keyed by `fldKey`, keys rising -/
  regs : List (Nat × Nat)
  /-- writes to host memory the running command has issued, oldest first; empty between commands -/
  posted : List (Nat × Bytes)
  /-- what has left the die other than by DMA, newest first -/
  out : List Output
  /-- milliseconds of CLK_SLOW since cold reset (the model's own) -/
  nowMs : Nat
  que : QueState
  rcp : RecState
  kft : KftState
  mlf : MlfState
  con : ConState
  ntt : NttState
  key : KeyState
  rng : RngState
  ten : TenState
  tin : TinState
  ens : EnsState
  wld : WldState
  tmp : TmpState
  clk : ClkState
  lcs : LcsState
  evr : EvrState
  deriving DecidableEq, Repr

/-- The state of the machine: the waiting commands, the OTP, host memory as the die reaches it over its link, and the
die. -/
structure State where
  /-- commands waiting, first in, first out -/
  pending : List Instr
  otp : Otp
  /-- bytes of host memory that are not zero, addresses rising -/
  mem : List Host.Cell
  die : Die
  deriving DecidableEq, Repr

/-! ## Stops -/

/-- Why the block stops with a fault. No command of the table is left without an effect by the manual, so there is
no fault: the type is empty, and safe. -/
inductive Fault where
  deriving DecidableEq, Repr

/-- Why a command is refused. -/
inductive Refusal where
  /-- raised by the dispatch arms of commands whose meaning is not written; safe -/
  | notModelled (mnemonic : String)
  deriving DecidableEq, Repr

/-! ## The machine right after reset -/

def QueState.reset : QueState :=
  { reqs := [], waiters := [], nextRid := 1, pairs := [], ntfs := [], msix := [], vfEnable := false, heldHigh := [], aer := [],
    aerMask := [], aerFatal := [.malformedTlp, .flowControl, .surpriseDown], lastRate := 0, trainRetry := false, crs := true }

def RecState.reset : RecState :=
  { laneMism := [], hashMism := [], jobs := [], streams := [], hashes := [], suspended := [], tokenGen := 0 }

def KftState.reset : KftState :=
  { sessions := [], nextUid := 1, metas := [], lookups := [], locks := [], lockWait := [], ilWait := [],
    moves := [], relocDue := [], batches := [], batchNo := [], sweepPos := 0, passStart := 0, passLate := false, sweepRetry := none, removing := [] }

def MirrorArea.empty : MirrorArea := { nonce := 0, blocks := [], pendings := [] }

def MlfState.reset : MlfState :=
  { nonce := 0, tree := [], cached := [], upper := [], dirty := [], writes := [], backs := [], nextWid := 1, unacked := [], reseals := [],
    poison := [], reformat := none, mirror := .empty, mirrorToo := .empty, adopted := .empty, foreign := [], taken := [],
    alarmDue := none, bumpWait := [] }

def ConState.reset : ConState := { jobs := [], mism := [], curves := [], mem := [] }

def NttState.reset : NttState :=
  { jobs := [], mism := [], ctxs := [], ctxKeyGen := 0, nextCtx := 0, mem := [] }

def KeyState.reset : KeyState :=
  { drk := none, bbk := none, nk := none, esk := none, share := none, nextShare := none, bank := [], nextBank := [],
    pendBank := [], pendNext := [], measLocked := false,
    objs := [], custodians := [], threshold := 0, ownerEc := [], ownerMldsa := [], ceremony := none, dealing := none,
    pendingMeas := [], statements := 0, policyState := [] }

def RngState.reset : RngState :=
  { draws := 0, drbgBytes := 0, feBytes := 0, insts := [], turn := 0, waits := [],
    units := [], startupDone := false, rawReads := 0, instantiations := 0, readyMs := 0 }

def TenState.reset : TenState :=
  { ctl := [], steward := [], retired := [], evalHs := 0, evalLane := 0, evalNone := 0, lastOpChange := 0, laneUse := 0, capacity := [], turn := [] }

def TinState.reset : TinState :=
  { base := none, deltas := [], staged := none, running := [], atEpoch := [], fwSvn := 0, op := none }

/-- The straps give position 0 and the lead (DESIGN CHOICE, log 5). -/
def EnsState.reset : EnsState :=
  { leadStrap := true, linkA := default, linkB := default, found := [], foundBack := [], founded := [], nextMsg := 0, awaiting := [],
    flushing := [], held := [], declared := [], hostDown := [], giving := none, reports := [], domainTag := [], slot := 0,
    dxk := none, dtk := none, members := [], joinSerial := none, admission := none, armed := none, aliases := [],
    windowEnd := 0, gens := [], vgens := [] }

/-- A control core after reset: in the secure world (WLD_STATUS), its registers 0 (DESIGN CHOICE, log 6). -/
def Core.reset : Core := { world := .secure, guest := 0, pc := 0, g := List.replicate 24 0, stack := [] }

def WldState.reset : WldState :=
  { cores := List.replicate 4 Core.reset, pages := [], stage2 := [], windows := [], loads := 0, shadow := [], commits := [],
    deferred := [], gated := [] }

def Backup.reset : Backup :=
  { active := false, enables := 0, seq := 0, resample := none, nofro := false, vbatGood := true }

def TmpState.reset : TmpState :=
  { outAck := false, outLog := false, released := false, quiet := true, throttleMs := 0, haltMs := 0, clearing := 0, lockdown := false,
    scrambleSession := 0, scrambleRoot := 0, meshSeed := 0, bist := none, overHigh := false, underLow := false,
    inHigh := false, inLow := false, brownCore := false,
    brownAux := false, backup := .reset }

def ClkState.reset : ClkState :=
  { phase := .froCheck, froTries := 0, stable := false, froDead := false, supplyHold := false, booted := false, bootMs := 0,
    resetClass := 4, powerSum := 0, powerCount := 0, capInForce := 180, thermalCap := 180,
    rates := [256, 256, 256], idle := [] }

/-- A blank die: no codeword bit, seed, token or journal entry is written (DESIGN CHOICE, log 5). -/
def Otp.reset : Otp :=
  { code0 := 0, code1 := 0, code2 := 0, seed := none, tokens := [], journal := [], serial := 0, settle := 0 }

def LcsState.reset : LcsState :=
  { puf := false, pending := [], challenge := [], challengeMs := 0, reads := 0, auth := false, halted := [], mailbox := none }

def EvrState.reset : EvrState :=
  { staging := [], supp := [], ring := [], writing := none, torn := none, frozen := false, freezeMs := 0, hoursMs := 0, counts := [], ports := [], windowSeq := 0,
    droppedNow := 0, sinceMsg := 0, changed := false, windowUs := 1, nextSel := none }

/-- Key of a field in the register file: field, first index, second index. -/
def fldKey (f : Fld) (i j : Nat) : Nat := 65536 * (65536 * f.num + i % 65536) + j % 65536

/-- The die right after a power-on cold reset: every register field at its reset value, RST_CAUSE.POWER_ON set
(R414), and the first FRO start check running (R391). -/
def Die.reset : Die :=
  { regs := [(fldKey .RST_CAUSE_POWER_ON 0 0, 1)], posted := [], out := [], nowMs := 0, que := .reset,
    rcp := .reset, kft := .reset, mlf := .reset, con := .reset, ntt := .reset, key := .reset, rng := .reset,
    ten := .reset, tin := .reset, ens := .reset, wld := .reset, tmp := .reset, clk := .reset, lcs := .reset,
    evr := .reset }

/-- The machine right after reset: nothing commanded, nothing in host memory. -/
def State.reset : State := { pending := [], otp := .reset, mem := [], die := .reset }

end Sys2Proof.Machine
end

