-- ==== Sys2Proof/Machine/Ops.lean ====
section
/-! DEFINITION. The named operations over the register file, host memory and the die's outputs, and the frame in which
a command's meaning runs. -/
namespace Sys2Proof.Machine

/-- The outcome of a command. -/
abbrev Out := Host.Outcome State Fault Refusal

/-! ## Host memory -/

/-- A byte of host memory; a byte nothing has written reads 0 (DESIGN CHOICE, log 3). -/
def memRead (m : List Host.Cell) (a : Nat) : Byte := sget (fun _ => 0) m a

/-- `n` bytes of host memory from `a` on. -/
def memReads (m : List Host.Cell) (a n : Nat) : Bytes := (List.range n).map fun k => memRead m (a + k)

/-- Writes one byte of host memory, keeping the canonical form. -/
def memWrite (m : List Host.Cell) (a : Nat) (b : Byte) : List Host.Cell := sput (fun _ => 0) m a b

/-- Writes a byte string to host memory. -/
def memWrites (m : List Host.Cell) : Nat → Bytes → List Host.Cell
  | _, [] => m
  | a, b :: r => memWrites (memWrite m a b) (a + 1) r

/-- Host memory after posted writes, in the order in which they were issued (R42). -/
def memPost (m : List Host.Cell) (ws : List (Nat × Bytes)) : List Host.Cell :=
  ws.foldl (fun m w => memWrites m w.1 w.2) m

/-- The canonical form of host memory: addresses rising, no byte listed that reads 0 anyway. -/
def memWf (m : List Host.Cell) : Bool := swf (fun _ => 0) m

/-! ## What a command reads -/

/-- What a command reads beside the die: the OTP, and host memory as the command finds it. -/
structure Env where
  otp : Otp
  mem : List Host.Cell

/-! ## Registers -/

/-- Element (i, j) of a field. -/
def Die.getAt2 (d : Die) (f : Fld) (i j : Nat) : Nat := sget (fun _ => f.info.rst) d.regs (fldKey f i j)
/-- Element i of a field: of a tenant-page register, that of function i. -/
def Die.getAt (d : Die) (f : Fld) (i : Nat) : Nat := d.getAt2 f i 0
/-- A field. -/
def Die.get (d : Die) (f : Fld) : Nat := d.getAt2 f 0 0

/-- Sets element (i, j) of a field to the low bits of `v` that it holds. -/
def Die.setAt2 (d : Die) (f : Fld) (i j v : Nat) : Die :=
  { d with regs := sput (fun _ => f.info.rst) d.regs (fldKey f i j) (v % 2 ^ f.width) }
def Die.setAt (d : Die) (f : Fld) (i v : Nat) : Die := d.setAt2 f i 0 v
def Die.set (d : Die) (f : Fld) (v : Nat) : Die := d.setAt2 f 0 0 v

/-- A field as a condition. -/
def Die.has (d : Die) (f : Fld) : Bool := d.get f != 0
def Die.hasAt (d : Die) (f : Fld) (i : Nat) : Bool := d.getAt f i != 0
def Die.hasAt2 (d : Die) (f : Fld) (i j : Nat) : Bool := d.getAt2 f i j != 0

/-- Adds to a counter that saturates. -/
def Die.addAt2 (d : Die) (f : Fld) (i j n : Nat) : Die := d.setAt2 f i j (satAdd f.width (d.getAt2 f i j) n)
def Die.addAt (d : Die) (f : Fld) (i n : Nat) : Die := d.addAt2 f i 0 n
def Die.add (d : Die) (f : Fld) (n : Nat) : Die := d.addAt2 f 0 0 n

/-- Adds to a counter that wraps. -/
def Die.wrapAt2 (d : Die) (f : Fld) (i j n : Nat) : Die := d.setAt2 f i j (d.getAt2 f i j + n)
def Die.wrap (d : Die) (f : Fld) (n : Nat) : Die := d.wrapAt2 f 0 0 n

/-- Takes from a count, not below 0. -/
def Die.subAt (d : Die) (f : Fld) (i n : Nat) : Die := d.setAt f i (d.getAt f i - n)
def Die.sub (d : Die) (f : Fld) (n : Nat) : Die := d.set f (d.get f - n)

/-- The field that a register-file number names. -/
def fldOfNum (n : Nat) : Fld := allFlds.getD n .HLK_STATUS_REPAIRED_TX

/-- What an unlisted key of the register file reads as. -/
def regDefault (k : Nat) : Nat := (fldOfNum (k / 65536 / 65536)).info.rst

/-- The canonical form of the register file. -/
def regsWf (r : List (Nat × Nat)) : Bool := swf regDefault r

/-- Removes from the register file every entry whose field satisfies `p`: those fields read their reset value. -/
def Die.resetFlds (d : Die) (p : Fld → Nat → Bool) : Die :=
  { d with regs := d.regs.filter fun kv => !p (fldOfNum (kv.1 / 65536 / 65536)) (kv.1 / 65536 % 65536) }

/-! ## Who and where the die is -/

/-- The die's position (R317). -/
def Die.pos (d : Die) : Nat := d.get .ENS_STATUS_POSITION

/-- The tenant number of function `fn` of this die (R6, R45). -/
def Die.tenantOf (d : Die) (fn : Nat) : Nat := d.pos * 256 + fn

/-- The die performs lead duties: by its strap before the ensemble size is known, then as ENS_STATUS.ACTING_LEAD
names it (R18, R322, R456). -/
def Die.isLead (d : Die) : Bool :=
  if d.get .ENS_STATUS_SIZE == 0 then d.ens.leadStrap else d.get .ENS_STATUS_ACTING_LEAD == d.pos

/-- The ensemble size, 1 before the first ensemble start. -/
def Die.size (d : Die) : Nat := max 1 (d.get .ENS_STATUS_SIZE)

/-- The tenant that submits on function `fn`: its own, or the one it stands by for (R326). -/
def Die.tenantFor (d : Die) (fn : Nat) : Nat :=
  match d.ens.aliases.find? fun a => a.1 == fn with
  | some a => a.2
  | none => d.tenantOf fn

/-- The function of this die on which a tenant works, if it has one here. -/
def Die.fnOf? (d : Die) (tenant : Nat) : Option Nat :=
  match d.ens.aliases.find? fun a => a.2 == tenant with
  | some a => some a.1
  | none => if tenant / 256 == d.pos then some (tenant % 256) else none

/-- The position that serves position `p` (R324). -/
def Die.serverOf (d : Die) (p : Nat) : Nat := bits (d.get .ENS_SERVE_SERVER) (4 * p + 2) (4 * p)

/-- The functions of the die. -/
def allFns : List Nat := List.range 256

/-- The ring pairs of a function. -/
def allPairs : List Nat := List.range 16

/-- The secure watchdog counts: the boot ROM has armed it, and it pauses while all four cores are clock-gated (R352) (log 204). -/
def Die.wdogRuns (d : Die) : Bool :=
  d.clk.stable && !d.tmp.lockdown && d.clk.phase != .stopped && d.wld.gated.length != 4

/-! ## DMA -/

/-- A read or write window: base, log2 of the size, read, write. -/
structure Window where
  base : Nat
  sizeLog2 : Nat
  read : Bool
  write : Bool
  deriving DecidableEq, Repr

/-- Region `r` of the active set of MPU `m` (R357). -/
def Die.activeRegion (d : Die) (m r : Nat) : Region :=
  { base := d.getAt2 .MPU_RGN_BASE_BASE m r * 4096, sizeLog2 := d.getAt2 .MPU_RGN_ATTR_SIZE_LOG2 m r,
    enable := d.hasAt2 .MPU_RGN_ATTR_ENABLE m r, r := d.hasAt2 .MPU_RGN_ATTR_R m r,
    w := d.hasAt2 .MPU_RGN_ATTR_W m r, x := d.hasAt2 .MPU_RGN_ATTR_X m r }

/-- The regions that an access of this moment is checked under: the active set, or the set of a commit that drains, since such an access
waits for it (R358). -/
def Die.checkedRegions (d : Die) (m : Nat) : List Region :=
  match d.wld.commits.find? fun x => x.1 == m with
  | some (_, rs) => rs
  | none => (List.range 16).map (d.activeRegion m)

/-- The enabled regions of MPU `m` (R355). -/
def Die.mpuRegions (d : Die) (m : Nat) : List Window :=
  ((d.checkedRegions m).filter Region.enable).map fun x => { base := x.base, sizeLog2 := x.sizeLog2, read := x.r, write := x.w }

/-- The first address in [a, e) that no region permits, none when every byte is permitted. A region is at least a page
and aligned, so a burst lies inside at most one (R355). -/
def firstRefused (ws : List Window) (write : Bool) (e : Nat) : Nat → Nat → Option Nat
  | 0, a => if a < e then some a else none
  | fuel + 1, a =>
    if a < e then
      match ws.find? fun w => decide (w.base ≤ a) && decide (a < w.base + 2 ^ w.sizeLog2) &&
          (if write then w.write else w.read) with
      | some w => firstRefused ws write e fuel (w.base + 2 ^ w.sizeLog2)
      | none => some a
    else none

/-- A section of the running configuration (R302). -/
def Die.section? (d : Die) (type inst : Nat) : Option Section :=
  d.tin.running.find? fun s => s.type == type && s.inst == inst

/-- The DMA regions of a tenant section (R298). -/
def Section.regions (s : Section) : List Window :=
  (List.range (leAt s.body 31 1)).map fun r =>
    { base := leAt s.body (32 + 16 * r) 8, sizeLog2 := leAt s.body (40 + 16 * r) 1,
      read := bit (leAt s.body (41 + 16 * r) 1) 0, write := bit (leAt s.body (41 + 16 * r) 1) 1 }

/-- The DMA rules of an ensemble tenant: the MPU of its function on its own die; on another die, which works for it
on a forwarded record, the regions of its tenant section (R23, R298). -/
def Die.tenantWindows (d : Die) (tenant : Nat) : List Window :=
  if tenant / 256 = d.pos then d.mpuRegions (tenant % 256)
  else match d.section? 4 tenant with
    | some s => s.regions
    | none => []

/-- The first address of a range that the tenant's DMA rules refuse. -/
def Die.refusedAt (d : Die) (tenant addr len : Nat) (write : Bool) : Option Nat :=
  firstRefused (d.tenantWindows tenant) write (addr + len) 17 addr

/-- The whole range is permitted. -/
def Die.dmaOk (d : Die) (tenant addr len : Nat) (write : Bool) : Bool := (d.refusedAt tenant addr len write).isNone

/-- Reads host memory: the writes the command has posted go first (R57). -/
def dmaRead (e : Env) (d : Die) (addr len : Nat) : Bytes := memReads (memPost e.mem d.posted) addr len

/-- Posts a write to host memory. -/
def Die.dmaWrite (d : Die) (addr : Nat) (b : Bytes) : Die :=
  if b.isEmpty then d else { d with posted := d.posted ++ [(addr, b)] }

/-! ## Messages and outputs -/

/-- Something leaves the die. -/
def Die.emit (d : Die) (o : Output) : Die := { d with out := o :: d.out }

/-- The random bytes of a draw. -/
def randomBytes (draw n : Nat) : Bytes := (List.range n).map fun k => Config.randomByte (draw + k)

/-- Takes `n` random bytes. -/
def Die.draw (d : Die) (n : Nat) : Die := { d with rng := { d.rng with draws := d.rng.draws + n } }

/-! ## Lists of records -/

/-- The list with the records that satisfy `p` replaced. -/
def updateWhere {α : Type} (p : α → Bool) (f : α → α) (l : List α) : List α := l.map fun x => if p x then f x else x

/-- Changes the sessions that satisfy `p`. -/
def Die.mapSessions (d : Die) (p : Session → Bool) (f : Session → Session) : Die :=
  { d with kft := { d.kft with sessions := updateWhere p f d.kft.sessions } }

/-- Changes the key objects that satisfy `p`. -/
def Die.mapObjs (d : Die) (p : KeyObj → Bool) (f : KeyObj → KeyObj) : Die :=
  { d with key := { d.key with objs := updateWhere p f d.key.objs } }

/-- The request named `rid`, as long as it is in flight. -/
def Die.req? (d : Die) (rid : Nat) : Option Req := d.que.reqs.find? fun r => r.rid == rid

/-- Changes the request named `rid`. -/
def Die.updReq (d : Die) (rid : Nat) (f : Req → Req) : Die :=
  { d with que := { d.que with reqs := updateWhere (fun r => r.rid == rid) f d.que.reqs } }

/-- Moves a request to a stage. -/
def Die.setStage (d : Die) (rid : Nat) (st : Stage) : Die := d.updReq rid fun r => { r with stage := st }

/-- Removes a request. -/
def Die.dropReq (d : Die) (rid : Nat) : Die :=
  { d with que := { d.que with reqs := d.que.reqs.filter fun r => r.rid != rid } }

/-- The moving parts of a ring pair. -/
def Die.pairState (d : Die) (fn pair : Nat) : PairState := tget d.que.pairs (fn * 16 + pair)
def Die.setPair (d : Die) (fn pair : Nat) (p : PairState) : Die :=
  { d with que := { d.que with pairs := tput d.que.pairs (fn * 16 + pair) p } }

/-- The moving parts of a notification ring. -/
def Die.ntfState (d : Die) (fn : Nat) : NtfState := tget d.que.ntfs fn
def Die.setNtf (d : Die) (fn : Nat) (n : NtfState) : Die := { d with que := { d.que with ntfs := tput d.que.ntfs fn n } }

/-- What the block holds of a function beside its registers. -/
def Die.ctl (d : Die) (fn : Nat) : TenantCtl := tget d.ten.ctl fn
def Die.setCtl (d : Die) (fn : Nat) (c : TenantCtl) : Die := { d with ten := { d.ten with ctl := tput d.ten.ctl fn c } }
def Die.updCtl (d : Die) (fn : Nat) (f : TenantCtl → TenantCtl) : Die := d.setCtl fn (f (d.ctl fn))

/-! ## Counters (R441, R442, R448) -/

/-- Events marked T carry a tenant. -/
def eventHasTenant (block event : Nat) : Bool :=
  match block with
  | 2 => decide (1 ≤ event ∧ event ≤ 3) || event == 0x10
  | 3 => decide (1 ≤ event ∧ event ≤ 5)
  | 4 => event == 1
  | 5 => decide (1 ≤ event ∧ event ≤ 4) || event == 0x10
  | 7 | 8 => event == 1 || event == 2 || event == 0x10
  | 9 => event == 1
  | _ => false

/-- Selection k of the reader counts this event in edge mode. -/
def Die.selCounts (d : Die) (k block event tenant : Nat) : Bool :=
  let w := d.getAt .PMC_SEL_SELECTION k
  let mode := bits w 23 16
  bits w 7 0 == block && bits w 15 8 == event && !bit mode 0 &&
    (!bit mode 1 || (eventHasTenant block event && bits w 47 32 == tenant))

/-- Counts `n` occurrences (or bytes) of an event, for tenant `tenant` where the event carries one. -/
def Die.count (d : Die) (block event tenant n : Nat) : Die :=
  let d1 :=
    if d.has .PMC_CTL_ENABLE then
      (List.range 52).foldl (fun d k =>
        if d.selCounts k block event tenant
        then { d with evr := { d.evr with counts := tput d.evr.counts k (tget d.evr.counts k + n) } } else d) d
    else d
  if eventHasTenant block event && tenant / 256 == d.pos then
    (List.range 8).foldl (fun d k =>
      let fn := tenant % 256
      if d.hasAt2 .PMC_TEN_SEL_ENABLE fn k && !d.hasAt2 .PMC_TEN_SEL_LEVEL fn k &&
         d.getAt2 .PMC_TEN_SEL_BLOCK fn k == block && d.getAt2 .PMC_TEN_SEL_EVENT fn k == event
      then d.wrapAt2 .PMC_TEN_CNT_COUNT fn k n else d) d1
  else d1

/-- Counts bytes at port `p` of R444 (0 host in, 1 host out, 2 to 5 the rings, 6 store read, 7 store write) and in the
selections that name its event (R441). Store bytes are part of the host link's. -/
def Die.port (d : Die) (p n : Nat) : Die :=
  if d.has .PMC_CTL_ENABLE && n != 0 then
    let b := if p < 2 then 1 else if p < 6 then 0xA else 6
    let ev := if p < 2 then p + 1 else if p < 6 then p - 1 else p - 5
    { d with evr := { d.evr with ports := tput d.evr.ports p (tget d.evr.ports p + n) } }.count b ev 0 n
  else d

/-! ## Ring messages (R80, R314 to R316) -/

/-- Flits of a ring message of `n` bytes and its 16-byte tag (R314). -/
def flitsOf (n : Nat) : Nat := ceilDiv (n + 16) 240

/-- Links up: A, B. -/
def Die.upA (d : Die) : Bool := d.has .ENS_LINKS_UP_A
def Die.upB (d : Die) : Bool := d.has .ENS_LINKS_UP_B

/-- Ring A is the shorter direction to position `q`, or as short as ring B (R80). -/
def Die.byA (d : Die) (q : Nat) : Bool :=
  let a := (q + d.size - d.pos) % d.size
  decide (a ≤ d.size - a)

/-- A message of `n` bytes leaves on a link (`b` for ring B): its message counter, its flit numbers, the bytes out. -/
def Die.onLink (d : Die) (b : Bool) (n : Nat) : Die :=
  let up (l : RingLink) : RingLink := { l with messages := l.messages + 1, txSeq := (l.txSeq + flitsOf n) % 2 ^ 64 }
  (if b then { d with ens := { d.ens with linkB := up d.ens.linkB } } else { d with ens := { d.ens with linkA := up d.ens.linkA } }).port
    (if b then 5 else 3) (256 * flitsOf n)

/-- The links that a message takes: the shorter direction, the other one where that link is down, both for a broadcast
(R316); none when both are down. -/
def Die.linksFor (d : Die) (dest : Option Nat) : List Bool :=
  let up := (if d.upA then [false] else []) ++ (if d.upB then [true] else [])
  match dest with
  | none => up
  | some q => if up.length == 2 then [!d.byA q] else up

/-- A ring message (R314): to one position, or to every die. Each takes the next message number; with no ring link up
nothing leaves (log 33). -/
def Die.sendRing (d : Die) (kind : RingKind) (dest : Option Nat) (body : Bytes) : Die :=
  let links := d.linksFor dest
  let d1 := { d with ens := { d.ens with nextMsg := (d.ens.nextMsg + 1) % 65536 } }
  if links.isEmpty then d1 else links.foldl (fun d b => d.onLink b body.length) (d1.emit (.ring { kind, dest, links, body }))

/-- A message to the neighbour on one ring link, `b` for ring B, if that link is up (log 103). -/
def Die.sendLink (d : Die) (b : Bool) (kind : RingKind) (body : Bytes) : Die :=
  if (if b then d.upB else d.upA) then
    let d1 := { d.emit (.ring { kind, dest := none, links := [b], body }) with ens := { d.ens with nextMsg := (d.ens.nextMsg + 1) % 65536 } }
    d1.onLink b body.length
  else d

/-- A message of `n` bytes from position `src` has arrived: over ring B's module when it came along ring A. -/
def Die.ringIn (d : Die) (src n : Nat) : Die :=
  let a := (d.pos + d.size - src) % d.size
  d.port (if decide (a ≤ d.size - a) then 4 else 2) (256 * flitsOf n)

/-! ## The frame of a command -/

/-- The end of a command: its posted writes have left over the host link, and are counted there. -/
def Die.settle (d : Die) : Die := { d.port 1 ((d.posted.map fun w => w.2.length).sum) with posted := [] }

end Sys2Proof.Machine
end

