-- ==== Sys2Proof/Machine/Cache.lean ====
section
/-! DEFINITION. The replacement rule of the session cache and the key cache (R122, R240): sets of 16 ways with 2-bit
re-reference values. -/
namespace Sys2Proof.Machine

/-- What a cache set holds of one session or key: its identity, its ways, its re-reference value and its pin. -/
structure CacheEntry where
  id : Nat
  ways : List Nat
  rrpv : Nat
  pinned : Bool
  deriving DecidableEq, Repr

/-- Ways of a set that hold nothing. -/
def freeWays (es : List CacheEntry) : List Nat := (List.range 16).filter fun w => !es.any fun x => x.ways.contains w

/-- Evicts one unpinned entry: the values of all unpinned entries are raised until one is 3, and of those with 3 the one
in the lowest ways goes. None when every entry is pinned. -/
def evictOne (es : List CacheEntry) : Option (List CacheEntry) :=
  let un := es.filter fun x => !x.pinned
  if un.isEmpty then none
  else
    let m := un.foldl (fun a x => max a x.rrpv) 0
    let raised := es.map fun x => if x.pinned then x else { x with rrpv := x.rrpv + (3 - m) }
    let low (x : CacheEntry) : Nat := x.ways.foldl min 16
    match (List.range 16).find? fun w => raised.any fun x => !x.pinned && x.rrpv == 3 && low x == w with
    | some w => some (raised.filter fun x => x.pinned || x.rrpv != 3 || low x != w)
    | none => none

/-- Evicts until `need` ways are free; none when pins prevent it. -/
def makeRoom (need : Nat) : Nat → List CacheEntry → Option (List CacheEntry)
  | 0, es => if need ≤ (freeWays es).length then some es else none
  | n + 1, es =>
    if need ≤ (freeWays es).length then some es
    else match evictOne es with
      | some es' => makeRoom need n es'
      | none => none

end Sys2Proof.Machine
end

