-- ==== Sys2Proof/Machine/Crypto.lean ====
section
/-! DEFINITION. Published cryptographic functions as the manual uses them, over the opaque functions of Config (log 8):
hashes, HMAC, the SP 800-108 KDF (R224), AEADs, and the keys derived from the ensemble store key. -/
namespace Sys2Proof.Machine

/-- The bytes of an ASCII label. -/
def ascii (s : String) : Bytes := s.toList.map fun c => BitVec.ofNat 8 c.toNat

/-- Digest length of a hash by its ALG code (R101), 0 for the XOFs. -/
def hashLen : Nat → Nat
  | 1 => 32 | 2 => 48 | 3 => 64 | 4 => 32 | 5 => 48 | 6 => 64 | _ => 0

/-- `n` bytes of a hash or XOF. -/
def hashBytes (alg n : Nat) (msg : Bytes) : Bytes := (List.range n).map (Config.hashByte alg msg)

def sha384 (msg : Bytes) : Bytes := hashBytes 2 48 msg
def sha256 (msg : Bytes) : Bytes := hashBytes 1 32 msg
def sha3 (msg : Bytes) : Bytes := hashBytes 4 32 msg

/-- HMAC with the hash of an ALG code, whole. -/
def hmac (alg : Nat) (key msg : Bytes) : Bytes := (List.range (hashLen alg)).map (Config.hmacByte alg key msg)

/-- The KDF of R224: counter mode with HMAC-SHA-384, `n` bytes of output. -/
def kdf (key label context : Bytes) (n : Nat) : Bytes :=
  ((List.range (ceilDiv n 48)).flatMap fun i =>
    hmac 2 key (beBytes 4 (i + 1) ++ label ++ [0] ++ context ++ beBytes 4 (8 * n))).take n

/-- The algorithm number by which a tag is taken: the tag of AES-CCM depends on its length. -/
def tagAlg (alg tagLen : Nat) : Nat := if alg = 2 then 256 * tagLen + alg else alg

/-- Encrypts or decrypts under an AEAD (ALG of R102: 1 AES-GCM, 2 AES-CCM, 3 ChaCha20-Poly1305). -/
def aeadText (alg : Nat) (key nonce text : Bytes) : Bytes :=
  xorBytes text ((List.range text.length).map (Config.keystreamByte alg key nonce))

/-- The tag of an AEAD over the associated data and the ciphertext. -/
def aeadTag (alg tagLen : Nat) (key nonce aad ct : Bytes) : Bytes :=
  (List.range tagLen).map (Config.tagByte (tagAlg alg tagLen) key nonce aad ct)

/-- AES-256-GCM of the die's own blobs: ciphertext followed by a 16-byte tag. -/
def gcmSeal (key nonce aad text : Bytes) : Bytes :=
  let ct := aeadText 1 key nonce text
  ct ++ aeadTag 1 16 key nonce aad ct

/-- Opens such a blob, none when the tag fails. -/
def gcmOpen (key nonce aad blob : Bytes) : Option Bytes :=
  let ct := blob.take (blob.length - 16)
  if 16 ≤ blob.length ∧ blob.drop ct.length = aeadTag 1 16 key nonce aad ct then some (aeadText 1 key nonce ct) else none

/-- The ensemble store key; the empty string while the die does not hold it. -/
def Die.eskBytes (d : Die) : Bytes := d.key.esk.getD []

/-- The slice nonce of a position's slice: the own one, or that of the adopted slice. -/
def Die.sliceNonce (d : Die) (home : Nat) : Nat := if home = d.pos then d.mlf.nonce else d.mlf.adopted.nonce

/-- The slice key and the tree key of a position's slice (R224). -/
def Die.sliceKey (d : Die) (home : Nat) : Bytes :=
  kdf d.eskBytes (ascii "SLICE") (leBytes 1 home ++ leBytes 8 (d.sliceNonce home)) 32
def Die.treeKey (d : Die) (home : Nat) : Bytes :=
  kdf d.eskBytes (ascii "TREE") (leBytes 1 home ++ leBytes 8 (d.sliceNonce home)) 32

/-- K1 and K2 of a position (R116, R224). -/
def Die.k1 (d : Die) (home : Nat) : Bytes := kdf d.eskBytes (ascii "BUCKET1") (leBytes 1 home) 16
def Die.k2 (d : Die) (home : Nat) : Bytes := kdf d.eskBytes (ascii "BUCKET2") (leBytes 1 home) 16

/-- SipHash-2-4 as a 64-bit number. -/
def sipHash (key msg : Bytes) : Nat := Config.sipHash key msg % 2 ^ 64

/-- The generation of a tenant (R225) as this die knows it. -/
def Die.tenGen (d : Die) (tenant : Nat) : Nat := tget d.ens.gens tenant

/-- The tenant master key, the archive key and the ticket key of a tenant (R224). -/
def Die.tmk (d : Die) (tenant : Nat) : Bytes :=
  kdf d.eskBytes (ascii "TMK") (leBytes 2 tenant ++ leBytes 4 (d.tenGen tenant)) 32
def Die.archiveKey (d : Die) (tenant : Nat) : Bytes :=
  kdf d.eskBytes (ascii "ARCHIVE") (leBytes 2 tenant ++ leBytes 4 (d.tenGen tenant)) 32
def Die.ticketKey (d : Die) (tenant : Nat) : Bytes :=
  kdf (d.tmk tenant) (ascii "TICKET") (leBytes 4 (d.get .NTT_TICKET_EPOCH_EPOCH)) 32

/-- The NVM integrity key (R224). -/
def Die.nvmKey (d : Die) : Bytes := kdf (d.key.drk.getD []) (ascii "NVM-MAC") [] 32

/-- The ensemble identity (R318). -/
def Die.ensembleIdentity (d : Die) : Bytes :=
  sha384 (ascii "TY8K40-ENS" ++ d.ens.founded.flatMap fun x => x)

end Sys2Proof.Machine
end

