-- ==== Sys2Proof/Machine/Arith.lean ====
section
/-! DEFINITION. Number theory of the Constantan engine (spec/06): modular powers, inverses and roots, short Weierstrass
curves, Miller-Rabin rounds, and the RSA encodings of PKCS #1. -/
namespace Sys2Proof.Machine

/-! ## Modular arithmetic -/

/-- Square and multiply over the bits of the exponent, lowest first. -/
def powLoop (m : Nat) : Nat → Nat → Nat → Nat → Nat
  | 0, _, _, acc => acc
  | f + 1, b, e, acc => powLoop m f (b * b % m) (e / 2) (if e % 2 = 1 then acc * b % m else acc)

/-- b^e mod m. -/
def modPow (b e m : Nat) : Nat := powLoop m (e.log2 + 1) (b % m) e (1 % m)

/-- The extended Euclidean algorithm on (r0, r1), with the coefficients of the second. -/
def egcd : Nat → Nat → Nat → Int → Int → Nat × Int
  | 0, r0, _, t0, _ => (r0, t0)
  | f + 1, r0, r1, t0, t1 => if r1 = 0 then (r0, t0) else egcd f r1 (r0 % r1) t1 (t0 - (r0 / r1 : Nat) * t1)

/-- The inverse of `a` modulo `m`, if there is one. -/
def modInv (a m : Nat) : Option Nat :=
  let r := egcd (2 * m.log2 + 4) m (a % m) 0 1
  if r.1 = 1 then some (r.2 % (m : Int)).toNat else none

/-- The inverse, 0 where there is none. -/
def inv0 (a m : Nat) : Nat := (modInv a m).getD 0

/-- (a − b) mod m for reduced a and b. -/
def modSub (a b m : Nat) : Nat := (a + m - b % m) % m

/-- Splits powers of two from a number: the odd part and the exponent. -/
def oddPart : Nat → Nat → Nat → Nat × Nat
  | 0, n, s => (n, s)
  | f + 1, n, s => if n % 2 = 0 ∧ n ≠ 0 then oddPart f (n / 2) (s + 1) else (n, s)

/-- Squares `x` up to `k` times looking for `goal`. -/
def squaresTo (m goal : Nat) : Nat → Nat → Bool
  | 0, x => x == goal
  | k + 1, x => x == goal || squaresTo m goal k (x * x % m)

/-- One Miller-Rabin round with base `b`: true when `n` passes. -/
def millerRabin (n b : Nat) : Bool :=
  let r := oddPart n.log2 (n - 1) 0
  let x := modPow b r.1 n
  x == 1 || squaresTo n (n - 1) (r.2 - 1) x

/-- Passes one round with each base. -/
def passesRounds (n : Nat) (bases : List Nat) : Bool :=
  n == 2 || n == 3 || (decide (3 < n) && n % 2 == 1 && bases.all fun b => millerRabin n (2 + b % (n - 3)))

/-- Tonelli-Shanks: the loop over (m, c, t, r). -/
def tonelliLoop (p : Nat) : Nat → Nat → Nat → Nat → Nat → Nat
  | 0, _, _, _, r => r
  | f + 1, m, c, t, r =>
    if t = 1 then r
    else
      let i := ((List.range m).find? fun k => modPow t (2 ^ k) p == 1).getD 0
      let b := modPow c (2 ^ (m - i - 1)) p
      tonelliLoop p f i (b * b % p) (t * (b * b % p) % p) (r * b % p)

/-- A square root of `n` modulo an odd prime `p`; not a root where there is none. -/
def sqrtMod (n p : Nat) : Nat :=
  let q := oddPart p.log2 (p - 1) 0
  let z := ((List.range 1024).find? fun k => modPow (k + 2) ((p - 1) / 2) p == p - 1).getD 0 + 2
  tonelliLoop p (q.2 + 1) q.2 (modPow z q.1 p) (modPow n q.1 p) (modPow n ((q.1 + 1) / 2) p)

/-! ## Short Weierstrass curves y² = x³ + ax + b -/

/-- A curve as an operation uses it. -/
structure CurveP where
  p : Nat
  a : Nat
  b : Nat
  gx : Nat
  gy : Nat
  n : Nat
  h : Nat
  pBits : Nat
  nBits : Nat
  deriving DecidableEq, Repr

/-- The nine numbers of a curve, as a job keeps them. -/
def CurveP.toList (c : CurveP) : List Nat := [c.p, c.a, c.b, c.gx, c.gy, c.n, c.h, c.pBits, c.nBits]

def CurveP.ofList (l : List Nat) : CurveP :=
  { p := l.getD 0 0, a := l.getD 1 0, b := l.getD 2 0, gx := l.getD 3 0, gy := l.getD 4 0, n := l.getD 5 0, h := l.getD 6 0,
    pBits := l.getD 7 0, nBits := l.getD 8 0 }

/-- Field and order lengths in bytes (R169). -/
def CurveP.lp (c : CurveP) : Nat := ceilDiv c.pBits 8
def CurveP.ln (c : CurveP) : Nat := ceilDiv c.nBits 8

/-- The point lies on the curve. -/
def CurveP.onCurve (c : CurveP) (x y : Nat) : Bool := y * y % c.p == (x * x * x + c.a * x + c.b) % c.p

/-- A point in affine coordinates; none is the point at infinity. -/
abbrev Point := Option (Nat × Nat)

/-- Sum of two points. -/
def CurveP.add (c : CurveP) : Point → Point → Point
  | none, q => q
  | q, none => q
  | some (x1, y1), some (x2, y2) =>
    if x1 = x2 ∧ (y1 + y2) % c.p = 0 then none
    else
      let l := if x1 = x2 then (3 * x1 * x1 + c.a) * inv0 (2 * y1) c.p % c.p
        else modSub y2 y1 c.p * inv0 (modSub x2 x1 c.p) c.p % c.p
      let x3 := modSub (modSub (l * l % c.p) x1 c.p) x2 c.p
      some (x3, modSub (l * modSub x1 x3 c.p % c.p) y1 c.p)

/-- Double and add over the bits of the scalar, lowest first. -/
def CurveP.mulLoop (c : CurveP) : Nat → Nat → Point → Point → Point
  | 0, _, _, acc => acc
  | f + 1, k, q, acc => c.mulLoop f (k / 2) (c.add q q) (if k % 2 = 1 then c.add acc q else acc)

/-- k × Q. -/
def CurveP.mul (c : CurveP) (k : Nat) (q : Point) : Point := c.mulLoop (k.log2 + 1) k q none

def CurveP.base (c : CurveP) : Point := some (c.gx, c.gy)

/-- The point of a SEC 1 compressed encoding; none when it does not decode to a point of the curve. -/
def CurveP.decompress (c : CurveP) (b : Bytes) : Option (Nat × Nat) :=
  let x := beNat (b.drop 1)
  let y0 := sqrtMod ((x * x * x + c.a * x + c.b) % c.p) c.p
  let y := if y0 % 2 = leAt b 0 1 % 2 then y0 else c.p - y0
  if (leAt b 0 1 == 2 || leAt b 0 1 == 3) && decide (x < c.p) && c.onCurve x y then some (x, y) else none

/-- The SEC 1 compressed encoding of a point. -/
def CurveP.compress (c : CurveP) (x y : Nat) : Bytes := leBytes 1 (2 + y % 2) ++ beBytes c.lp x

/-- A digest as an integer modulo n: its leftmost n bits (FIPS 186-5). -/
def CurveP.digest (c : CurveP) (dig : Bytes) : Nat := beNat dig / 2 ^ (8 * dig.length - c.nBits) % c.n

/-- An ECDSA verification of (r, s) over a digest under a public point. -/
def CurveP.ecdsaOk (c : CurveP) (q : Nat × Nat) (dig : Bytes) (r s : Nat) : Bool :=
  decide (0 < r ∧ r < c.n ∧ 0 < s ∧ s < c.n) &&
    (let w := inv0 s c.n
     match c.add (c.mul (c.digest dig * w % c.n) c.base) (c.mul (r * w % c.n) (some q)) with
     | some (x, _) => x % c.n == r
     | none => false)

/-- One attempt at an ECDSA signature with the k of RFC 6979 (R178); r or s may come out 0. -/
def CurveP.ecdsaTry (c : CurveP) (x : Nat) (dig extra : Bytes) (attempt : Nat) : Nat × Nat :=
  let k := 1 + Config.rfc6979 c.n x dig extra attempt % (c.n - 1)
  let r := match c.mul k c.base with | some (rx, _) => rx % c.n | none => 0
  (r, inv0 k c.n * (c.digest dig + r * x) % c.n)

/-! ## RSA (PKCS #1) -/

/-- ALG of R101 for the HASH code of RSA_PRIV (R170). -/
def rsaHash (code : Nat) : Nat := code + 1

/-- The DigestInfo prefix of a SHA-2 hash by its ALG of R101. -/
def digestInfo (alg : Nat) : Bytes :=
  ([0x30, 0x11 + hashLen alg, 0x30, 0x0d, 0x06, 0x09, 0x60, 0x86, 0x48, 0x01, 0x65, 0x03, 0x04, 0x02, alg, 0x05, 0x00,
    0x04, hashLen alg].map fun n => BitVec.ofNat 8 n)

/-- EMSA-PKCS1-v1_5 of a digest in `k` bytes. -/
def pkcs1Encode (alg k : Nat) (dig : Bytes) : Bytes :=
  let t := digestInfo alg ++ dig
  leBytes 2 0x0100 ++ List.replicate (k - t.length - 3) 0xFF ++ [0] ++ t

/-- MGF1: `n` bytes. -/
def mgf1 (alg : Nat) (seed : Bytes) (n : Nat) : Bytes :=
  ((List.range (ceilDiv n (hashLen alg))).flatMap fun i => hashBytes alg (hashLen alg) (seed ++ beBytes 4 i)).take n

/-- EMSA-PSS of a digest for a modulus of `bits_` bits, in ⌈(bits_ − 1) ÷ 8⌉ bytes. -/
def pssEncode (alg bits_ : Nat) (dig salt : Bytes) : Bytes :=
  let em := ceilDiv (bits_ - 1) 8
  let hl := hashLen alg
  let h := hashBytes alg hl (zeros 8 ++ dig ++ salt)
  let db := zeros (em - salt.length - hl - 2) ++ [1] ++ salt
  let masked := xorBytes db (mgf1 alg h (em - hl - 1))
  let top := leAt masked 0 1 % 2 ^ (8 - (8 * em - (bits_ - 1)))
  patch masked 0 (leBytes 1 top) ++ h ++ [0xBC]

/-- EME-OAEP decoding with an empty label; none when it fails. -/
def oaepDecode (alg k : Nat) (em : Bytes) : Option Bytes :=
  let hl := hashLen alg
  let maskedDb := slice em (1 + hl) (k - hl - 1)
  let seed := xorBytes (slice em 1 hl) (mgf1 alg maskedDb hl)
  let db := xorBytes maskedDb (mgf1 alg seed (k - hl - 1))
  let rest := (db.drop hl).dropWhile fun b => b == 0
  if leAt em 0 1 == 0 && db.take hl == hashBytes alg hl [] && leAt rest 0 1 == 1 && !rest.isEmpty then some (rest.drop 1) else none

/-- The components of an RSA private key (R236). -/
structure RsaKey where
  n : Nat
  e : Nat
  p : Nat
  q : Nat
  dp : Nat
  dq : Nat
  qinv : Nat
  deriving DecidableEq, Repr

/-- The components as the extension of a private key of `k` bytes holds them. -/
def RsaKey.parse (k : Nat) (b : Bytes) : RsaKey :=
  let l := ceilDiv k 2
  { n := beAt b 0 k, e := beAt b k 8, p := beAt b (k + 8) l, q := beAt b (k + 8 + l) l, dp := beAt b (k + 8 + 2 * l) l,
    dq := beAt b (k + 8 + 3 * l) l, qinv := beAt b (k + 8 + 4 * l) l }

/-- The private operation by the Chinese remainder theorem. -/
def RsaKey.priv (k : RsaKey) (c : Nat) : Nat :=
  let m1 := modPow c k.dp k.p
  let m2 := modPow c k.dq k.q
  m2 + k.qinv * modSub m1 m2 k.p % k.p * k.q

/-! ## Length classes and cycle counts (R166, R175 to R177) -/

/-- The classes of R166 by code. -/
def lengthClasses : List Nat := [256, 384, 512, 576, 640, 1024, 1536, 2048, 3072, 4096, 6144, 8192]

/-- The class of a modulus of `n` bits. -/
def classOf (n : Nat) : Nat := (lengthClasses.find? fun c => decide (n ≤ c)).getD 8192

def cycAdd (cls : Nat) : Nat := cls / 64 + 2
def cycMul (cls : Nat) : Nat := cls / 64 * ceilDiv (cls / 64) 2 + 6
def cycInv (cls : Nat) : Nat := 2 * cls * ceilDiv (cls / 64) 2 + 40
def cycExp (cls e : Nat) : Nat := (e + e / 4 + 16) * cycMul cls + 40

/-- The row of R176 for a curve: keygen and sign, and POINT_CHECK; ECDH takes twice and verification four times the first,
but for P-256, whose figures the table gives. -/
def curveRow (id pBits : Nat) : Nat × Nat × Nat × Nat :=
  match id with
  | 1 => (16667, 33333, 66667, 400)
  | 2 => (42900, 85800, 171600, 800)
  | 3 => (127500, 255000, 510000, 1600)
  | _ => match classOf pBits with
    | 256 => (18000, 36000, 72000, 450)
    | 384 => (46250, 92500, 185000, 900)
    | 512 => (97500, 195000, 390000, 1500)
    | 576 => (137500, 275000, 550000, 1800)
    | _ => (165000, 330000, 660000, 2000)

end Sys2Proof.Machine
end

