-- ==== Sys2Proof/Machine/Operands.lean ====
section
/-! DEFINITION. Request descriptors: the fields of R62, the checks of R63 and R64, and the fields of replies (R65). -/
namespace Sys2Proof.Machine

def Req.opcode (r : Req) : Nat := leAt r.desc 0 1
def Req.flags (r : Req) : Nat := leAt r.desc 1 1
def Req.fence (r : Req) : Bool := bit r.flags 0
def Req.irq (r : Req) : Bool := bit r.flags 1
def Req.allowRelane (r : Req) : Bool := bit r.flags 2
def Req.scrubOnFail (r : Req) : Bool := bit r.flags 3
def Req.tag (r : Req) : Bytes := slice r.desc 8 8
def Req.inAddr (r : Req) : Nat := leAt r.desc 16 8
def Req.inLen (r : Req) : Nat := leAt r.desc 24 8
def Req.outAddr (r : Req) : Nat := leAt r.desc 32 8
def Req.outLen (r : Req) : Nat := leAt r.desc 40 8
def Req.handle (r : Req) : Nat := leAt r.desc 48 8
/-- Byte `i` of the descriptor, from 56 on the operation-specific ARG. -/
def Req.byte (r : Req) (i : Nat) : Nat := leAt r.desc i 1

/-- The function of this die whose ring pair the request came from; requests that another die forwarded have none. -/
def Req.fn? (r : Req) : Option Nat := match r.origin with | .pair fn _ _ => some fn | .ring .. => none

/-- The ring pair of a request, 0xFF for a forwarded one. -/
def Req.pair (r : Req) : Nat := match r.origin with | .pair _ p _ => p | .ring .. => 0xFF

/-- Two requests of one ring pair. -/
def Req.samePair (a b : Req) : Bool :=
  match a.origin, b.origin with
  | .pair f p _, .pair g q _ => f == g && p == q
  | _, _ => false

/-- Reserved bytes and FLAGS bits are zero (R63). -/
def Req.headerOk (r : Req) : Bool := bits r.flags 7 4 == 0 && leAt r.desc 2 6 == 0

/-- Lengths of the common body are at most 2^32 (R63). -/
def Req.lengthsOk (r : Req) : Bool := decide (r.inLen ≤ 2 ^ 32) && decide (r.outLen ≤ 2 ^ 32)

/-- Bytes [a, b) of the descriptor are zero. -/
def Req.zeroBytes (r : Req) (a b : Nat) : Bool := leAt r.desc a (b - a) == 0

/-- A request is done: its reply is written or ready. -/
def Req.done (r : Req) : Bool := match r.stage with | .ready _ => true | _ => false

/-- The requests of the same pair that were fetched before `r`, oldest first. -/
def Die.earlier (d : Die) (r : Req) : List Req :=
  (d.que.reqs.takeWhile fun x => x.rid != r.rid).filter fun x => x.samePair r

/-- FENCE permits the request to start (R58). -/
def Die.startable (d : Die) (r : Req) : Bool := !r.fence || (d.earlier r).all fun x => x.done

/-- Opcodes of the record family (R13). -/
def isRecordOp (op : Nat) : Bool := op / 16 == 1

/-- A request of a steward-mode tenant that steward firmware has not translated yet (R288). -/
def Die.untranslated (d : Die) (r : Req) : Bool :=
  match r.fn? with
  | some fn => d.hasAt .TEN_STATE_STEWARD fn && r.orig.isEmpty
  | none => false

/-! ## Replies -/

/-- A reply with a status and a DETAIL word, nothing written. -/
def Reply.fail (st : Status) (detail : Nat) : Reply :=
  { status := st, flags := 0, length := 0, detail, session := 0, pos := 0 }

/-- A reply OK with a length written. -/
def Reply.done (length : Nat) : Reply :=
  { status := .ok, flags := 0, length, detail := 0, session := 0, pos := 0 }

/-- The 32 bytes of a reply (R65). -/
def replyBytes (r : Req) (idx : Nat) (rep : Reply) (phase : Bool) : Bytes :=
  leBytes 1 rep.status.code ++ leBytes 1 rep.flags ++ leBytes 1 r.opcode ++
    leBytes 1 (ofBool phase * 128 + rep.pos % 8) ++ leBytes 5 rep.length ++ [0] ++ leBytes 2 idx ++
    leBytes 4 rep.detail ++ r.tag ++ leBytes 8 rep.session

end Sys2Proof.Machine
end

