-- ==== Sys2Proof/Machine/Figures.lean ====
section
/-! DEFINITION. What the descriptor of a Constantan or lattice request says of its job: fields, curves, primitive programs, and the
fixed time of the job (R168 to R184, R194). -/
namespace Sys2Proof.Machine

/-! ## Descriptors (R168, R169) -/

def Req.keyHandle (r : Req) : Nat := leAt r.desc 48 2
def Req.destHandle (r : Req) : Nat := leAt r.desc 50 2
def Req.curve (r : Req) : Nat := r.byte 56
def Req.mode (r : Req) : Nat := r.byte 57
def Req.be (r : Req) : Bool := bit r.mode 7
def Req.usageByte (r : Req) : Nat := r.byte 58

/-- An integer of an operand block, and its encoding in a result (R169). -/
def intOf (be : Bool) (b : Bytes) : Nat := if be then beNat b else leNat b
def intBytes (be : Bool) (k n : Nat) : Bytes := if be then beBytes k n else leBytes k n

/-! ## Curves (R192 to R194) -/

/-- Bits of p and n of the built-in curves. -/
def builtinBits : Nat → Nat
  | 1 => 256 | 2 => 384 | 3 => 521 | 4 => 256 | 5 => 384 | 6 => 512 | _ => 0

def builtinCurve (id : Nat) : CurveP :=
  { p := Config.builtinCurve id 0, a := Config.builtinCurve id 1, b := Config.builtinCurve id 2, gx := Config.builtinCurve id 3,
    gy := Config.builtinCurve id 4, n := Config.builtinCurve id 5, h := 1, pBits := builtinBits id, nBits := builtinBits id }

/-- The Weierstrass curve a tenant names: built in, or one it has loaded. -/
def Die.curve? (d : Die) (tenant id : Nat) : Option CurveP :=
  if 1 ≤ id ∧ id ≤ 6 then some (builtinCurve id)
  else (d.con.curves.find? fun c => c.tenant == tenant && c.id == id).map fun c => CurveP.ofList c.params

/-- MODE bits [6:0] that an opcode defines. -/
def conModeMask (op : Nat) : Nat := match op with | 0x34 => 1 | 0x36 => 1 | 0x37 => 1 | 0x38 => 15 | _ => 0

/-- The opcode takes a curve identifier. -/
def conCurved (op : Nat) : Bool := decide (0x31 ≤ op ∧ op ≤ 0x37) || op == 0x3B || op == 0x3C

/-- Reserved fields, unused handles, MODE and USAGE (R63, R168). `key` and `dest` say which handles the operation uses. -/
def conHeaderOk (r : Req) (key dest : Bool) : Bool :=
  r.zeroBytes 52 56 && r.zeroBytes 59 64 && (key || r.keyHandle == 0) && (dest || (r.destHandle == 0 && r.usageByte == 0)) &&
    (r.mode % 128) &&& (127 - conModeMask r.opcode) == 0 && (conCurved r.opcode || r.opcode == 0x30 || r.curve == 0)

/-- A CURVE_UNLOAD that names a loaded curve. -/
def Req.unloads (x : Req) (tenant id : Nat) : Bool :=
  x.opcode == 0x3B && x.tenant == tenant && x.curve == id && decide (0x80 ≤ id) && x.headerOk && conHeaderOk x false false && x.inLen == 0

/-- The curve that a request names: one that a CURVE_UNLOAD fetched before it takes away is gone for it (R194). -/
def Die.curveFor (d : Die) (r : Req) : Option CurveP :=
  if d.que.reqs.any fun x => x.unloads r.tenant r.curve && decide (x.rid < r.rid) && !x.done then none else d.curve? r.tenant r.curve

/-! ## Primitive programs (R175, R180) -/

/-- A command of a primitive program. -/
structure PrimCmd where
  op : Nat
  dst : Nat
  a : Nat
  b : Nat
  m : Nat
  deriving DecidableEq, Repr

/-- A load entry. -/
structure PrimLoad where
  dst : Nat
  source : Nat
  comp : Nat
  deriving DecidableEq, Repr

/-- A program block. -/
structure PrimProg where
  expBits : Nat
  loads : List PrimLoad
  cmds : List PrimCmd
  stores : List (Nat × Bool)
  deriving DecidableEq, Repr

def primCmd (w : Bytes) : PrimCmd :=
  { op := leAt w 0 1, dst := leAt w 1 1 % 8, a := leAt w 2 1 % 8, b := bits (leAt w 2 1) 6 4, m := leAt w 3 1 % 8 }

def parsePrim (b : Bytes) : PrimProg :=
  { expBits := leAt b 4 2,
    loads := (List.range (leAt b 1 1)).map fun i =>
      { dst := leAt b (16 + 8 * i) 1, source := leAt b (17 + 8 * i) 1, comp := leAt b (18 + 8 * i) 1 },
    cmds := (List.range (leAt b 0 1)).map fun i => primCmd (slice b (80 + 4 * i) 4),
    stores := (List.range (leAt b 2 1)).map fun i => (leAt b (208 + i) 1 % 8, bit (leAt b (208 + i) 1) 7) }

/-- Cycles of a program (R175). -/
def PrimProg.cycles (p : PrimProg) (cls : Nat) : Nat :=
  300 + (p.cmds.map fun c => match c.op with
    | 1 => cycAdd cls | 2 => cycAdd cls | 3 => cycMul cls | 4 => cycInv cls | _ => cycExp cls p.expBits).sum

/-- The class of a primitive program, by its code. -/
def Req.primClass (r : Req) : Nat := lengthClasses.getD r.curve 256

/-! ## The fixed time of a job (R172, R175 to R178, R184) -/

/-- Input bytes that one compression or permutation takes (R100). -/
def hashBlock : Nat → Nat
  | 1 => 64 | 2 => 128 | 3 => 128 | 4 => 136 | 5 => 104 | 6 => 72 | 7 => 168 | _ => 136

/-- Compressions over a message of `n` bytes with the padding of its published definition. -/
def compressions (alg n : Nat) : Nat :=
  if alg = 1 then (n + 9 + 63) / 64 else if alg ≤ 3 then (n + 17 + 127) / 128 else n / hashBlock alg + 1

/-- Cycles of RSA_PUB for a modulus of `n` bits: E is 64, in the class of n (R177). -/
def rsaPubCycles (n : Nat) : Nat := 96 * cycMul (classOf n) + 200

/-- Cycles of RSA_PRIV by modulus bits (R177). -/
def rsaPrivCycles (n : Nat) : Nat :=
  if n ≤ 1024 then 70900 else if n ≤ 2048 then 500000 else if n ≤ 3072 then 1645600 else if n ≤ 4096 then 3865800
  else if n ≤ 6144 then 12963100 else 30657600

/-- Cycles of an operation on a Weierstrass curve, with the row of its curve; the check of n × Q on a curve with a cofactor is added
(R176). -/
def curveCycles (op id : Nat) (c : CurveP) : Nat :=
  let row := curveRow id c.pBits
  let extra := if 1 < c.h then row.2.1 else 0
  match op with
  | 0x31 => row.1 | 0x32 => row.2.1 + extra | 0x33 => row.1 | 0x34 => row.2.2.1 | _ => row.2.2.2 + extra

/-- Cycles of EDDSA_SIGN over a message of `n` bytes: the core waits for the second pass, over R ‖ A ‖ M (R176). -/
def eddsaSignCycles (n : Nat) : Nat := 15500 + 20 * compressions 3 (64 + n)

/-- Cycles of CURVE_LOAD for a class (R193). -/
def curveLoadCycles (cls : Nat) : Nat := 128 * cycExp cls cls + 2 * (curveRow 0x80 cls).2.1 + 5000

/-- The fixed time of a Constantan request in CLK_NUM cycles, by its descriptor, its key's size and, for CON_PRIM, its program; 0 where
they name none. -/
def Die.conCycles (e : Env) (d : Die) (r : Req) : Nat :=
  match r.opcode with
  | 0x30 => if d.dmaOk r.tenant r.inAddr 256 false then (parsePrim (dmaRead e d r.inAddr 256)).cycles r.primClass else 0
  | 0x35 => eddsaSignCycles r.inLen
  | 0x36 => 52000
  | 0x37 => if bit r.mode 0 then 15000 else 30000
  | 0x38 => rsaPrivCycles (((d.key.objs.find? fun o => o.tenant == r.tenant && o.handle == r.keyHandle).map fun o => o.len).getD 0)
  | 0x39 => rsaPubCycles (8 * ((r.inLen - 8) / 2))
  | 0x3A => curveLoadCycles (8 * ((r.inLen - 16) / 6))
  | op => ((d.curve? r.tenant r.curve).map (curveCycles op r.curve)).getD 0

/-- A job whose fixed time is above 200,000 cycles is long (R184). -/
def isLong (cycles : Nat) : Bool := decide (200000 < cycles)

/-! ## Requests that wait for dispatch (R186, R202) -/

/-- A request that gives Constantan a job, and one that gives the lattice cores a job. -/
def Req.isConJob (r : Req) : Bool := decide (0x30 ≤ r.opcode ∧ r.opcode ≤ 0x3A) || r.opcode == 0x3C
def Req.isNttJob (r : Req) : Bool := decide (0x40 ≤ r.opcode ∧ r.opcode ≤ 0x45)

/-- A request has been fetched, in its native form, and its command has not run. -/
def Die.unhandled (d : Die) (r : Req) : Bool := r.stage == .fetched && !d.untranslated r

/-- Constantan jobs, long or short, that wait for dispatch: from their fetch until they start on a core (R186). -/
def Die.conWaiting (e : Env) (d : Die) (long : Bool) : Nat :=
  (d.con.jobs.filter fun j => j.long == long && j.place == .waiting).length +
    (d.que.reqs.filter fun r => r.isConJob && d.unhandled r && isLong (d.conCycles e r) == long).length

/-- Lattice jobs that wait for dispatch (R202). -/
def Die.nttWaiting (d : Die) : Nat :=
  (d.ntt.jobs.filter fun j => j.place == .waiting).length + (d.que.reqs.filter fun r => r.isNttJob && d.unhandled r).length

end Sys2Proof.Machine
end

