-- ==== Sys2Proof/Machine/Flags.lean ====
section
/-! DEFINITION. Event flags, their enables and the vectors they signal (R67, R68): every event bit of every block. -/
namespace Sys2Proof.Machine

/-- The management vector of an event bit and its enable bit; HLK_EVENT has no enable register (R67). -/
def eventRoute : Fld → Option (Nat × Option Fld)
  | .HLK_EVENT_DOWN => some (18, none)
  | .HLK_EVENT_RETRAINED => some (18, none)
  | .HLK_EVENT_REPAIRED => some (18, none)
  | .HLK_EVENT_RATE_CHANGED => some (18, none)
  | .KFT_EVENT_SWEEP_LATE => some (26, (some .KFT_EVENT_EN_SWEEP_LATE))
  | .KFT_EVENT_LOCK_TIMEOUT => some (26, (some .KFT_EVENT_EN_LOCK_TIMEOUT))
  | .KFT_EVENT_TABLE_FULL => some (26, (some .KFT_EVENT_EN_TABLE_FULL))
  | .KFT_EVENT_QUOTA_WARN => some (26, (some .KFT_EVENT_EN_QUOTA_WARN))
  | .MLF_EVENT_EPOCH_BUMPED => some (27, (some .MLF_EVENT_EN_EPOCH_BUMPED))
  | .MLF_EVENT_RESEAL_STALL => some (27, (some .MLF_EVENT_EN_RESEAL_STALL))
  | .MLF_EVENT_ADOPTED => some (27, (some .MLF_EVENT_EN_ADOPTED))
  | .MLF_EVENT_MIRROR_LOST => some (27, (some .MLF_EVENT_EN_MIRROR_LOST))
  | .MLF_EVENT_POISON_FULL => some (27, (some .MLF_EVENT_EN_POISON_FULL))
  | .MLF_EVENT_INTEGRITY => some (27, (some .MLF_EVENT_EN_INTEGRITY))
  | .KEY_EVENT_MIGRATION_DONE => some (22, (some .KEY_EVENT_EN_MIGRATION_DONE))
  | .KEY_EVENT_SHARE_LOST => some (22, (some .KEY_EVENT_EN_SHARE_LOST))
  | .KEY_EVENT_TOKEN_REJECTED => some (22, (some .KEY_EVENT_EN_TOKEN_REJECTED))
  | .KEY_EVENT_CEREMONY_LAPSED => some (22, (some .KEY_EVENT_EN_CEREMONY_LAPSED))
  | .KEY_EVENT_CEREMONY_DONE => some (22, (some .KEY_EVENT_EN_CEREMONY_DONE))
  | .RNG_EVENT_FAULT => some (25, (some .RNG_EVENT_EN_FAULT))
  | .RNG_EVENT_RESTARTED => some (25, (some .RNG_EVENT_EN_RESTARTED))
  | .RNG_EVENT_HEALTH_FAIL => some (25, (some .RNG_EVENT_EN_HEALTH_FAIL))
  | .RNG_EVENT_READY => some (25, (some .RNG_EVENT_EN_READY))
  | .TEN_EVENT_ROTATION_FAIL => some (18, (some .TEN_EVENT_EN_ROTATION_FAIL))
  | .TEN_EVENT_STEWARD_OP => some (18, (some .TEN_EVENT_EN_STEWARD_OP))
  | .TEN_EVENT_REMOVE_DONE => some (18, (some .TEN_EVENT_EN_REMOVE_DONE))
  | .TEN_EVENT_FORCED => some (18, (some .TEN_EVENT_EN_FORCED))
  | .TEN_EVENT_QUIESCE_LATE => some (18, (some .TEN_EVENT_EN_QUIESCE_LATE))
  | .TEN_EVENT_QUIESCE_DONE => some (18, (some .TEN_EVENT_EN_QUIESCE_DONE))
  | .TIN_EVENT_DEFAULT_BOOT => some (21, (some .TIN_EVENT_EN_DEFAULT_BOOT))
  | .TIN_EVENT_REFUSED => some (21, (some .TIN_EVENT_EN_REFUSED))
  | .TIN_EVENT_DELTA_APPLIED => some (21, (some .TIN_EVENT_EN_DELTA_APPLIED))
  | .TIN_EVENT_ACTIVATED => some (21, (some .TIN_EVENT_EN_ACTIVATED))
  | .TIN_EVENT_STAGED => some (21, (some .TIN_EVENT_EN_STAGED))
  | .ENS_EVENT_ACTIVATION_MISSED => some (21, (some .ENS_EVENT_EN_ACTIVATION_MISSED))
  | .ENS_EVENT_ACTIVATED => some (21, (some .ENS_EVENT_EN_ACTIVATED))
  | .ENS_EVENT_ARMED => some (21, (some .ENS_EVENT_EN_ARMED))
  | .ENS_EVENT_QUARANTINE => some (21, (some .ENS_EVENT_EN_QUARANTINE))
  | .ENS_EVENT_MISMATCH => some (21, (some .ENS_EVENT_EN_MISMATCH))
  | .ENS_EVENT_STEER_REFUSED => some (21, (some .ENS_EVENT_EN_STEER_REFUSED))
  | .ENS_EVENT_HANDBACK_DONE => some (21, (some .ENS_EVENT_EN_HANDBACK_DONE))
  | .ENS_EVENT_LINK_DOWN => some (21, (some .ENS_EVENT_EN_LINK_DOWN))
  | .ENS_EVENT_DIE_FAILED => some (21, (some .ENS_EVENT_EN_DIE_FAILED))
  | .ENS_EVENT_CFG_FAULT => some (21, (some .ENS_EVENT_EN_CFG_FAULT))
  | .WLD_EVENT_POLICY_STEP_LIMIT => some (18, (some .WLD_EVENT_EN_POLICY_STEP_LIMIT))
  | .WLD_EVENT_DBG_VIOLATION => some (18, (some .WLD_EVENT_EN_DBG_VIOLATION))
  | .WLD_EVENT_MPU_COMMIT_REFUSED => some (18, (some .WLD_EVENT_EN_MPU_COMMIT_REFUSED))
  | .WLD_EVENT_MPU_FAULT => some (18, (some .WLD_EVENT_EN_MPU_FAULT))
  | .WLD_EVENT_GATE_IGNORED => some (18, (some .WLD_EVENT_EN_GATE_IGNORED))
  | .WLD_EVENT_GATE_DEFERRED => some (18, (some .WLD_EVENT_EN_GATE_DEFERRED))
  | .WLD_EVENT_POT_FAULT => some (18, (some .WLD_EVENT_EN_POT_FAULT))
  | .WLD_EVENT_GATE_FAULT => some (18, (some .WLD_EVENT_EN_GATE_FAULT))
  | .CLK_EVENT_REFCLK_RETRY => some (19, (some .CLK_EVENT_EN_REFCLK_RETRY))
  | .CLK_EVENT_FRO_FAIL => some (19, (some .CLK_EVENT_EN_FRO_FAIL))
  | .CLK_EVENT_FAILOVER => some (19, (some .CLK_EVENT_EN_FAILOVER))
  | .LCS_EVENT_DEBUG_AUTH => some (22, (some .LCS_EVENT_EN_DEBUG_AUTH))
  | .LCS_EVENT_REQUEST_DROPPED => some (22, (some .LCS_EVENT_EN_REQUEST_DROPPED))
  | .LCS_EVENT_ACCEPTED => some (22, (some .LCS_EVENT_EN_ACCEPTED))
  | .LCS_EVENT_TRANSITION_DONE => some (22, (some .LCS_EVENT_EN_TRANSITION_DONE))
  | .EVR_EVENT_FREEZE_TIMEOUT => some (23, (some .EVR_EVENT_EN_FREEZE_TIMEOUT))
  | .EVR_EVENT_LOST => some (23, (some .EVR_EVENT_EN_LOST))
  | .EVR_EVENT_RECORD => some (23, (some .EVR_EVENT_EN_RECORD))
  | .PMC_EVENT_OVERRUN => some (24, (some .PMC_EVENT_EN_OVERRUN))
  | _ => none

/-! ## MSI-X (R67, R68) -/

/-- Key of a vector of a function in the MSI-X tables. -/
def msixKey (fn vec : Nat) : Nat := fn * 32 + vec

/-- A vector no one has set up: masked, nothing pending (PRESUMED, log 7: the reset value PCIe gives). -/
def MsixVec.initial : MsixVec := { addr := 0, data := 0, masked := true, pending := false }

def Die.msixVec (d : Die) (fn vec : Nat) : MsixVec := sget (fun _ => MsixVec.initial) d.que.msix (msixKey fn vec)
def Die.setMsix (d : Die) (fn vec : Nat) (v : MsixVec) : Die :=
  { d with que := { d.que with msix := sput (fun _ => MsixVec.initial) d.que.msix (msixKey fn vec) v } }

/-- The die can send a message: the link is up and the physical function ready (R43, R396). -/
def Die.canSend (d : Die) : Bool := d.clk.booted && d.has .HLK_STATUS_LINK_UP

/-- Signals vector `vec` of function `fn`: a message, or its pending bit when it is masked or cannot be sent (R68). -/
def Die.signal (d : Die) (fn vec : Nat) : Die :=
  let v := d.msixVec fn vec
  if v.masked || !d.canSend then d.setMsix fn vec { v with pending := true }
  else (d.setMsix fn vec { v with pending := false }).emit (.msi fn vec v.addr v.data)

/-- Sends the pending messages of unmasked vectors of every function, as the link comes back (R396). -/
def Die.flushMsix (d : Die) : Die :=
  d.que.msix.foldl (fun d kv => if kv.2.pending && !kv.2.masked then d.signal (kv.1 / 32) (kv.1 % 32) else d) d

/-- Sets an event bit; the bit and its enable together signal the vector (R12, R67). -/
def Die.event (d : Die) (ev : Fld) : Die :=
  let d1 := d.set ev 1
  match eventRoute ev with
  | some (vec, none) => d1.signal 0 vec
  | some (vec, some en) => if d1.has en then d1.signal 0 vec else d1
  | none => d1

/-- The tenant's error vector (R52, R67). -/
def Die.errorVector (d : Die) (fn : Nat) : Die := d.signal fn 17

/-! ## Flags of a reply (R65, R66) -/

def flagUntrusted : Nat := 1
def flagRekeyDue : Nat := 2
def flagLearned : Nat := 4
def flagForwarded : Nat := 8
def flagRelaned : Nat := 16

/-- A set of reply flags. -/
def replyFlags (untrusted rekey learned forwarded relaned : Bool) : Nat :=
  ofBool untrusted * flagUntrusted + ofBool rekey * flagRekeyDue + ofBool learned * flagLearned +
    ofBool forwarded * flagForwarded + ofBool relaned * flagRelaned

end Sys2Proof.Machine
end

