-- ==== Sys2Proof/Machine/View.lean ====
section
/-! DEFINITION. What a read of a register returns: stored fields, fields that show other state, the tenant page rules
(R45, R46, R454, R455), 4- and 8-byte accesses (R47, R451) and the register snapshot of the recorder (R433). -/
namespace Sys2Proof.Machine

/-! ## Units: lanes, hash lanes, Constantan cores, lattice cores -/

/-- The four kinds of unit that can be quarantined and tested (R97, R100, R190, R202). -/
inductive UnitKind where
  | lane | hash | con | ntt
  deriving DecidableEq, Repr

def UnitKind.count : UnitKind → Nat
  | .lane => 8 | .hash => 4 | .con => 24 | .ntt => 4

def UnitKind.stateFld : UnitKind → Fld
  | .lane => .LANE_STATUS_STATE | .hash => .HASH_STATUS_STATE | .con => .CON_CORE_STATUS_STATE
  | .ntt => .NTT_CORE_STATUS_STATE

def UnitKind.katFld : UnitKind → Fld
  | .lane => .LANE_STATUS_KAT_FAIL | .hash => .HASH_STATUS_KAT_FAIL | .con => .CON_CORE_STATUS_KAT_FAIL
  | .ntt => .NTT_CORE_STATUS_KAT_FAIL

def UnitKind.mismFld : UnitKind → Fld
  | .lane => .LANE_MISMATCH_COUNT_COUNT | .hash => .HASH_MISMATCH_COUNT_COUNT
  | .con => .CON_CORE_MISMATCH_COUNT_COUNT | .ntt => .NTT_CORE_MISMATCH_COUNT_COUNT

def UnitKind.lastKindFld : UnitKind → Fld
  | .lane => .LANE_LAST_MISMATCH_KIND | .hash => .HASH_LAST_MISMATCH_KIND | .con => .CON_CORE_LAST_MISMATCH_KIND
  | .ntt => .NTT_CORE_LAST_MISMATCH_KIND

def UnitKind.lastTenFld : UnitKind → Fld
  | .lane => .LANE_LAST_MISMATCH_TENANT | .hash => .HASH_LAST_MISMATCH_TENANT
  | .con => .CON_CORE_LAST_MISMATCH_TENANT | .ntt => .NTT_CORE_LAST_MISMATCH_TENANT

/-- The times of the mismatches that count for unit `u`. -/
def Die.mismTimes (d : Die) : UnitKind → Nat → List Nat
  | .lane, u => tget d.rcp.laneMism u
  | .hash, u => tget d.rcp.hashMism u
  | .con, u => tget d.con.mism u
  | .ntt, u => tget d.ntt.mism u

def Die.setMismTimes (d : Die) (k : UnitKind) (u : Nat) (ts : List Nat) : Die :=
  match k with
  | .lane => { d with rcp := { d.rcp with laneMism := tput d.rcp.laneMism u ts } }
  | .hash => { d with rcp := { d.rcp with hashMism := tput d.rcp.hashMism u ts } }
  | .con => { d with con := { d.con with mism := tput d.con.mism u ts } }
  | .ntt => { d with ntt := { d.ntt with mism := tput d.ntt.mism u ts } }

/-- Mismatches of a unit within the current 1,000 ms window. -/
def Die.recent (d : Die) (k : UnitKind) (u : Nat) : Nat :=
  min 3 ((d.mismTimes k u).filter fun t => d.nowMs < t + 1000).length

/-- The blocks that Park powers off are off: STATE reads POWERED_OFF (R401, R403). -/
def Die.parked (d : Die) : Bool := d.get .PWR_STATUS_STATE == 3

/-- The STATE a unit shows: 0 IN_SERVICE, 1 QUARANTINED, 2 TESTING, 3 POWERED_OFF. Hash lanes stay on in Park. -/
def Die.unitState (d : Die) (k : UnitKind) (u : Nat) : Nat :=
  if d.parked && k != .hash then 3 else d.getAt k.stateFld u

/-- One bit for each unit that satisfies `p`. -/
def unitBits (n : Nat) (p : Nat → Bool) : Nat := ((List.range n).map fun u => ofBool (p u) * 2 ^ u).sum

/-- Bitwise majority of the three copies of the codeword (R416). -/
def Otp.voted (o : Otp) : Nat := ((o.code0 &&& o.code1) ||| (o.code0 &&& o.code2)) ||| (o.code1 &&& o.code2)

/-- TOGGLE bits set. -/
def toggleCount (v : Nat) : Nat := ((List.range 16).filter fun i => bit v (8 + i)).length

/-! ## Fields that show other state -/

def World.code : World → Nat
  | .secure => 0 | .hypervisor => 1 | .guest => 2

/-- Core `c` of the control cores. -/
def Die.core (d : Die) (c : Nat) : Core := d.wld.cores.getD c Core.reset

/-- WORLD of core `c`: a core that the debugger has halted shows HALTED (R366, R424). -/
def Die.worldShown (d : Die) (c : Nat) : Nat := if d.lcs.halted.contains c then 3 else (d.core c).world.code

/-- The word of QUE_PAGE and TEN_SHARE that TEN_PAGE_SHARE repeats. -/
def Die.shareWord (d : Die) (fn : Nat) : Nat :=
  2 ^ 24 * d.getAt .TEN_SHARE_LANE fn + 2 ^ 16 * d.getAt .TEN_SHARE_CON fn + 2 ^ 8 * d.getAt .TEN_SHARE_NTT fn +
    2 ^ 7 * d.getAt .TEN_SHARE_CAP fn + d.getAt .TEN_SHARE_PAIRS fn

/-- The place of a general or reserved entry of the staging FIFO. -/
def Die.placesUsed (d : Die) (reserved : Bool) : Nat :=
  (d.evr.staging.filter fun e => decide (28 ≤ e.place) == reserved).length

/-- The effective cap of R406 in 0.1 W: the cap in force, 8 W under Throttle, and the thermal term. -/
def Die.effectiveCap (d : Die) : Nat :=
  min (min d.clk.capInForce (if d.has .TMP_STATUS_THROTTLED then 80 else 180)) d.clk.thermalCap

/-- Slot writes in flight, of the 1,024 of R148. -/
def Die.writesInFlight (d : Die) : Nat := ((d.mlf.writes.filter fun w => w.stage != .parked).map fun w => w.parts.length).sum

/-- Handles of a tenant that hold objects, tombstones excluded (R112, R258). -/
def Die.keyUse (d : Die) (tenant : Nat) : Nat :=
  (d.key.objs.filter fun o => o.tenant == tenant && o.type != 0 && decide (o.type < 0xE0)).length

/-- The value a read of a field returns (R11): stored, or shown from other state. -/
def Die.view (e : Env) (d : Die) (f : Fld) (i j : Nat) : Nat :=
  match f with
  | .QUE_PAGE_ID_TENANT => d.tenantOf i
  | .KEY_TEN_GEN_GEN => tget d.ens.gens (d.tenantOf i)
  | .KEY_TEN_VGEN_GEN => tget d.ens.vgens (d.tenantOf i)
  | .LANE_STATUS_RECENT => d.recent .lane i
  | .LANE_STATUS_STATE => d.unitState .lane i
  | .HASH_STATUS_RECENT => d.recent .hash i
  | .HASH_STATUS_STATE => d.unitState .hash i
  | .CON_CORE_STATUS_RECENT => d.recent .con i
  | .CON_CORE_STATUS_STATE => d.unitState .con i
  | .CON_CORE_STATUS_TENANT =>
    ((d.con.jobs.find? fun x => x.place == .running i).map fun x => x.tenant).getD 0
  | .CON_CORE_STATUS_LONG => ofBool (d.con.jobs.any fun x => x.place == .running i && x.long)
  | .CON_CORE_STATUS_CONTEXTS_BUSY =>
    unitBits 4 fun k => d.con.jobs.any fun x => x.ctx == some (i, k)
  | .NTT_CORE_STATUS_RECENT => d.recent .ntt i
  | .NTT_CORE_STATUS_STATE => d.unitState .ntt i
  | .NTT_CORE_STATUS_TENANT =>
    ((d.ntt.jobs.find? fun x => x.place == .running i).map fun x => x.tenant).getD 0
  | .NTT_CORE_STATUS_SIGNING =>
    ofBool (d.ntt.jobs.any fun x => x.signing && (x.place == .running i || x.place == .displaced i))
  | .NTT_CORE_STATUS_CONTEXTS_BUSY =>
    unitBits 2 fun k => d.ntt.jobs.any fun x => x.ctx == some (i, k)
  | .REC_STATUS_LANES_IN_SERVICE => unitBits 8 fun u => d.unitState .lane u == 0
  | .REC_STATUS_LANES_QUARANTINED => unitBits 8 fun u => d.unitState .lane u == 1 || d.unitState .lane u == 2
  | .REC_STATUS_LANES_HELD => unitBits 8 fun u => d.hasAt .LANE_STATUS_HELD u
  | .CON_CORES_IN_SERVICE_CORES => unitBits 24 fun u => d.unitState .con u == 0
  | .CON_CORES_QUARANTINED_CORES => unitBits 24 fun u => d.unitState .con u == 1 || d.unitState .con u == 2
  | .CON_CORES_HELD_CORES => unitBits 24 fun u => d.hasAt .CON_CORE_STATUS_HELD u
  | .NTT_CORES_IN_SERVICE => unitBits 4 fun u => d.unitState .ntt u == 0
  | .NTT_CORES_QUARANTINED => unitBits 4 fun u => d.unitState .ntt u == 1 || d.unitState .ntt u == 2
  | .CON_QUEUE_STATUS_LONG_WAITING => d.conWaiting e true
  | .CON_QUEUE_STATUS_SHORT_WAITING => d.conWaiting e false
  | .NTT_QUEUE_STATUS_WAITING => d.nttWaiting
  | .CON_CURVES_USED_COUNT => d.con.curves.length
  | .CON_TEN_CURVES_COUNT => (d.con.curves.filter fun c => c.tenant == d.tenantOf i).length
  | .CON_TEN_CURVES_LOADED_MASK =>
    ((d.con.curves.filter fun c => c.tenant == d.tenantOf i).map fun c => 2 ^ (c.id - 0x80)).sum
  | .NTT_HS_STATUS_CTX_USED => d.ntt.ctxs.length
  | .KFT_TEN_LOCKS_HELD => (d.kft.locks.filter fun l => l.tenant == d.tenantOf i).length
  | .KFT_TEN_TOTAL_SLOTS => d.getAt .KFT_TEN_TOTAL_SLOTS i
  | .MLF_TREE_STATUS_RESEALS => d.mlf.reseals.length
  | .MLF_TREE_STATUS_DIRTY_L2 => d.mlf.dirty.length
  | .MLF_CACHE_STATUS_PENDING => d.writesInFlight
  | .MLF_ARCHIVE_CTL_BUMP => ofBool !d.mlf.bumpWait.isEmpty
  | .MLF_POISON_STATUS_COUNT => d.mlf.poison.length
  | .MLF_POISON_CTL_REFORMAT => ofBool d.mlf.reformat.isSome
  | .MLF_POISON_ENTRY_VALID => ofBool (d.mlf.poison.any fun p => p.1 == d.get .MLF_POISON_CTL_INDEX)
  | .MLF_POISON_ENTRY_LEVEL =>
    ((d.mlf.poison.find? fun p => p.1 == d.get .MLF_POISON_CTL_INDEX).map fun p => p.2.level).getD 0
  | .MLF_POISON_ENTRY_OFFSET =>
    ((d.mlf.poison.find? fun p => p.1 == d.get .MLF_POISON_CTL_INDEX).map fun p => p.2.offset).getD 0
  | .KEY_TEN_HANDLES_USED => d.keyUse (d.tenantOf i)
  | .KEY_CEREMONY_STATUS_M => d.key.threshold
  | .KEY_CACHE_STATUS_UNITS_USED => (d.key.objs.map fun o => o.ways.length).sum
  | .RNG_QUEUE_STATUS_DRBG_BYTES => d.rng.drbgBytes
  | .RNG_QUEUE_STATUS_FE_BYTES => d.rng.feBytes
  | .RNG_WAITING_COUNT => d.rng.waits.length
  | .TEN_PAGE_STATE_STATE => d.getAt .TEN_STATE_STATE i
  | .TEN_PAGE_SHARE_ALL => d.shareWord i
  | .TEN_PAGE_MODE_STEWARD => d.getAt .TEN_STATE_STEWARD i
  | .WLD_STATUS_WORLD0 => d.worldShown 0
  | .WLD_STATUS_WORLD1 => d.worldShown 1
  | .WLD_STATUS_WORLD2 => d.worldShown 2
  | .WLD_STATUS_WORLD3 => d.worldShown 3
  | .WLD_STATUS_GATE_DEPTH0 => (d.core 0).stack.length
  | .WLD_STATUS_GATE_DEPTH1 => (d.core 1).stack.length
  | .WLD_STATUS_GATE_DEPTH2 => (d.core 2).stack.length
  | .WLD_STATUS_GATE_DEPTH3 => (d.core 3).stack.length
  | .WLD_CORE_GUEST_TENANT0 => (d.core 0).guest
  | .WLD_CORE_GUEST_TENANT1 => (d.core 1).guest
  | .WLD_CORE_GUEST_TENANT2 => (d.core 2).guest
  | .WLD_CORE_GUEST_TENANT3 => (d.core 3).guest
  | .PWR_STATUS_STATE =>
    if d.get .PWR_STATUS_STATE == 0 && [0, 1, 2, 3, 4, 5].all d.clk.idle.contains then 1 else d.get .PWR_STATUS_STATE
  | .PWR_POWER_EFFECTIVE_CAP => if d.clk.booted then d.effectiveCap else 0
  | .PWR_STATUS_THERMAL => ofBool (decide (d.clk.thermalCap < 180) && d.effectiveCap == d.clk.thermalCap)
  | .PWR_STATUS_THROTTLE => d.get .TMP_STATUS_THROTTLED
  | .TMP_MESH_STATUS_MESH_A => if d.hasAt .TMP_MAP_ENABLED 1 then d.get .TMP_MESH_STATUS_MESH_A else 5
  | .TMP_MESH_STATUS_MESH_B => if d.hasAt .TMP_MAP_ENABLED 2 then d.get .TMP_MESH_STATUS_MESH_B else 5
  | .TMP_MESH_STATUS_MESH_C => if d.hasAt .TMP_MAP_ENABLED 3 then d.get .TMP_MESH_STATUS_MESH_C else 5
  | .TMP_MESH_STATUS_MESH_D => if d.hasAt .TMP_MAP_ENABLED 4 then d.get .TMP_MESH_STATUS_MESH_D else 5
  | .TMP_PIN_STATUS_LID => if d.hasAt .TMP_MAP_ENABLED 5 then d.get .TMP_PIN_STATUS_LID else 3
  | .TMP_PIN_STATUS_IN0 => if d.hasAt .TMP_MAP_ENABLED 6 then d.get .TMP_PIN_STATUS_IN0 else 3
  | .TMP_PIN_STATUS_IN1 => if d.hasAt .TMP_MAP_ENABLED 7 then d.get .TMP_PIN_STATUS_IN1 else 3
  | .TMP_BIST_CTL_START => 0
  | .TMP_STATUS_BIST_BUSY => ofBool d.tmp.bist.isSome
  | .LCS_STATE_TOGGLES => toggleCount e.otp.voted
  | .LCS_SERIAL_SERIAL => e.otp.serial
  | .LCS_JOURNAL_NEXT => e.otp.journal.length
  | .LCS_JOURNAL_LAST_MARKS => (e.otp.journal.getLast?.map fun x => x.marks).getD 0
  | .CLK_SETTLE_CODE_CODE => e.otp.settle
  | .DBG_CHALLENGE_NONCE => leAt d.lcs.challenge (8 * i) 8
  | .EVR_STATUS_GEN_USED => d.placesUsed false
  | .EVR_STATUS_RSV_USED => d.placesUsed true
  | .EVR_STATUS_FROZEN => ofBool d.evr.frozen
  | .EVR_STATUS_WRITING => ofBool d.evr.writing.isSome
  | .EVR_READ_DATA_WORD =>
    if i == 31 && d.evr.writing.isSome && d.get .EVR_READ_IDX_SLOT == d.get .EVR_STATUS_NEXT then 0
    else leAt (tget d.evr.ring (d.get .EVR_READ_IDX_SLOT)) (8 * i) 8
  | f => d.getAt2 f i j

/-! ## Reads by offset -/

/-- Where a field lies at `off`: its indices, and whether `off` is the high word of its 64-bit register. `page` selects
the tenant page of function `n`, with `off` an offset in it. -/
def Fld.locate (f : Fld) (page : Bool) (n off : Nat) : Option (Nat × Nat × Bool) :=
  let w := f.info
  let try1 (o : Nat) : Option (Nat × Nat) :=
    if o < w.base then none
    else
      let x := o - w.base
      if page then
        let j := if w.jstride = 0 then 0 else x / w.jstride
        if x = w.jstride * j && decide (j < w.jcount) then some (n, j) else none
      else
        let i := if w.istride = 0 then 0 else x / w.istride
        let y := x - w.istride * i
        let j := if w.jstride = 0 then 0 else y / w.jstride
        if y = w.jstride * j && decide (i < w.icount) && decide (j < w.jcount) then some (i, j) else none
  if w.page != page then none
  else
    match try1 off with
    | some (i, j) => some (i, j, false)
    | none =>
      if w.wide && decide (4 ≤ off) then
        match try1 (off - 4) with
        | some (i, j) => some (i, j, true)
        | none => none
      else none

/-- The 32-bit word at an offset: the fields that lie there, each read as it shows (R9, R11). -/
def Die.word32 (e : Env) (d : Die) (page : Bool) (n off : Nat) : Nat :=
  allFlds.foldl (fun acc f =>
    match f.locate page n off with
    | some (i, j, high) =>
      let v := if f.info.acc == .wo then 0 else d.view e f i j
      let x := (v % 2 ^ f.width) * 2 ^ f.info.lo
      acc + (if high then x / 2 ^ 32 else x % 2 ^ 32)
    | none => acc) 0

/-- The MSI-X table and pending bit array of a function at a page offset (R67). -/
def Die.msixWord (d : Die) (fn off : Nat) : Nat :=
  let n := if fn = 0 then 32 else 18
  if off < 0x9000 then
    let v := d.msixVec fn ((off - 0x8000) / 16)
    if (off - 0x8000) / 16 < n then
      match (off - 0x8000) % 16 / 4 with
      | 0 => v.addr % 2 ^ 32
      | 1 => v.addr / 2 ^ 32
      | 2 => v.data
      | _ => ofBool v.masked
    else 0
  else
    let all := unitBits n fun k => (d.msixVec fn k).pending
    if off = 0x9000 then all % 2 ^ 32 else all / 2 ^ 32

/-- The page offset lies in the MSI-X table or the pending bit array. -/
def isMsixOff (fn off : Nat) : Bool :=
  (decide (0x8000 ≤ off) && decide (off < 0x8000 + 16 * (if fn = 0 then 32 else 18))) ||
    off == 0x9000 || off == 0x9004

/-- A 4-byte read at offset `off` of function `n`'s tenant page (R45, R454). -/
def Die.pageWord (e : Env) (d : Die) (n off : Nat) : Nat :=
  if isMsixOff n off then d.msixWord n off
  else if off == 0 || off == 4 then d.word32 e true n off
  else if d.hasAt .QUE_PAGE_STATUS_READY n then d.word32 e true n off
  else 0

/-- A 4-byte read of BAR0 of function `fn` (R46, R47, R455). -/
def Die.readWord (e : Env) (d : Die) (fn off : Nat) : Nat :=
  if fn = 0 then
    if off < 0x1000000 then d.word32 e false 0 off
    else if off < 0x2000000 then d.pageWord e ((off - 0x1000000) / 0x10000) (off % 0x10000)
    else 0
  else if off < 0x10000 then d.pageWord e fn off else 0

/-- RNG_TEST is effective: Blank or Test-unlocked (R270). -/
def Die.rngTestOpen (d : Die) : Bool := d.get .LCS_STATE_STATE == 0 || d.get .LCS_STATE_STATE == 2

/-- The register at this offset of BAR0 is 64 bits wide. -/
def isWide (fn off : Nat) : Bool :=
  allFlds.any fun f => f.info.wide &&
    ((if fn = 0 && decide (off < 0x1000000) then f.locate false 0 off
      else f.locate true 0 (off % 0x10000)).map fun x => !x.2.2).getD false

/-- An 8-byte read: of a 64-bit register atomically, else as two 4-byte reads (R47, R451). -/
def Die.readLong (e : Env) (d : Die) (fn off : Nat) : Nat :=
  d.readWord e fn off + 2 ^ 32 * d.readWord e fn (off + 4)

/-- What the recorder reads for a snapshot (R433): a 64-bit register whole, a 32-bit register zero-extended. -/
def Die.snapshotWord (e : Env) (d : Die) (off : Nat) : Nat :=
  if isWide 0 off then d.readLong e 0 off else d.readWord e 0 off

end Sys2Proof.Machine
end

