-- ==== Sys2Proof/Machine/Report.lean ====
section
/-! DEFINITION. Reporting to the event recorder: triggers, classes, snapshots, staging, coalescing and loss (R430 to
R436, R440). -/
namespace Sys2Proof.Machine

/-- A report: its trigger code and the fields of R432 that the event decides. -/
structure Report where
  trigger : Nat
  unit : Nat
  kind : Nat
  address : Nat
  arg : Nat
  tenant : Nat
  rank : Nat
  origin : Option Nat
  deriving DecidableEq, Repr

/-- A report of a trigger with no unit, kind, address, argument or tenant. -/
def Report.of (trigger : Nat) : Report :=
  { trigger, unit := 0xFF, kind := 0, address := 0, arg := 0, tenant := 0xFFFF, rank := 0, origin := none }

/-- Class P: the tamper and life-cycle records (R431). -/
def isClassP (t : Nat) : Bool :=
  (decide (0x0A01 ≤ t) && decide (t ≤ 0x0A17)) || t == 0x0A20 || t / 256 == 0x0C

/-- Offsets of the registers of the built-in list 0 (R440): TMP_STATUS, TMP_COND, TMP_TEMP, TMP_SUPPLY, CLK_STATUS,
PWR_STATUS, PWR_POWER, RST_CAUSE, ENS_STATUS, ENS_LINKS, HLK_STATUS, REC_STATUS, CON_CORES_IN_SERVICE, NTT_CORES,
KEY_ROOT_STATUS, RNG_STATUS, MLF_STATUS, MLF_TREE_STATUS, TIN_STATUS, LCS_STATE, WLD_STATUS, WLD_EVENT, KFT_EVENT,
TEN_EPOCH. -/
def builtinList : List Nat :=
  [0x800000, 0x800004, 0x800010, 0x800018, 0x880000, 0x880104, 0x88010C, 0x880204, 0x600000, 0x600004, 0x000000,
   0x100004, 0x400004, 0x480004, 0x500000, 0x580000, 0x30000C, 0x300030, 0x700000, 0x900000, 0x780000, 0x780010,
   0x200014, 0x684000]

/-- How the RECORDER section treats a trigger: its list and its flags; by default list 0, enabled, no IRQ (R440). -/
def triggerEntry (body : Bytes) (t : Nat) : Nat × Nat :=
  match (List.range (leAt body 2 2)).find? fun k => leAt body (8 + 4 * k) 2 == t with
  | some k => (leAt body (8 + 4 * k + 2) 1, leAt body (8 + 4 * k + 3) 1)
  | none => (0, 1)

/-- Offset of list `n` (from 1) in a RECORDER section: the lists follow the trigger entries (R440). -/
def listOffset (body : Bytes) : Nat → Nat
  | 0 => 8 + 4 * leAt body 2 2
  | n + 1 => let o := listOffset body n; o + 4 + 4 * leAt body o 1

/-- The register offsets of a snapshot list. -/
def snapshotList (body : Bytes) (l : Nat) : List Nat :=
  if l = 0 then builtinList
  else
    let o := listOffset body (l - 1)
    (List.range (leAt body o 1)).map fun k => leAt body (o + 4 + 4 * k) 4

/-- The RECORDER section in force; none under the default configuration (R309). -/
def Die.recorderBody (d : Die) : Bytes := ((d.section? 8 0).map fun s => s.body).getD []

/-- The trigger is enabled: a class P trigger always is (R431, R440). -/
def Die.triggerEnabled (d : Die) (t : Nat) : Bool := isClassP t || bit (triggerEntry d.recorderBody t).2 0

/-- Bytes 0 to 23 of a record: trigger, position, flags, SEQ as yet 0, and the times (R432). -/
def Die.stageTimes (d : Die) (r : Report) (place : Nat) : Bytes :=
  let valid := d.has .TMP_BACKUP_STATUS_RUNNING
  leBytes 2 r.trigger ++ leBytes 1 d.pos ++ leBytes 1 (ofBool (decide (28 ≤ place)) + 2 * ofBool valid) ++
    leBytes 4 0 ++ leBytes 4 (d.get .EVR_OP_HOURS_VALUE) ++ leBytes 4 (d.get .EVR_POWER_CYCLES_VALUE) ++
    (if valid then leBytes 2 (d.get .TMP_BACKUP_TIME_FRACTION) ++ leBytes 6 (d.get .TMP_BACKUP_TIME_SECONDS)
      else zeros 8)

/-- The counts of a record, its tenant, and the snapshot list `l` of `n` registers that it holds (R432). -/
def Die.stageCounts (d : Die) (r : Report) (supp l n : Nat) : Bytes :=
  leBytes 4 supp ++ leBytes 4 (d.get .EVR_LOST_VALUE) ++ leBytes 2 r.tenant ++ leBytes 1 n ++
    leBytes 1 l ++ leBytes 4 (d.get .TIN_DIGEST_DIGEST) ++ leBytes 1 r.unit ++ leBytes 1 r.kind ++
    leBytes 1 (r.origin.getD d.pos) ++ leBytes 1 r.rank ++ leBytes 8 r.address ++ leBytes 8 r.arg

/-- The bytes of a record as staged: everything but SEQ and VALID (R432). -/
def Die.stageBytes (e : Env) (d : Die) (r : Report) (place supp : Nat) : Bytes :=
  let l := (triggerEntry d.recorderBody r.trigger).1
  let regs := snapshotList d.recorderBody l
  d.stageTimes r place ++ d.stageCounts r supp l regs.length ++
    (regs.flatMap fun o => leBytes 8 (d.snapshotWord e o)) ++ zeros (192 - 8 * regs.length)

/-- A free place of the staging FIFO: a general one, else for class P a reserved one (R436). -/
def Die.freePlace (d : Die) (classP : Bool) : Option Nat :=
  let free (p : Nat) : Bool := !(d.evr.staging.any fun s => s.place == p)
  match (List.range 28).find? free with
  | some p => some p
  | none => if classP then ([28, 29, 30, 31].find? free) else none

/-- An entry of a trigger is staged, its write not started. -/
def Die.waitsStaged (d : Die) (t : Nat) : Bool :=
  d.evr.staging.any fun s => s.trigger == t && (d.evr.writing.map fun w => w.1.place) != some s.place

/-- Reports an event (R436): a general report with an entry already staged is coalesced; a report that finds no place
is lost. -/
def Die.report (e : Env) (d : Die) (r : Report) : Die :=
  if !d.triggerEnabled r.trigger then d
  else if !isClassP r.trigger && d.waitsStaged r.trigger then
    { d with evr := { d.evr with supp := tput d.evr.supp r.trigger (tget d.evr.supp r.trigger + 1) } }
  else
    match d.freePlace (isClassP r.trigger) with
    | none => (d.add .EVR_LOST_VALUE 1).event .EVR_EVENT_LOST
    | some p =>
      let s := { place := p, trigger := r.trigger, record := d.stageBytes e r p (tget d.evr.supp r.trigger) : Staged }
      { d with evr := { d.evr with staging := d.evr.staging ++ [s], supp := tput d.evr.supp r.trigger 0 } }

/-- A report with no more than its trigger. -/
def Die.reportOf (e : Env) (d : Die) (trigger : Nat) : Die := d.report e (Report.of trigger)

/-- A debug authorisation ends (R428): the debug master is disabled, halted cores run on, and the end is recorded. -/
def Die.endDebug (e : Env) (d : Die) : Die :=
  if !d.lcs.auth then d
  else
    let d1 := { d with lcs := { d.lcs with auth := false, halted := [] } }
    (((d1.set .DBG_STATUS_LEVEL 0).set .DBG_STATUS_REMAINING_S 0).set .DBG_STATUS_SIGNER 0).reportOf e 0x0C05

/-- A refused burst of MPU `m` (R355): counted, its address kept, WLD_EVENT.MPU_FAULT set and recorded. -/
def Die.mpuFault (e : Env) (d : Die) (m addr len : Nat) (write locked : Bool) : Die :=
  let d1 := ((((d.addAt .MPU_FAULT_INFO_COUNT m 1).setAt .MPU_FAULT_ADDR_ADDR m addr).setAt
    .MPU_FAULT_INFO_WRITE m (ofBool write)).setAt .MPU_FAULT_INFO_LOCKED m (ofBool locked)).setAt
    .MPU_FAULT_INFO_LEN m (clamp 1 4096 len)
  (d1.event .WLD_EVENT_MPU_FAULT).report e { Report.of 0x0904 with unit := m % 256, address := addr }

/-- A DMA range that the tenant's rules refuse: the fault of its first refused burst, where this die's MPU refused it. -/
def Die.dmaFault (e : Env) (d : Die) (tenant addr len : Nat) (write : Bool) : Die :=
  match d.refusedAt tenant addr len write with
  | none => d
  | some a =>
    if tenant / 256 = d.pos
    then d.mpuFault e (tenant % 256) a (min (4096 - a % 4096) (addr + len - a)) write false else d

end Sys2Proof.Machine
end

