-- ==== Sys2Proof/Machine/StoreOps.lean ====
section
/-! DEFINITION. Millefeuille as an operation library (spec/05): where slots lie, the version tree and its counters,
slot writes with their mirroring and re-sealing, poisoned ranges and integrity failures. -/
namespace Sys2Proof.Machine

/-! ## Bucket keys and places (R112, R113, R139 to R141)

A bucket key names a main bucket, a Crumb bucket or a handle slot of the slice of one position. -/

def bucketKey (home kind idx : Nat) : Nat := 2 ^ 32 * (home * 4 + kind) + idx % 2 ^ 32
def mainKey (home b : Nat) : Nat := bucketKey home 0 b
def crumbKey (home c : Nat) : Nat := bucketKey home 1 c
def handleKey (home tenant handle : Nat) : Nat := bucketKey home 2 (65536 * tenant + handle)
def keyHome (k : Nat) : Nat := k / 2 ^ 34
def keyKind (k : Nat) : Nat := k / 2 ^ 32 % 4
def keyIdx (k : Nat) : Nat := k % 2 ^ 32

/-- B of R113. -/
def Die.mainBuckets (d : Die) : Nat := 65536 * d.get .KFT_GEOMETRY_MAIN_UNITS

/-- The GEOMETRY entry of a position (R297). -/
def Die.geometry (d : Die) (home : Nat) : Bytes :=
  match d.section? 3 0 with
  | some s => slice s.body (16 + 32 * home) 32
  | none => zeros 32

/-- Base bus address and size in bytes of a position's slice. -/
def Die.sliceBase (d : Die) (home : Nat) : Nat := leAt (d.geometry home) 0 8
def Die.sliceSize (d : Die) (home : Nat) : Nat := 2 ^ 30 * leAt (d.geometry home) 8 2

/-- Offset of a tenant's handle region (R298). -/
def Die.handleOff (d : Die) (tenant : Nat) : Nat := ((d.section? 4 tenant).map fun s => leAt s.body 20 8).getD 0

/-- The slot index of slot `s` of a bucket (R140). -/
def Die.slotIndex (d : Die) (k s : Nat) : Nat :=
  let g := d.geometry (keyHome k)
  match keyKind k with
  | 0 => leAt g 16 8 / 128 + 4 * keyIdx k + s
  | 1 => leAt g 24 8 / 128 + 8 * keyIdx k + s
  | _ => d.handleOff (keyIdx k / 65536) / 128 + keyIdx k % 65536

/-- Slots of a bucket. -/
def bucketSlots (k : Nat) : Nat := match keyKind k with | 0 => 4 | 1 => 8 | _ => 1

/-- Blocks of a level of a slice (R141). -/
def Die.levelBlocks (d : Die) (home level : Nat) : Nat := ceilDiv (d.sliceSize home / 128) (32 ^ level)

/-- Start of the tree region: the top T bytes of the slice (R140). -/
def Die.treeStart (d : Die) (home : Nat) : Nat :=
  let need := 64 * (d.levelBlocks home 1 + d.levelBlocks home 2 + d.levelBlocks home 3)
  d.sliceSize home - 2 ^ 21 * ceilDiv need (2 ^ 21)

/-- Slice offset of a version block (R140). -/
def Die.blockOffset (d : Die) (home level j : Nat) : Nat :=
  d.treeStart home + 64 * (((List.range (level - 1)).map fun l => d.levelBlocks home (l + 1)).sum + j)

/-- The die serves the slice of this position: its own or an adopted one. -/
def Die.servesSlice (d : Die) (home : Nat) : Bool :=
  (home == d.pos && d.get .MLF_STATUS_STATE == 1) ||
    (d.has .MLF_STATUS_ADOPTED && d.get .MLF_STATUS_ADOPTED_POS == home)

/-! ## The walker's bounds (R139, R354 to R356) -/

/-- The walker may reach `n` bytes at offset `off` of a slice: they lie inside the slice, and a region of its MPU permits them (log
154). -/
def Die.walkerMay (d : Die) (home off n : Nat) (write : Bool) : Bool :=
  decide (off + n ≤ d.sliceSize home) &&
    (firstRefused (d.mpuRegions 257) write (d.sliceBase home + off + n) 17 (d.sliceBase home + off)).isNone

/-- Writes to the slice in host memory, counted as store traffic. A burst that the walker's MPU refuses is never issued. -/
def Die.storeWrite (e : Env) (d : Die) (home off : Nat) (b : Bytes) : Die :=
  if d.sliceSize home = 0 then d
  else if d.walkerMay home off b.length true then (d.dmaWrite (d.sliceBase home + off) b).port 7 b.length
  else d.mpuFault e 257 (d.sliceBase home + off) b.length true false

/-- Counts a read of the slice (log 148). -/
def Die.storeRead (d : Die) (n : Nat) : Die := (d.port 0 n).port 6 n

/-- Why a read of the store yields nothing: an item that fails its check, by level (0 for a slot), index and KIND of MLF_INTEG_INFO,
or a burst that the walker's MPU refuses. -/
inductive StoreFault where
  | item (level j kind : Nat)
  | refused
  deriving DecidableEq, Repr

/-- The status of a request that meets a store fault (R157, R358). -/
def StoreFault.status : StoreFault → Status
  | .item .. => .storeIntegrity
  | .refused => .accessFault

/-- Bytes of the slice as the host returns them; none where the walker's MPU refuses the read. -/
def Die.storeData (e : Env) (d : Die) (home off n : Nat) : Die × Option Bytes :=
  if d.walkerMay home off n false then (d.storeRead n, some (dmaRead e d (d.sliceBase home + off) n))
  else (d.mpuFault e 257 (d.sliceBase home + off) n false false, none)

/-! ## Version blocks (R142 to R144) -/

def treeKeyOf (home level j : Nat) : Nat := 2 ^ 32 * (home * 8 + level) + j
def treeHome (k : Nat) : Nat := k / 2 ^ 35
def treeLevel (k : Nat) : Nat := k / 2 ^ 32 % 8
def treeIndex (k : Nat) : Nat := k % 2 ^ 32

def Die.vblock (d : Die) (home level j : Nat) : VBlock := tget d.mlf.tree (treeKeyOf home level j)
def Die.setVblock (d : Die) (home level j : Nat) (b : VBlock) : Die :=
  { d with mlf := { d.mlf with tree := tput d.mlf.tree (treeKeyOf home level j) b } }

/-- The minor of child `c` (log 31). -/
def VBlock.minor (b : VBlock) (c : Nat) : Nat := bits b.minors (7 * c + 6) (7 * c)

/-- The version that a block holds for its child `c` (R143). -/
def VBlock.version (b : VBlock) (c : Nat) : Nat := b.major * 128 + b.minor c

/-- The minor of child `c` set. -/
def VBlock.setMinor (b : VBlock) (c v : Nat) : VBlock := { b with minors := putBits b.minors (7 * c + 6) (7 * c) v }

/-- The minor of child `c` raised by one. -/
def VBlock.raise (b : VBlock) (c : Nat) : VBlock := b.setMinor c (b.minor c + 1)

/-- The last value of MAJOR (R142) (log 31). -/
def majorLimit : Nat := 2 ^ 57 - 1

/-- The version under which block or slot `j` of level `level` (0 for slots) is written. -/
def Die.versionOf (d : Die) (home level j : Nat) : Nat := (d.vblock home (level + 1) (j / 32)).version (j % 32)

/-- A block under re-seal. -/
def Die.reseal? (d : Die) (home level j : Nat) : Option Reseal :=
  d.mlf.reseals.find? fun r => r.home == home && r.level == level && r.index == j

/-- The version under which block or slot `j` is read: the old one as long as its parent's re-seal has not reached it (R150). -/
def Die.childVersion (d : Die) (home level j : Nat) : Nat :=
  match d.reseal? home (level + 1) (j / 32) with
  | some r => if r.left.contains (j % 32) then r.old.version (j % 32) else d.versionOf home level j
  | none => d.versionOf home level j

/-- Bytes 0 to 47 of a version block (R143). -/
def VBlock.body (b : VBlock) (level j : Nat) : Bytes :=
  leBytes 8 b.major ++ leBytes 28 b.minors ++ leBytes 4 (j + 2 ^ 27 * level) ++ zeros 8

/-- The MAC of a version block's bytes 0 to 47 under a version. -/
def Die.blockMac (d : Die) (home v : Nat) (body : Bytes) : Bytes :=
  aeadTag 1 16 (d.treeKey home) (slice body 36 4 ++ leBytes 8 v) body []

/-- The 64 bytes of a version block under a version (R143). -/
def Die.blockBytes (d : Die) (home level j : Nat) (b : VBlock) (v : Nat) : Bytes :=
  b.body level j ++ d.blockMac home v (b.body level j)

/-- Writes a version block as it lies on the die to the host, under the version its parent holds. -/
def Die.writeBlock (e : Env) (d : Die) (home level j : Nat) : Die :=
  d.storeWrite e home (d.blockOffset home level j) (d.blockBytes home level j (d.vblock home level j) (d.versionOf home level j))

/-- The 128 stored bytes of slot `i` with a payload, under a version (R142). -/
def Die.slotBytes (d : Die) (home i v : Nat) (payload : Bytes) : Bytes :=
  gcmSeal (d.sliceKey home) (leBytes 4 i ++ leBytes 8 v) [] payload

/-! ## Integrity failures and poison (R157, R158, R160) -/

/-- Slots covered by an item of a level (R158). -/
def poisonSpan (level : Nat) : Nat := if level ≤ 1 then 32 else 32 ^ level

/-- The range that the failing item `j` of a level poisons. -/
def poisonRange (home level j : Nat) : Poison :=
  { home, level, offset := (if level = 0 then j / 32 * 32 else j * poisonSpan level) * 128 }

/-- The slice offset of an item: of a slot, or of a version block in the tree region. -/
def Die.itemOffset (d : Die) (home level j : Nat) : Nat := if level = 0 then j * 128 else d.blockOffset home level j

/-- Slot `i` lies in a poisoned range. -/
def Die.poisoned (d : Die) (home i : Nat) : Bool :=
  d.mlf.poison.any fun p => p.2.home == home && decide (p.2.offset ≤ i * 128) &&
    decide (i * 128 < p.2.offset + poisonSpan p.2.level * 128)

/-- A bucket lies in a poisoned range. -/
def Die.bucketPoisoned (d : Die) (k : Nat) : Bool := d.poisoned (keyHome k) (d.slotIndex k 0)

/-- The lowest empty index of the poison list. -/
def Die.freePoison (d : Die) : Option Nat := (List.range 256).find? fun i => !d.mlf.poison.any fun p => p.1 == i

/-- A range enters the poison list at a free index; with none free POISON_FULL is set and the alarm is due (R158, R160). -/
def Die.addPoison (d : Die) (p : Poison) (kind : Nat) : Option Nat → Die
  | some i => { d with mlf := { d.mlf with poison := d.mlf.poison ++ [(i, p)] } }
  | none => { d.event .MLF_EVENT_POISON_FULL with mlf := { (d.event .MLF_EVENT_POISON_FULL).mlf with alarmDue := some kind } }

/-- An integrity failure of item `j` of level `level` (R157): counted, its place kept, the event set and recorded, the range
poisoned; with the list full, POISON_FULL is set and the alarm is due (R160) (log 29). -/
def Die.integrity (e : Env) (d : Die) (tenant home level j kind : Nat) : Die :=
  let off := d.itemOffset home level j
  let d1 := (((((d.add .MLF_INTEG_COUNT_COUNT 1).set .MLF_INTEG_ADDR_OFFSET off).set .MLF_INTEG_INFO_TENANT
    tenant).set .MLF_INTEG_INFO_ADOPTED_SLICE (ofBool (home != d.pos))).set .MLF_INTEG_INFO_KIND kind).set
    .MLF_INTEG_INFO_LEVEL level
  let d2 := (d1.event .MLF_EVENT_INTEGRITY).report e { Report.of 0x0301 with kind, address := off, tenant }
  d2.addPoison (poisonRange home level j) kind d2.freePoison

/-- Reports a store fault met for a tenant; a refused burst has been recorded where it was refused. -/
def Die.storeFault (e : Env) (d : Die) (tenant home : Nat) : StoreFault → Die
  | .item level j kind => d.integrity e tenant home level j kind
  | .refused => d

/-! ## Mirroring (R152) -/

/-- The position that holds this die's mirror: the next die along ring A (R152). -/
def Die.mirrorHolder (d : Die) : Nat := (d.pos + 1) % d.size

/-- The body of a MIRROR message: its kind, the position and key of what it is about, the number of the change, and contents (log
11). Kinds: 1 a pending write, 2 a write done, 3 a re-seal begun, 4 the blocks of levels 4 and 5 over a level-3 block, 5 the content of a
block, 6 a dirty entry released, 7 the slice nonce, 8 a re-seal done. -/
def mirrorBody (kind home key n : Nat) (rest : Bytes) : Bytes :=
  leBytes 1 kind ++ leBytes 1 home ++ leBytes 8 key ++ leBytes 4 n ++ rest

/-- Sends a change to the mirror holder, as long as it acknowledges; with the number that the acknowledgement will name. -/
def Die.mirrorMsg (d : Die) (kind home key : Nat) (rest : Bytes) : Die × Option Nat :=
  if d.has .MLF_STATUS_MIRROR_OK then
    let n := d.mlf.nextWid
    let d1 := d.sendRing .mirror (some d.mirrorHolder) (mirrorBody kind home key n rest)
    ({ d1 with mlf := { d1.mlf with nextWid := n + 1, unacked := d1.mlf.unacked ++ [n] } }, some n)
  else (d, none)

/-- Sends a change whose acknowledgement nothing waits for. -/
def Die.mirror (d : Die) (kind home key : Nat) (rest : Bytes) : Die := (d.mirrorMsg kind home key rest).1

/-- The counters of a block as a MIRROR message carries them. -/
def VBlock.counters (b : VBlock) : Bytes := leBytes 8 b.major ++ leBytes 28 b.minors

/-- The counters that stand at byte `i` of a message. -/
def countersAt (b : Bytes) (i : Nat) : VBlock := { major := leAt b i 8, minors := leAt b (i + 8) 28 }

/-- The content of a block, to the mirror. -/
def Die.mirrorBlock (d : Die) (home level j : Nat) : Die :=
  d.mirror 5 home (treeKeyOf home level j) (d.vblock home level j).counters

/-! ## Raising counters (R147, R150) -/

/-- Starts the re-seal of a block whose child `c` is written (R150 steps 1 and 2). The children of a level-5 block carry no MAC: its
re-seal is over at once. -/
def Die.startReseal (d : Die) (home level j c : Nat) : Die :=
  let b := d.vblock home level j
  let d1 := d.setVblock home level j { major := b.major + 1, minors := 2 ^ (7 * c) }
  if 5 ≤ level then (d1.wrap .MLF_RESEAL_COUNT_COUNT 1).mirrorBlock home level j
  else
    let r : Reseal := { home, level, index := j, old := b, left := (List.range 32).filter fun x => x != c }
    { d1 with mlf := { d1.mlf with reseals := d1.mlf.reseals ++ [r] } }.mirror 3 home (treeKeyOf home level j) b.counters

/-- A write of child `c` of a block can go on now: its minor can be raised, its re-seal place is free, or it is a child
not yet re-sealed. -/
def Die.canRaise (d : Die) (home level j c : Nat) : Bool :=
  match d.reseal? home level j with
  | some r => r.left.contains c
  | none => decide ((d.vblock home level j).minor c < 127) || decide (d.mlf.reseals.length < 64)

/-- A raise of child `c` would take MAJOR of its block past its limit (R150). -/
def Die.pastLimit (d : Die) (home level j c : Nat) : Bool :=
  (d.reseal? home level j).isNone && (d.vblock home level j).minor c == 127 && decide (majorLimit ≤ (d.vblock home level j).major)

/-- Raises the version of child `c` of a block (R147, R150). -/
def Die.raiseChild (d : Die) (home level j c : Nat) : Die :=
  match d.reseal? home level j with
  | some r =>
    let d1 := d.setVblock home level j ((d.vblock home level j).raise c)
    { d1 with mlf := { d1.mlf with reseals := updateWhere (fun x => x == r) (fun x => { x with left := x.left.filter (· != c) }) d1.mlf.reseals } }
  | none =>
    let b := d.vblock home level j
    if b.minor c < 127 then d.setVblock home level j (b.raise c) else d.startReseal home level j c

/-! ## The version-tree cache (R145, R146, R149) -/

/-- Remainder of the version-tree cache in blocks. -/
def Die.cacheBlocks (d : Die) : Nat := d.get .MLF_CACHE_STATUS_CAPACITY * 4

/-- A block lies on the die: levels 4 and 5, level 3 of the own slice, and what the cache holds. -/
def Die.onDie (d : Die) (home level j : Nat) : Bool :=
  decide (4 ≤ level) || (level == 3 && home == d.pos) || d.mlf.upper.contains (treeKeyOf home level j) ||
    d.mlf.cached.contains (treeKeyOf home level j)

/-- A cached block becomes the most recently used. -/
def Die.touchBlock (d : Die) (k : Nat) : Die :=
  if d.mlf.cached.contains k then { d with mlf := { d.mlf with cached := d.mlf.cached.filter (· != k) ++ [k] } } else d

/-- The 64 bytes of a version block, as far as they were read, under a version: POSITION is checked, then the MAC (R145). -/
def Die.openBlock (d : Die) (home level j v : Nat) : Option Bytes → Except StoreFault VBlock
  | none => .error .refused
  | some b =>
    if leAt b 36 4 != j + 2 ^ 27 * level then .error (.item level j 3)
    else if slice b 48 16 != d.blockMac home v (slice b 0 48) then .error (.item level j 2)
    else .ok { major := leAt b 0 8, minors := leAt b 8 28 }

/-- A version block of the host copy under the version its parent holds (R145). -/
def Die.readBlock (e : Env) (d : Die) (home level j v : Nat) : Die × Except StoreFault VBlock :=
  let x := d.storeData e home (d.blockOffset home level j) 64
  (x.1, d.openBlock home level j v x.2)

/-- Level-3 block `j` on the die: of an adopted slice it is read from its host copy when first needed (R153). -/
def Die.fetch3 (e : Env) (d : Die) (home j : Nat) : Die × Option StoreFault :=
  if d.onDie home 3 j then (d, none)
  else
    let put (d : Die) (b : VBlock) : Die :=
      { d.setVblock home 3 j b with mlf := { (d.setVblock home 3 j b).mlf with upper := d.mlf.upper ++ [treeKeyOf home 3 j] } }
    let v := d.childVersion home 3 j
    if v = 0 then (put d default, none)
    else match d.readBlock e home 3 j v with
      | (d1, .ok b) => (put d1 b, none)
      | (d1, .error f) => (d1, some f)

/-- Writes a level-3 block to its host copy under a raised version, and raises level 5 (R149 steps 3 and 4); the change goes to the
mirror. With the number of that change. -/
def Die.writeL3 (e : Env) (d : Die) (home j3 : Nat) : Die × Option Nat :=
  let d1 := (d.raiseChild home 4 (j3 / 32) (j3 % 32)).writeBlock e home 3 j3
  let d2 := d1.raiseChild home 5 (j3 / 1024) (j3 / 32 % 32)
  d2.mirrorMsg 4 home (treeKeyOf home 3 j3) ((d2.vblock home 4 (j3 / 32)).counters ++ (d2.vblock home 5 (j3 / 1024)).counters)

/-- A dirty entry is released. -/
def Die.releaseDirty (d : Die) (home j : Nat) : Die :=
  { d with mlf := { d.mlf with dirty := d.mlf.dirty.filter (· != treeKeyOf home 2 j) } }

/-- The write-back of level-2 block `j` has begun and awaits its acknowledgement. -/
def Die.backing (d : Die) (home j : Nat) : Bool := d.mlf.backs.any fun b => b.home == home && b.index == j

/-- Steps 1 to 5 of R149 for level-2 block `j`: its minor in level 3, the block and the level-3 block written, the minors of levels
4 and 5 raised, and the change mirrored. The dirty entry is released with the acknowledgement. A level-3 block that fails its check
leaves nothing to write the block under: its range is poisoned. -/
def Die.writeBack (e : Env) (d : Die) (home j : Nat) (ends : Bool) : Die :=
  let j3 := j / 32
  match d.fetch3 e home j3 with
  | (d0, some f) => (d0.storeFault e 0 home f).releaseDirty home j
  | (d0, none) =>
    if d0.pastLimit home 3 j3 (j % 32) then (d0.integrity e 0 home 3 j3 4).releaseDirty home j
    else if !d0.canRaise home 3 j3 (j % 32) then d0
    else
      let d1 := (d0.raiseChild home 3 j3 (j % 32)).writeBlock e home 2 j
      match ((d1.writeL3 e home j3).1).mirrorMsg 6 home (treeKeyOf home 2 j) [] with
      | (d2, some n) => { d2 with mlf := { d2.mlf with backs := d2.mlf.backs ++ [{ home, index := j, ack := n, ends }] } }
      | (d2, none) => d2.releaseDirty home j

/-- A block that must stay in the cache: under re-seal, being written back, or with a write whose block the host does not have
yet. -/
def Die.pinnedBlock (d : Die) (k : Nat) : Bool :=
  (d.mlf.reseals.any fun r => treeKeyOf r.home r.level r.index == k) || (d.mlf.backs.any fun b => treeKeyOf b.home 2 b.index == k) ||
    (d.mlf.writes.any fun w => treeKeyOf w.home 1 w.block == k && (w.stage == .mirroring || w.stage == .sealing))

/-- The block that leaves the cache next: of level 1 before level 2, the least recently used of its level (R146). -/
def Die.evictBlock (d : Die) (keep : Nat) : Option Nat :=
  match d.mlf.cached.find? fun k => treeLevel k == 1 && k != keep && !d.pinnedBlock k with
  | some k => some k
  | none => d.mlf.cached.find? fun k => k != keep && !d.pinnedBlock k && !d.mlf.dirty.contains k

/-- A block leaves the cache. -/
def Die.uncacheBlock (d : Die) (k : Nat) : Die :=
  { d with mlf := { d.mlf with cached := d.mlf.cached.filter (· != k), tree := tput d.mlf.tree k default } }

/-- A block enters the cache; with the cache full another leaves it. -/
def Die.cacheBlock (d : Die) (home level j : Nat) (b : VBlock) : Die :=
  let k := treeKeyOf home level j
  let d1 := d.setVblock home level j b
  let d2 : Die := { d1 with mlf := { d1.mlf with cached := d1.mlf.cached.filter (· != k) ++ [k] } }
  if d2.mlf.cached.length ≤ d2.cacheBlocks then d2
  else match d2.evictBlock k with
    | some x => d2.uncacheBlock x
    | none => d2

/-- Level-`level` block `j`, 1 or 2, in the cache: as it lies there, all zero where it was never written, or read from the host and
verified (R144, R145). Its parent lies on the die. -/
def Die.fetchBlock (e : Env) (d : Die) (home level j : Nat) : Die × Option StoreFault :=
  let k := treeKeyOf home level j
  if d.mlf.cached.contains k then (d.touchBlock k, none)
  else
    let v := d.childVersion home level j
    if v = 0 then (d.cacheBlock home level j default, none)
    else match (if level = 1 then d.count 6 4 0 1 else d).readBlock e home level j v with
      | (d1, .ok b) => (d1.cacheBlock home level j b, none)
      | (d1, .error f) => (d1, some f)

/-- The path of level-1 block `x` from the top down (R145, `fetch_verified` of R147). -/
def Die.fetchPath (e : Env) (d : Die) (home x : Nat) : Die × Option StoreFault :=
  match d.fetch3 e home (x / 1024) with
  | (d1, some f) => (d1, some f)
  | (d1, none) =>
    match d1.fetchBlock e home 2 (x / 32) with
    | (d2, some f) => (d2, some f)
    | (d2, none) => d2.fetchBlock e home 1 x

/-! ## Reading a bucket (R145) -/

/-- The payload of slot `i` as it opens under a version; never written is empty. -/
def Die.openSlot (e : Env) (d : Die) (home i v : Nat) : Option Bytes :=
  if v = 0 then some (zeros 112)
  else gcmOpen (d.sliceKey home) (leBytes 4 i ++ leBytes 8 v) [] (dmaRead e d (d.sliceBase home + i * 128) 128)

/-- A write of slot `i` that has not reached the host: the die holds its payload (log 155). -/
def Die.inHand (d : Die) (home i : Nat) : Bool :=
  d.mlf.writes.any fun w => w.home == home && (w.stage == .parked || w.stage == .mirroring) &&
    w.parts.any fun p => p.slots.any fun s => s.index == i

/-- A read of a bucket returns (R145): its path is checked from the top down, then the tag of each slot under its version. A slot
whose tag verifies under its version holds what the die last wrote there (log 156). -/
def Die.checkBucket (e : Env) (d : Die) (k : Nat) : Die × Option StoreFault :=
  let home := keyHome k
  let i0 := d.slotIndex k 0
  match d.fetchPath e home (i0 / 32) with
  | (d1, some f) => (d1, some f)
  | (d1, none) =>
    let live := (List.range (bucketSlots k)).filter fun s => d1.childVersion home 0 (i0 + s) != 0 && !d1.inHand home (i0 + s)
    if live.isEmpty then (d1, none)
    else match d1.storeData e home (i0 * 128) (bucketSlots k * 128) with
      | (d2, none) => (d2, some .refused)
      | (d2, some _) =>
        match live.find? fun s => (d1.openSlot e home (i0 + s) (d1.childVersion home 0 (i0 + s))).isNone with
        | some s => (d2, some (.item 0 (i0 + s) 1))
        | none => (d2, none)

/-- Every slot of a bucket is known on the die never to have been written: the bucket is empty without a host read (R144). -/
def Die.knownEmpty (d : Die) (k : Nat) : Bool :=
  let home := keyHome k
  let x := d.slotIndex k 0 / 32
  if !d.onDie home 3 (x / 1024) then d.childVersion home 3 (x / 1024) == 0
  else if !d.onDie home 2 (x / 32) then d.childVersion home 2 (x / 32) == 0
  else if !d.onDie home 1 x then d.childVersion home 1 x == 0
  else (List.range (bucketSlots k)).all fun s => d.childVersion home 0 (d.slotIndex k 0 + s) == 0

/-! ## Slot writes (R147 to R150) -/

/-- A request whose slot write cannot be made completes with this status in place of its own (R157, R158). -/
def Die.spoil (d : Die) (rid : Nat) (st : Status) : Die := if rid = 0 then d else d.updReq rid fun r => { r with spoiled := some st }

/-- The tenant of a request in flight, 0 for none (R163). -/
def Die.tenantOfRid (d : Die) (rid : Nat) : Nat := ((d.req? rid).map fun r => r.tenant).getD 0

/-- Takes a slot write away, and spoils its requests. -/
def Die.dropWrite (d : Die) (w : SlotWrite) (st : Status) : Die :=
  w.parts.foldl (fun d p => d.spoil p.rid st) { d with mlf := { d.mlf with writes := d.mlf.writes.filter fun v => v.wid != w.wid } }

/-- Changes one slot write. -/
def Die.updWrite (d : Die) (wid : Nat) (f : SlotWrite → SlotWrite) : Die :=
  { d with mlf := { d.mlf with writes := updateWhere (fun v => v.wid == wid) f d.mlf.writes } }

/-- The slots of a write. -/
def SlotWrite.slots (w : SlotWrite) : List SlotImage := w.parts.flatMap fun p => p.slots

/-- Writes the slots and then their level-1 block to the host (R147): a block under re-seal follows at the end of it. -/
def Die.issueWrite (e : Env) (d : Die) (w : SlotWrite) : Die :=
  let d1 : Die := w.slots.foldl (fun d s => d.storeWrite e w.home (s.index * 128) (d.slotBytes w.home s.index s.version s.payload)) d
  if w.ends || (d1.reseal? w.home 1 w.block).isNone
  then (d1.writeBlock e w.home 1 w.block).updWrite w.wid fun v => { v with stage := .flushing, awaits := [] }
  else d1.updWrite w.wid fun v => { v with stage := .sealing, awaits := [] }

/-- Level-2 block `j` has changed: it is the most recently used dirty block, and the mirror takes its content when it becomes
dirty (R149, R152). -/
def Die.markL2 (d : Die) (home j : Nat) : Die :=
  let k := treeKeyOf home 2 j
  let fresh := !d.mlf.dirty.contains k
  let d1 := { d with mlf := { d.mlf with dirty := d.mlf.dirty.filter (· != k) ++ [k] } }
  if fresh then d1.mirrorBlock home 2 j else d1

/-- The pending entry of a write (R147): its number, its slots with their versions, and those of the block. -/
def SlotWrite.pending (w : SlotWrite) : Bytes :=
  leBytes 4 w.wid ++ (w.slots.flatMap fun s => leBytes 4 s.index ++ leBytes 8 s.old ++ leBytes 8 s.version) ++ leBytes 8 w.uOld ++ leBytes 8 w.uNew

/-- Sends the pending entry of a write, and goes on to the host at once where there is no mirror (R147, R152). -/
def Die.sendPending (e : Env) (d : Die) (w : SlotWrite) : Die :=
  match d.mirrorMsg 1 w.home (treeKeyOf w.home 1 w.block) w.pending with
  | (d1, some n) => d1.updWrite w.wid fun _ => { w with stage := .mirroring, awaits := w.awaits ++ [n] }
  | (d1, none) => (d1.updWrite w.wid fun _ => w).issueWrite e w

/-- An earlier write under the same block whose block is still on its way: the second joins it (R148). -/
def Die.joinable (d : Die) (w : SlotWrite) : Option SlotWrite :=
  d.mlf.writes.find? fun v => v.wid != w.wid && v.stage == .mirroring && v.home == w.home && v.block == w.block && !v.ends

/-- Raises the versions of a write's slots. -/
def Die.raiseSlots (d : Die) (home x : Nat) (p : WritePart) : Die × WritePart :=
  p.slots.foldl (fun (acc : Die × WritePart) s =>
    let old := acc.1.childVersion home 0 s.index
    let d1 := acc.1.raiseChild home 1 x (s.index % 32)
    (d1, { acc.2 with slots := acc.2.slots ++ [{ s with old, version := d1.versionOf home 0 s.index }] })) (d, { p with slots := [] })

/-- Raises the counters of a write and sends it on its way. Under a block that is re-sealed, or whose write is still on its way, the
level-2 minor is not raised again (R148, R150). -/
def Die.runWrite (e : Env) (d : Die) (w : SlotWrite) : Die :=
  let x := w.block
  let raised := w.parts.foldl (fun (acc : Die × List WritePart) p =>
    let q := acc.1.raiseSlots w.home x p; (q.1, acc.2 ++ [q.2])) (d, [])
  let d1 := raised.1
  match d1.joinable w with
  | some v =>
    let d2 : Die := { d1 with mlf := { d1.mlf with writes := d1.mlf.writes.filter fun u => u.wid != w.wid } }
    d2.sendPending e { v with parts := v.parts ++ raised.2 }
  | none =>
    let uOld := d1.versionOf w.home 1 x
    let d2 := if !w.ends && (d1.reseal? w.home 1 x).isSome then d1
      else (d1.raiseChild w.home 2 (x / 32) (x % 32)).markL2 w.home (x / 32)
    d2.sendPending e { w with parts := raised.2, uOld, uNew := d2.versionOf w.home 1 x }

/-- Counters that a write would take past their limit (R150). -/
def Die.writeLimit (d : Die) (w : SlotWrite) : Option StoreFault :=
  if w.slots.any fun s => d.pastLimit w.home 1 w.block (s.index % 32) then some (.item 1 w.block 4)
  else if d.pastLimit w.home 2 (w.block / 32) (w.block % 32) then some (.item 2 (w.block / 32) 4)
  else none

/-- The walker's MPU refuses the slots of a write, or its block. -/
def Die.writeRefused (d : Die) (w : SlotWrite) : Bool :=
  d.sliceSize w.home != 0 && !(w.slots.all (fun s => d.walkerMay w.home (s.index * 128) 128 true) &&
    d.walkerMay w.home (d.blockOffset w.home 1 w.block) 64 true)

/-- The write can raise every counter it needs now. -/
def Die.writeReady (d : Die) (w : SlotWrite) : Bool :=
  w.slots.all (fun s => d.canRaise w.home 1 w.block (s.index % 32)) && d.canRaise w.home 2 (w.block / 32) (w.block % 32) &&
    !(d.backing w.home (w.block / 32))

/-- A re-seal that the write needs finds all 64 places taken (R150). -/
def Die.resealStalled (d : Die) (w : SlotWrite) : Bool :=
  decide (64 ≤ d.mlf.reseals.length) &&
    ((w.slots.any fun s => (d.reseal? w.home 1 w.block).isNone && (d.vblock w.home 1 w.block).minor (s.index % 32) == 127) ||
     ((d.reseal? w.home 2 (w.block / 32)).isNone && (d.vblock w.home 2 (w.block / 32)).minor (w.block % 32) == 127))

/-- The write needs a dirty entry and all 8,192 are taken (R149). -/
def Die.dirtyFull (d : Die) (w : SlotWrite) : Bool :=
  (d.joinable w).isNone && !d.mlf.dirty.contains (treeKeyOf w.home 2 (w.block / 32)) && decide (8192 ≤ d.mlf.dirty.length)

/-- The least recently used dirty block that is not under re-seal is written back, unless a write-back runs (R149). -/
def Die.writeBackOldest (e : Env) (d : Die) : Die :=
  match d.mlf.dirty.find? fun k => (d.reseal? (treeHome k) 2 (treeIndex k)).isNone with
  | some k => if d.mlf.backs.isEmpty then d.writeBack e (treeHome k) (treeIndex k) false else d
  | none => d

/-- An earlier write under the same block has not begun: this one follows it (R148). -/
def Die.behindWrite (d : Die) (w : SlotWrite) : Bool :=
  (d.mlf.writes.takeWhile fun v => v.wid != w.wid).any fun v => v.stage == .parked && v.home == w.home && v.block == w.block

/-- Starts a parked write, or leaves it waiting (R148 to R150). A path that fails its check, or a counter at its limit, ends it. -/
def Die.startWrite (e : Env) (d : Die) (w : SlotWrite) : Die :=
  if d.behindWrite w || (!w.ends && decide (1024 ≤ d.writesInFlight)) then d
  else
    let tenant := d.tenantOfRid ((w.parts.head?.map fun p => p.rid).getD 0)
    if d.writeRefused w then
      (d.mpuFault e 257 (d.sliceBase w.home + (w.slots.head?.map fun s => s.index * 128).getD 0) 128 true false).dropWrite w .accessFault
    else match d.fetchPath e w.home w.block with
    | (d0, some f) => (d0.storeFault e tenant w.home f).dropWrite w f.status
    | (d0, none) =>
      match d0.writeLimit w with
      | some f => (d0.storeFault e tenant w.home f).dropWrite w f.status
      | none =>
        if !d0.writeReady w then (if d0.resealStalled w then d0.event .MLF_EVENT_RESEAL_STALL else d0)
        else
          let d1 := if d0.dirtyFull w then d0.writeBackOldest e else d0
          if d1.dirtyFull w || !d1.writeReady w then d1 else d1.runWrite e w

/-- Starts every parked write that can go on, in order. -/
def Die.startParked (e : Env) (d : Die) : Die :=
  (d.mlf.writes.filter fun w => w.stage == .parked).foldl (fun d w =>
    if d.mlf.writes.any fun v => v.wid == w.wid && v.stage == .parked then d.startWrite e w else d) d

/-- Puts a slot write in the list and starts it. -/
def Die.addWrite (e : Env) (d : Die) (home x : Nat) (parts : List WritePart) (ends : Bool) : Die :=
  let w : SlotWrite := { wid := d.mlf.nextWid, home, block := x, parts, stage := .parked, awaits := [], uOld := 0, uNew := 0, ends }
  { d with mlf := { d.mlf with nextWid := d.mlf.nextWid + 1, writes := d.mlf.writes ++ [w] } }.startWrite e w

/-- Begins a slot write of a bucket for request `rid` (0 for none): slots of the bucket and their payloads. A write into a poisoned
range is refused at once (R158). -/
def Die.beginWrite (e : Env) (d : Die) (bucket : Nat) (slots : List (Nat × Bytes)) (rid : Nat) : Die :=
  if slots.isEmpty then d
  else if d.bucketPoisoned bucket then d.spoil rid .storeIntegrity
  else
    let images := slots.map fun s => ({ index := d.slotIndex bucket s.1, payload := s.2, old := 0, version := 0 } : SlotImage)
    d.addWrite e (keyHome bucket) (d.slotIndex bucket 0 / 32) [{ bucket, slots := images, rid }] false

/-- A re-seal is over: counted, and its entry is done in the mirror. -/
def Die.doneReseal (d : Die) (r : Reseal) : Die :=
  (({ d with mlf := { d.mlf with reseals := d.mlf.reseals.filter fun x => x != r } }.wrap .MLF_RESEAL_COUNT_COUNT 1).count 6 3 0 1).mirror 8
    r.home (treeKeyOf r.home r.level r.index) []

/-- The last step of a re-seal whose 31 children are done (R150 step 4). -/
def Die.endReseal (e : Env) (d : Die) (r : Reseal) : Die :=
  match r.level with
  | 1 =>
    if d.mlf.writes.any fun w => w.ends && w.home == r.home && w.block == r.index then d
    else
      let mine (w : SlotWrite) : Bool := w.stage == .sealing && w.home == r.home && w.block == r.index
      let parts := (d.mlf.writes.filter mine).flatMap fun w => w.parts.map fun p => { p with slots := [] }
      { d with mlf := { d.mlf with writes := d.mlf.writes.filter fun w => !mine w } }.addWrite e r.home r.index parts true
  | 2 =>
    if d.backing r.home r.index then d
    else
      let d1 := (d.markL2 r.home r.index).writeBack e r.home r.index true
      if d1.backing r.home r.index || d1.mlf.dirty.contains (treeKeyOf r.home 2 r.index) then d1 else d1.doneReseal r
  | 3 =>
    if d.canRaise r.home 4 (r.index / 32) (r.index % 32) then ((d.writeL3 e r.home r.index).1).doneReseal r else d
  | _ => ((d.raiseChild r.home 5 (r.index / 32) (r.index % 32)).mirrorBlock r.home 5 (r.index / 32)).doneReseal r

/-- What waits in the store goes on: re-seals whose children are done, then parked writes. -/
def Die.kickStore (e : Env) (d : Die) : Die :=
  ((d.mlf.reseals.filter fun r => r.left.isEmpty).foldl (Die.endReseal e) d).startParked e

/-! ## Interlocks (R121) -/

/-- The interlock of a bucket is held: a change of it is not yet complete (R121, R128, R148). -/
def Die.inWrite (d : Die) (bucket : Nat) : Bool :=
  (d.mlf.writes.any fun w => w.parts.any fun p => p.bucket == bucket) ||
    d.kft.moves.any fun m => m.main == bucket || m.crumb == bucket

/-- A newcomer does not get the interlock of a bucket: it is held, or others wait for it already (R121). -/
def Die.held (d : Die) (bucket : Nat) : Bool := d.inWrite bucket || d.kft.ilWait.any fun w => w.1 == bucket

/-- A request that may wait for the interlock itself does not get it: it is held, or another waits before it. -/
def Die.heldFor (d : Die) (bucket rid : Nat) : Bool :=
  d.inWrite bucket || (d.kft.ilWait.find? fun w => w.1 == bucket).any fun w => w.2 != rid

/-- A request has slot writes, or a relocation, outstanding. -/
def Die.writesFor (d : Die) (rid : Nat) : Bool :=
  (d.mlf.writes.any fun w => w.parts.any fun p => p.rid == rid) || (d.kft.moves.any fun m => m.rid == rid) ||
    d.kft.relocDue.any fun m => m.2 == rid

/-- Something waits for the interlock of a bucket; a request waits once. -/
def Die.waitInterlock (d : Die) (bucket rid : Nat) : Die :=
  if rid != 0 && d.kft.ilWait.contains (bucket, rid) then d
  else { d with kft := { d.kft with ilWait := d.kft.ilWait ++ [(bucket, rid)] } }

/-- A request no longer waits for the interlock of a bucket. -/
def Die.passInterlock (d : Die) (bucket rid : Nat) : Die :=
  { d with kft := { d.kft with ilWait := d.kft.ilWait.filter fun w => w != (bucket, rid) } }

/-! ## Formatting (R144, R156) -/

/-- The tree, writes and poison of a slice are gone. -/
def Die.clearTree (d : Die) (home : Nat) : Die :=
  let keep (k : Nat) : Bool := treeHome k != home
  { d with mlf := { d.mlf with
      tree := d.mlf.tree.filter fun t => keep t.1, cached := d.mlf.cached.filter keep, upper := d.mlf.upper.filter keep,
      dirty := d.mlf.dirty.filter keep, writes := d.mlf.writes.filter fun w => w.home != home,
      backs := d.mlf.backs.filter fun b => b.home != home, reseals := d.mlf.reseals.filter fun r => r.home != home,
      poison := d.mlf.poison.filter fun p => p.2.home != home, foreign := d.mlf.foreign.filter fun f => f.1 != home,
      taken := d.mlf.taken.filter fun k => keyHome k != home } }

/-- Formats a slice (R144): on-die levels zeroed, a new slice nonce drawn, no host byte written. -/
def Die.formatSlice (d : Die) (home : Nat) : Die :=
  let n := leNat (randomBytes d.rng.draws 8)
  let d1 := (d.draw 8).clearTree home
  { d1 with mlf := { d1.mlf with
      nonce := if home = d.pos then n else d1.mlf.nonce,
      adopted := if home = d.pos then d1.mlf.adopted else { d1.mlf.adopted with nonce := n } } }

end Sys2Proof.Machine
end

