-- ==== Sys2Proof/Machine/Policy.lean ====
section
/-! DEFINITION. Policy programs (R360 to R365): the bytecode, its inputs and its state words. -/
namespace Sys2Proof.Machine

/-- The working registers, the state words as the program has changed them, and the instruction index. -/
structure PolVm where
  w : List Nat
  st : List Nat
  pc : Nat
  deriving DecidableEq, Repr

/-- How a program ends (R364). ALLOW and DENY commit the state words. -/
inductive PolOut where
  | allow (st : List Nat)
  | deny (imm : Nat) (st : List Nat)
  | stepLimit
  | fault
  deriving DecidableEq, Repr

/-- A 16-bit immediate as a branch offset: the index reached from `pc`. -/
def branchTo (pc imm : Nat) : Nat := if imm < 2 ^ 15 then pc + 1 + imm else pc + 1 + imm - 2 ^ 16

/-- Writes WA and goes on to the next instruction. -/
def PolVm.put (m : PolVm) (a v : Nat) : PolVm := { m with w := m.w.set a (v % 2 ^ 64), pc := m.pc + 1 }

/-- Goes to a branch target, or on. -/
def PolVm.jump (m : PolVm) (taken : Bool) (imm : Nat) : PolVm :=
  { m with pc := if taken then branchTo m.pc imm else m.pc + 1 }

/-- One instruction word (R361): the machine after it, or how the program ends. -/
def PolVm.step (inputs : List Nat) (m : PolVm) (word : Nat) : PolVm ⊕ PolOut :=
  let imm := bits word 31 16
  let a := bits word 11 8
  let wa := m.w.getD a 0
  let wb := m.w.getD (bits word 15 12) 0
  match bits word 7 0 with
  | 0x01 => .inl (m.put a imm)
  | 0x02 => .inl (m.put a (wa * 2 ^ 16 ||| imm))
  | 0x03 => .inl (m.put a wb)
  | 0x04 => .inl (m.put a (inputs.getD imm 0))
  | 0x05 => .inl (m.put a (m.st.getD imm 0))
  | 0x06 => .inl { m with st := m.st.set imm wb, pc := m.pc + 1 }
  | 0x07 => .inl (m.put a (wa + wb))
  | 0x08 => .inl (m.put a (wa + 2 ^ 64 - wb))
  | 0x09 => .inl (m.put a (wa + (if imm < 2 ^ 15 then imm else imm + 2 ^ 64 - 2 ^ 16)))
  | 0x0A => .inl (m.put a (wa * wb))
  | 0x0B => if wb = 0 then .inr .fault else .inl (m.put a (wa / wb))
  | 0x0C => .inl (m.put a (wa &&& wb))
  | 0x0D => .inl (m.put a (wa ||| wb))
  | 0x0E => .inl (m.put a (wa ^^^ wb))
  | 0x0F => .inl (m.put a (wa * 2 ^ imm))
  | 0x10 => .inl (m.put a (wa / 2 ^ imm))
  | 0x11 => .inl (m.put a (min wa wb))
  | 0x12 => .inl (m.put a (max wa wb))
  | 0x13 => .inl (m.jump (wa == wb) imm)
  | 0x14 => .inl (m.jump (wa != wb) imm)
  | 0x15 => .inl (m.jump (decide (wa < wb)) imm)
  | 0x16 => .inl (m.jump (decide (wb ≤ wa)) imm)
  | 0x17 => .inl (m.jump true imm)
  | 0x18 => .inr (.allow m.st)
  | 0x19 => .inr (.deny imm m.st)
  | _ => .inr .fault

/-- Runs a program of `words` for at most `fuel` instructions (R364). -/
def PolVm.run (inputs words : List Nat) : Nat → PolVm → PolOut
  | 0, _ => .stepLimit
  | n + 1, m =>
    match words[m.pc]? with
    | none => .fault
    | some x =>
      match m.step inputs x with
      | .inl m' => PolVm.run inputs words n m'
      | .inr o => o

/-- The words of program `id` of a POLICY section (R360). -/
def policyWords (body : Bytes) (id : Nat) : Option (List Nat) :=
  let count := leAt body 0 1
  let len (k : Nat) : Nat := leAt body (8 + 4 * k + 2) 2
  match (List.range count).find? fun k => leAt body (8 + 4 * k) 1 == id with
  | none => none
  | some k =>
    let start := 8 + 4 * count + 4 * ((List.range k).map len).sum
    some ((List.range (len k)).map fun j => leAt body (start + 4 * j) 4)

/-- The state words of a program of a tenant. -/
def Die.policyWordsOf (d : Die) (tenant id : Nat) : List Nat :=
  ((d.key.policyState.find? fun p => p.1 == tenant * 64 + id).map fun p => p.2).getD (List.replicate 8 0)

def Die.setPolicyWords (d : Die) (tenant id : Nat) (st : List Nat) : Die :=
  { d with key := { d.key with policyState :=
      (d.key.policyState.filter fun p => p.1 != tenant * 64 + id) ++ [(tenant * 64 + id, st)] } }

/-- The inputs of R362. -/
def Die.policyInputs (d : Die) (opcode tenant : Nat) (o : KeyObj) (usage inLen custodians pair : Nat) : List Nat :=
  [opcode, tenant, o.handle, o.uses, usage, inLen, d.get .ENS_DOMAIN_TIME_VALUE, d.get .KFT_MINUTE_MINUTE,
   if d.has .TMP_BACKUP_STATUS_RUNNING then d.get .TMP_BACKUP_TIME_SECONDS else 0, custodians, pair, d.pos, o.origin,
   0, 0, 0]

/-- The outcome of the policy program of a key object (R239, R364): the die with what the program committed, and the DETAIL
of the refusal, none when the use may proceed. -/
def Die.evalPolicy (e : Env) (d : Die) (opcode tenant : Nat) (o : KeyObj) (usage inLen custodians pair : Nat) :
    Die × Option Nat :=
  match (d.section? 5 tenant).bind fun s => policyWords s.body o.policyId with
  | none => (d, some 0x0E)
  | some ws =>
    let vm : PolVm := { w := List.replicate 8 0, st := d.policyWordsOf tenant o.policyId, pc := 0 }
    match PolVm.run (d.policyInputs opcode tenant o usage inLen custodians pair) ws 2048 vm with
    | .allow st => (d.setPolicyWords tenant o.policyId st, none)
    | .deny imm st => (d.setPolicyWords tenant o.policyId st, some (0x0C + imm % 256 * 256))
    | .stepLimit => ((d.event .WLD_EVENT_POLICY_STEP_LIMIT).reportOf e 0x0909, some 0x0D)
    | .fault => (d, some 0x0E)

/-- Runs the policy program of a key object before a use, where it has one, and counts the evaluation and an outcome
other than ALLOW (R239, R364, R366). -/
def Die.runPolicy (e : Env) (d : Die) (opcode tenant : Nat) (o : KeyObj) (usage inLen custodians pair : Nat) :
    Die × Option Nat :=
  if !bit o.aflags 2 then (d, none)
  else
    match (d.wrap .WLD_POLICY_EVALS_COUNT 1).evalPolicy e opcode tenant o usage inLen custodians pair with
    | (d1, none) => (d1, none)
    | (d1, some x) => (d1.add .WLD_POLICY_DENIES_COUNT 1, some x)

end Sys2Proof.Machine
end

