-- ==== Sys2Proof/Machine/KeyOps.lean ====
section
/-! DEFINITION. Key objects as an operation library (R112, R230 to R242, R471): reading, checking, counting uses,
retiring, the key cache, and writing handle slots through. -/
namespace Sys2Proof.Machine

/-- The payload of a handle slot (R230), with USES as the host copy holds it. -/
def KeyObj.payload (o : KeyObj) : Bytes :=
  leBytes 1 o.type ++ leBytes 1 o.usage ++ leBytes 1 o.aflags ++ leBytes 1 o.origin ++ leBytes 1 o.policyId ++
    leBytes 1 o.param ++ leBytes 2 o.len ++ leBytes 4 o.hostUses ++ leBytes 4 o.vgen ++ slice o.material 0 96

/-! ## Extensions (R236) -/

/-- The AAD of an extension: slot bytes 0 to 15 with the USES in use, tenant and handle (R236). -/
def KeyObj.extAad (o : KeyObj) : Bytes :=
  ({ o with hostUses := o.uses } : KeyObj).payload.take 16 ++ leBytes 2 o.tenant ++ leBytes 2 o.handle

/-- Where the extension of an object lies, and its length with no tag. -/
def KeyObj.extAddr (o : KeyObj) : Nat := leAt o.material 0 8
def KeyObj.extLen (o : KeyObj) : Nat := leAt o.material 8 4

/-- The content of an object's extension; none when it fails its tag. -/
def Die.readExt (e : Env) (d : Die) (o : KeyObj) : Option Bytes :=
  gcmOpen (slice o.material 24 32) (slice o.material 12 12) o.extAad (dmaRead e d o.extAddr o.extLen ++ slice o.material 56 16)

/-- The extension descriptor and the sealed bytes for a content, under the 44 random bytes of draw `a`. -/
def sealExt (o : KeyObj) (content : Bytes) (addr a : Nat) : Bytes × Bytes :=
  let nonce := randomBytes a 12
  let key := randomBytes (a + 12) 32
  let blob := gcmSeal key nonce o.extAad content
  (leBytes 8 addr ++ leBytes 4 content.length ++ nonce ++ key ++ blob.drop content.length ++ zeros 24, blob.take content.length)

/-- The object of a tenant at a handle; an empty slot has none. -/
def Die.obj? (d : Die) (tenant handle : Nat) : Option KeyObj :=
  d.key.objs.find? fun o => o.tenant == tenant && o.handle == handle

/-- USES that is not counted (R230). -/
def uncounted : Nat := 2 ^ 32 - 1

def KeyObj.isTombstone (o : KeyObj) : Bool := o.type == 0xE0 || o.type == 0xE1
def KeyObj.volatile (o : KeyObj) : Bool := bit o.aflags 0
def KeyObj.exportable (o : KeyObj) : Bool := bit o.aflags 1
def KeyObj.extended (o : KeyObj) : Bool := bit o.aflags 3

/-- The key material itself. -/
def KeyObj.key (o : KeyObj) : Bytes := slice o.material 0 o.len

/-- A tombstone at a handle (R231). -/
def tombstone (tenant handle type : Nat) : KeyObj :=
  { tenant, handle, type, usage := 0, aflags := 0, origin := 0, policyId := 0, param := 0, len := 0, uses := 0,
    vgen := 0, material := [], ways := [], rrpv := 0, inFlight := 0, hostUses := 0, deleting := none }

/-- The function number that holds the key registers of a tenant on this die. -/
def Die.tenFn (d : Die) (tenant : Nat) : Nat := (d.fnOf? tenant).getD (tenant % 256)

/-- The tenant's key-handle quota. -/
def Die.keyQuota (d : Die) (tenant : Nat) : Nat := d.getAt .KFT_TEN_KEYS_QUOTA (d.tenFn tenant)

/-- The tenant's current volatile generation (R237). -/
def Die.vgen (d : Die) (tenant : Nat) : Nat := tget d.ens.vgens tenant

/-- The volatile generation of a tenant rises, and its cached volatile objects are zeroized (R237). -/
def Die.raiseVgen (d : Die) (tenant : Nat) : Die :=
  ({ d with ens := { d.ens with vgens := tput d.ens.vgens tenant ((d.vgen tenant + 1) % 2 ^ 32) } }).mapObjs
    (fun o => o.tenant == tenant && o.volatile) fun o => { o with ways := [] }

/-- The generation of a tenant that is removed rises (R225). -/
def Die.raiseTenGen (d : Die) (tenant : Nat) : Die :=
  { d with ens := { d.ens with gens := tput d.ens.gens tenant ((d.tenGen tenant + 1) % 2 ^ 32) } }

/-- Puts an object at its handle in place of what is there. -/
def Die.putObj (d : Die) (o : KeyObj) : Die :=
  { d with key := { d.key with objs :=
      (d.key.objs.filter fun x => !(x.tenant == o.tenant && x.handle == o.handle)) ++ [o] } }

/-- Empties a handle. -/
def Die.dropObj (d : Die) (tenant handle : Nat) : Die :=
  { d with key := { d.key with objs := d.key.objs.filter fun x => !(x.tenant == tenant && x.handle == handle) } }

/-- The payload of a handle slot as it stands. -/
def Die.handlePayload (d : Die) (tenant handle : Nat) : Bytes :=
  match d.obj? tenant handle with
  | some o => o.payload
  | none => zeros 112

/-- Writes a handle slot through to the slice (R147): at once, or when the write of it that is in flight is complete. -/
def Die.writeHandle (e : Env) (d : Die) (tenant handle rid : Nat) : Die :=
  let k := handleKey (tenant / 256) tenant handle
  if !d.servesSlice (tenant / 256) then d
  else if d.held k then d.waitInterlock k rid
  else d.beginWrite e k [(0, d.handlePayload tenant handle)] rid

/-- A handle slot's payload as an object (R230). -/
def parseObj (tenant handle : Nat) (b : Bytes) : KeyObj :=
  { tombstone tenant handle (leAt b 0 1) with
      usage := leAt b 1 1, aflags := leAt b 2 1, origin := leAt b 3 1, policyId := leAt b 4 1, param := leAt b 5 1, len := leAt b 6 2,
      uses := leAt b 8 4, hostUses := leAt b 8 4, vgen := leAt b 12 4, material := slice b 16 96 }

/-! ## Extensions that change with their slot (R236) -/

/-- The bitmap line of a page of function `fn`'s tracked range: 512 pages (R285). -/
def Die.markLine (d : Die) (fn page : Nat) : Nat := (page - d.getAt .TEN_MIG_RANGE_BASE_VALUE fn / 4096) / 512

/-- Marks one page in the active bitmap in host memory: read, combined and written back (R285). -/
def Die.mergeMark (e : Env) (d : Die) (fn page : Nat) : Die :=
  let k := page - d.getAt .TEN_MIG_RANGE_BASE_VALUE fn / 4096
  let a := d.getAt .TEN_MIG_BITMAP_VALUE fn + k / 8
  d.dmaWrite a (leBytes 1 (leAt (dmaRead e d a 1) 0 1 ||| 2 ^ (k % 8)))

/-- Lines of the die's mark cache in use, over all its functions: function and line (R285). -/
def Die.markLines (d : Die) : List (Nat × Nat) :=
  (d.ten.ctl.flatMap fun c => c.2.cached.map fun p => (c.1, d.markLine c.1 p)).eraseDups

/-- One mark in the cache of 4,096 lines (R285). A mark that finds no line free has one merged into its bitmap first: the one listed
first (DESIGN CHOICE, log 72). -/
def Die.putMark (e : Env) (d : Die) (fn page : Nat) : Die :=
  let ls := d.markLines
  let d1 : Die :=
    if ls.contains (fn, d.markLine fn page) || decide (ls.length < 4096) then d
    else match ls with
      | [] => d
      | l :: _ =>
        let out := (d.ctl l.1).cached.filter fun p => d.markLine l.1 p == l.2
        (out.foldl (fun d p => d.mergeMark e l.1 p) d).updCtl l.1 fun c => { c with cached := c.cached.filter fun p => !out.contains p }
  d1.updCtl fn fun c => { c with cached := c.cached ++ [page], marks := if c.marks.contains page then c.marks else c.marks ++ [page] }

/-- A MIG_HARVEST for function `fn` has been fetched and has not run: what is marked now belongs to its bitmap (R286). -/
def Die.harvestDue (d : Die) (fn : Nat) : Bool :=
  d.que.reqs.any fun r => r.fn? == some 0 && r.opcode == 0xF1 && r.stage == .fetched && r.byte 56 == fn

/-- Marks pages of function `fn`, each once in a bitmap. -/
def Die.putMarks (e : Env) (d : Die) (fn : Nat) (pages : List Nat) : Die :=
  if d.harvestDue fn then d.updCtl fn fun c => { c with late := c.late ++ pages.filter fun p => !c.late.contains p }
  else (pages.filter fun p => !(d.ctl fn).marks.contains p).foldl (fun d p => d.putMark e fn p) d

/-- Bus pages that a tenant's write touches are marked dirty (R285). -/
def Die.markDirty (e : Env) (d : Die) (tenant addr len : Nat) : Die :=
  match d.fnOf? tenant with
  | none => d
  | some fn =>
    if len == 0 || !d.hasAt .TEN_STATE_LOGGING fn then d
    else
      let base := d.getAt .TEN_MIG_RANGE_BASE_VALUE fn
      let pages := (List.range ((addr + len - 1) / 4096 + 1 - addr / 4096)).map fun k => addr / 4096 + k
      let inside := pages.filter fun p => decide (base ≤ p * 4096) &&
        decide (p * 4096 < base + d.getAt .TEN_MIG_RANGE_LEN_VALUE fn)
      let d1 := d.putMarks e fn inside
      if inside.length < pages.length then d1.addAt .TEN_MIG_UNTRACKED_VALUE fn 1 else d1

/-- A write to host memory on a tenant's behalf (R285). -/
def Die.tenantWrite (e : Env) (d : Die) (tenant addr : Nat) (b : Bytes) : Die :=
  (d.dmaWrite addr b).markDirty e tenant addr b.length

/-- The slot bytes that an extension binds change from those of `old` to those of `new`: the extension is sealed again, with a fresh
key (log 16). One that no longer opens stays as it is. -/
def Die.resealExt (e : Env) (d : Die) (old new : KeyObj) : Die × KeyObj :=
  if !new.extended || old.extAad == new.extAad then (d, new)
  else match d.readExt e old with
    | none => (d, new)
    | some c =>
      let x := sealExt new c new.extAddr d.rng.draws
      ((d.draw 44).tenantWrite e new.tenant new.extAddr x.2, { new with material := x.1 })

/-! ## Reading a handle slot -/

/-- Reads a handle slot that the key cache does not hold (R112, R145): its path and tag are checked, a slot of a slice that another
die wrote is taken in, and a volatile object of an older generation gives way to an EXPIRED tombstone (R237). -/
def Die.loadKey (e : Env) (d : Die) (tenant handle : Nat) : Die × Option StoreFault :=
  let home := tenant / 256
  let k := handleKey home tenant handle
  if d.keyQuota tenant ≤ handle || d.key.esk.isNone || d.bucketPoisoned k || (d.obj? tenant handle).any fun o => !o.ways.isEmpty then (d, none)
  else
    let read := if d.servesSlice home && !d.knownEmpty k then d.checkBucket e k else (d, none)
    match read with
    | (d1, some f) => (d1.storeFault e tenant home f, some f)
    | (d1, none) =>
      let i := d1.slotIndex k 0
      let new := (d1.mlf.foreign.any fun f => f.1 == home) && !d1.mlf.taken.contains k
      let d2 := if !new then d1
        else
          let d' : Die := { d1 with mlf := { d1.mlf with taken := d1.mlf.taken ++ [k] } }
          match d1.openSlot e home i (d1.childVersion home 0 i) with
          | some b => if leAt b 0 1 = 0 then d' else d'.putObj (parseObj tenant handle b)
          | none => d'
      match d2.obj? tenant handle with
      | some o =>
        if o.volatile && !o.isTombstone && o.vgen != d2.vgen tenant
        then ((d2.putObj (tombstone tenant handle 0xE0)).writeHandle e tenant handle 0, none) else (d2, none)
      | none => (d2, none)

/-- A refusal, or an object that may be read. -/
inductive KeyCheck where
  | bad (st : Status) (detail : Nat)
  | ok (o : KeyObj)
  deriving DecidableEq, Repr

/-- Reads the object at a handle (R112, R231, R237, R158): an empty handle, one at or above the quota, a deleted one,
a tombstone, an expired volatile object and a poisoned slot refuse; without ESK the key is expired (R228). -/
def Die.readKey (d : Die) (tenant handle : Nat) : KeyCheck :=
  if d.keyQuota tenant ≤ handle then .bad .noSession 4
  else if d.key.esk.isNone then .bad .keyExpired 0
  else if d.bucketPoisoned (handleKey (tenant / 256) tenant handle) then .bad .storeIntegrity 0
  else match d.obj? tenant handle with
    | none => .bad .noSession 4
    | some o =>
      if o.type == 0 || o.deleting.isSome then .bad .noSession 4
      else if o.type == 0xE1 then .bad .keyExhausted 0
      else if o.type == 0xE0 || (o.volatile && o.vgen != d.vgen tenant) then .bad .keyExpired 0
      else .ok o

/-- Usage bits (R233). -/
def useEncrypt : Nat := 0
def useDecrypt : Nat := 1
def useSign : Nat := 2
def useVerify : Nat := 3
def useDerive : Nat := 4
def useWrap : Nat := 5
def useUnwrap : Nat := 6
def useAgree : Nat := 7

/-- Reads a key for an operation: its TYPE must fit (R471), then its usage mask must allow the use (R233). -/
def Die.checkKey (d : Die) (tenant handle : Nat) (fits : KeyObj → Bool) (usage : Nat) : KeyCheck :=
  match d.readKey tenant handle with
  | .bad st x => .bad st x
  | .ok o =>
    if !fits o then .bad .paramRejected 0x16
    else if !bit o.usage usage then .bad .policyDeny 0
    else .ok o

/-- Units of the key cache that an object takes (R240). -/
def KeyObj.units (o : KeyObj) : Nat := if o.extended || decide (64 < 16 + o.len) then 2 else 1

/-- The key cache set of a handle (R240) (log 28). -/
def Die.keySet (d : Die) (tenant handle : Nat) : Nat := sipHash (d.k1 d.pos) (leBytes 2 tenant ++ leBytes 2 handle) % 4096

def KeyObj.id (o : KeyObj) : Nat := 65536 * o.tenant + o.handle

/-- The entries of a key cache set. -/
def Die.keyEntries (d : Die) (set : Nat) : List CacheEntry :=
  (d.key.objs.filter fun o => !o.ways.isEmpty && d.keySet o.tenant o.handle == set).map fun o =>
    { id := o.id, ways := o.ways, rrpv := o.rrpv, pinned := o.inFlight != 0 }

/-- Brings an object into the key cache: a hit sets its value to 0, a fill starts at 2 and evicts; an evicted object
with counted uses has its exact USES written through (R235). None when every unit of the set is pinned. -/
def Die.cacheKey (e : Env) (d : Die) (o : KeyObj) : Option Die :=
  if !o.ways.isEmpty then some (d.mapObjs (fun x => x.id == o.id) fun x => { x with rrpv := 0 })
  else
    let es := d.keyEntries (d.keySet o.tenant o.handle)
    match makeRoom o.units es.length es with
    | none => none
    | some left =>
      let gone := es.filter fun x => !left.any fun y => y.id == x.id
      let d1 := d.mapObjs (fun x => gone.any fun y => y.id == x.id) fun x => { x with ways := [], hostUses := x.uses }
      let d2 := gone.foldl (fun d y => d.writeHandle e (y.id / 65536) (y.id % 65536) 0) d1
      let d3 := d2.mapObjs (fun x => left.any fun y => y.id == x.id) fun x =>
        { x with rrpv := ((left.find? fun y => y.id == x.id).map fun y => y.rrpv).getD x.rrpv }
      some (d3.mapObjs (fun x => x.id == o.id) fun x => { x with ways := (freeWays left).take o.units, rrpv := 2 })

/-- USES of the host copy after a use that leaves `u` (R235). -/
def hostUsesFor (u host : Nat) : Nat :=
  if u = uncounted then host else if u ≤ 4096 then u else if u < host then u / 4096 * 4096 else host

/-- How an attempt to count a use ends: counted, refused, or waiting for a unit of the key cache (R240). -/
inductive UseResult where
  | counted (d : Die)
  | refused (d : Die) (st : Status) (detail : Nat)
  | waits

/-- Dispatches a use of a key (R234, R239): the policy program, then the count. A host copy that the count must lower is written
first: the request's result waits for that (R235). The request keeps the use until it completes. -/
def Die.takeUse (e : Env) (d : Die) (r : Req) (handle usage : Nat) : UseResult :=
  match d.loadKey e r.tenant handle with
  | (d, some f) => .refused d f.status 0
  | (d, none) =>
    match d.readKey r.tenant handle with
    | .bad st x => .refused d st x
    | .ok o =>
      match d.cacheKey e o with
      | none => .waits
      | some d0 =>
        match if r.allowed then (d0, none) else d0.runPolicy e r.opcode r.tenant o (2 ^ usage) r.inLen 0 r.pair with
        | (d1, some x) => .refused d1 .policyDeny x
        | (d1, none) =>
          if o.uses == 0 then .refused d1 .keyExhausted 0
          else
            let counted := o.uses != uncounted
            let u := if counted then o.uses - 1 else o.uses
            let h := hostUsesFor u o.hostUses
            let x := d1.resealExt e ((d1.obj? r.tenant handle).getD o) { (d1.obj? r.tenant handle).getD o with uses := u }
            let d2 := (x.1.putObj { x.2 with hostUses := h, inFlight := x.2.inFlight + 1 })
            let d3 := if h != o.hostUses then d2.writeHandle e r.tenant handle r.rid else d2
            .counted (d3.updReq r.rid fun y => { y with use := some (r.tenant, handle, counted), allowed := false })

/-- A key whose USES is 0 and which no use in flight holds is zeroized: an EXHAUSTED tombstone (R234). -/
def Die.retire (e : Env) (d : Die) (tenant handle : Nat) : Die :=
  match d.obj? tenant handle with
  | none => d
  | some o =>
    if o.uses == 0 && o.inFlight == 0 && !o.isTombstone && o.deleting.isNone then
      ((d.putObj (tombstone tenant handle 0xE1)).addAt .KEY_TEN_EXHAUSTED_COUNT (d.tenFn tenant) 1).writeHandle e tenant
        handle 0
    else d

/-- The place, beyond every handle, of an object under the KEY_DELETE request `rid`: its handle is empty from the request's fetch on,
and uses in flight keep the object here (R241). -/
def dyingHandle (rid : Nat) : Nat := 65536 + rid

/-- Moves an object under KEY_DELETE out of its handle, with the uses in flight that hold it. -/
def Die.beginDelete (d : Die) (o : KeyObj) (rid : Nat) : Die :=
  let h := dyingHandle rid
  let d1 := (d.dropObj o.tenant o.handle).putObj { o with handle := h, ways := [], deleting := some rid }
  let holds (r : Req) : Bool := r.use.any fun u => u.1 == o.tenant && u.2.1 == o.handle
  { d1 with que := { d1.que with reqs := updateWhere holds (fun r => { r with use := r.use.map fun u => (u.1, h, u.2.2) }) d1.que.reqs } }

/-- The last use in flight of an object under KEY_DELETE is over (R241): the object is zeroized, its slot is written as its handle
stands, and the delete completes when that is written. -/
def Die.finishDelete (e : Env) (d : Die) (tenant handle slot : Nat) : Die :=
  match d.obj? tenant handle with
  | none => d
  | some o =>
    match o.deleting with
    | none => d
    | some rid =>
      if o.inFlight != 0 then d
      else ((d.dropObj tenant handle).setStage rid (.writing (Reply.done 0))).writeHandle e tenant slot rid

/-- The object that a request's dispatched use holds (R234, R241). -/
def Die.usedObj (d : Die) (r : Req) : Option KeyObj :=
  match ((d.req? r.rid).getD r).use with
  | some u => d.obj? u.1 u.2.1
  | none => none

/-- Statuses that return the use of a key (R234, R71). -/
def Status.returnsUse : Status → Bool
  | .busy | .faultRetry | .rngNotReady | .accessFault | .badDescriptor => true
  | _ => false

/-- The handle that a KEY_DELETE names. -/
def Die.deletedHandle (d : Die) (handle : Nat) : Nat :=
  if handle < 65536 then handle else ((d.req? (handle - 65536)).map fun r => leAt r.desc 48 2).getD handle

/-- A request that holds a use of a key is over: the use is returned or stays counted, and the key may retire. -/
def Die.settleUse (e : Env) (d : Die) (r : Req) (back : Bool) : Die :=
  match r.use with
  | none => d
  | some (t, h, counted) =>
    let d0 := d.updReq r.rid fun x => { x with use := none }
    match d0.obj? t h with
    | none => d0
    | some o =>
      let x := d0.resealExt e o { o with uses := if back && counted && o.uses != uncounted then o.uses + 1 else o.uses }
      ((x.1.putObj { x.2 with inFlight := o.inFlight - 1 }).retire e t h).finishDelete e t h (d0.deletedHandle h)

/-- Slot writes of a request, or a wait for one, are outstanding. -/
def Die.writesPending (d : Die) (rid : Nat) : Bool := d.writesFor rid || d.kft.ilWait.any fun w => w.2 == rid

/-! ## Measurements (R223) -/

/-- A measurement register (R223). -/
def Die.meas (d : Die) (i : Nat) : Bytes := (List.range 6).flatMap fun j => leBytes 8 (d.getAt2 .KEY_MEAS_DIGEST i j)

/-- Replaces a measurement register by the digest of itself and `data` (R223). -/
def Die.extendMeas (d : Die) (i : Nat) (data : Bytes) : Die :=
  let m := sha384 (d.meas i ++ data)
  (List.range 6).foldl (fun d j => d.setAt2 .KEY_MEAS_DIGEST i j (leAt m (8 * j) 8)) d

/-- The measurements that a mask selects, in register order. -/
def Die.measMasked (d : Die) (mask : Nat) : Bytes := (List.range 8).flatMap fun i => if bit mask i then d.meas i else []

/-- The secure world writes a measurement register: MEAS0 to MEAS6 are locked before the physical function is ready, and MEAS7 is only
extended. The data of the extension are the 4 bytes written (DESIGN CHOICE, log 188). -/
def Die.writeMeas (d : Die) (i v m : Nat) : Die :=
  if d.key.measLocked && i != 7 then d else d.extendMeas i (leBytes 4 (if m % 2 ^ 32 = 0 then v / 2 ^ 32 else v))

end Sys2Proof.Machine
end

