-- ==== Sys2Proof/Machine/Replies.lean ====
section
/-! DEFINITION. Notification rings and reply rings: entries, order, refusals, write-backs and vectors (R49 to R61,
R68), and the completion of a request. -/
namespace Sys2Proof.Machine

/-- No DMA write is issued for the function: it has received an FLR (R281). -/
def Die.muted (d : Die) (fn : Nat) : Bool := (d.ctl fn).cause == 3

/-! ## Notification ring (R60) -/

/-- Free entries of the notification ring. -/
def Die.ntfSpace (d : Die) (fn : Nat) : Nat :=
  2 ^ d.getAt .QUE_NTF_CTL_SIZE_LOG2 fn - idxSub (d.getAt .QUE_NTF_TAIL_INDEX fn) (d.ntfState fn).head

/-- One entry is lost and counted (R60). -/
def Die.ntfLose (d : Die) (fn : Nat) : Die := d.addAt .QUE_NTF_LOST_COUNT fn 1

/-- The bytes of an entry (R60) but for PHASE. `data` is EVENT_DATA. -/
def ntfBytes (event pair : Nat) (phase : Bool) (pos count : Nat) (tag : Bytes) (session : Nat) (data : Bytes) : Bytes :=
  leBytes 1 event ++ leBytes 1 pair ++ [0] ++ leBytes 1 (ofBool phase * 128 + pos % 8) ++ leBytes 4 count ++ tag ++
    leBytes 8 session ++ slice data 0 8

/-- Writes the notification tail back and signals vector 16 as QUE_NTF_CTL.IRQ_TIME gives (R60, R68). -/
def Die.ntfAnnounce (e : Env) (d : Die) (fn : Nat) : Die :=
  let a := d.getAt .QUE_NTF_WB_ADDR fn / 4 * 4
  let d1 :=
    if d.hasAt .QUE_NTF_CTL_WB_EN fn then
      if d.dmaOk (d.tenantOf fn) a 4 true then d.tenantWrite e (d.tenantOf fn) a (leBytes 4 (d.getAt .QUE_NTF_TAIL_INDEX fn))
      else (d.dmaFault e (d.tenantOf fn) a 4 true).errorVector fn
    else d
  if d1.getAt .QUE_NTF_CTL_IRQ_TIME fn = 0 then d1.signal fn 16
  else d1.setNtf fn { d1.ntfState fn with sinceMsg := (d1.ntfState fn).sinceMsg + 1 }

/-- Writes an entry where the ring has space; a write that the MPU refuses loses the entry (R60). -/
def Die.ntfPut (e : Env) (d : Die) (fn : Nat) (mk : Bool → Bytes) : Die :=
  let size := 2 ^ d.getAt .QUE_NTF_CTL_SIZE_LOG2 fn
  let tail := d.getAt .QUE_NTF_TAIL_INDEX fn
  let a := d.getAt .QUE_NTF_BASE_ADDR fn / 4096 * 4096 + tail % size * 32
  if d.dmaOk (d.tenantOf fn) a 32 true then
    let d1 := (d.tenantWrite e (d.tenantOf fn) a (mk (tail / size % 2 == 0))).setAt .QUE_NTF_TAIL_INDEX fn (tail + 1)
    (d1.count 2 3 (d.tenantOf fn) 1).ntfAnnounce e fn
  else ((d.dmaFault e (d.tenantOf fn) a 32 true).ntfLose fn).errorVector fn

/-- When space has returned: the NOTIFY_LOST entry with the number lost since the previous one (R60). -/
def Die.ntfReportLost (e : Env) (d : Die) (fn : Nat) : Die :=
  let n := d.getAt .QUE_NTF_LOST_COUNT fn
  if n = 0 || !d.hasAt .QUE_NTF_CTL_ENABLE fn || d.ntfSpace fn == 0 then d
  else
    let d1 := d.ntfPut e fn fun ph => ntfBytes 5 0xFF ph d.pos n (zeros 8) 0 (zeros 8)
    if d1.getAt .QUE_NTF_TAIL_INDEX fn = d.getAt .QUE_NTF_TAIL_INDEX fn then d1
    else d1.subAt .QUE_NTF_LOST_COUNT fn n

/-- A notification for a tenant (R59 to R61) with the ORIGIN given: written, or counted as lost when the ring is stopped or
full; for a tenant of another die, sent there over the ring. A tenant that wants no AGED entries gets none (R133). Entries
lost before it are reported first, where there is space: an entry whose write the MPU refused is so reported by the next
entry (R60). -/
def Die.notifyFrom (e : Env) (d : Die) (origin tenant event pair count : Nat) (tag : Bytes) (session : Nat) (data : Bytes) : Die :=
  match d.fnOf? tenant with
  | none => d.sendRing .tenant (some (tenant / 256)) (leBytes 2 tenant ++ ntfBytes event pair false origin count tag session data)
  | some fn =>
    if d.muted fn || (event == 2 && !d.hasAt .KFT_TEN_CFG_AGED_NTF fn) then d
    else
      let d1 := d.ntfReportLost e fn
      if !d1.hasAt .QUE_NTF_CTL_ENABLE fn || d1.ntfSpace fn == 0 then d1.ntfLose fn
      else d1.ntfPut e fn fun ph => ntfBytes event pair ph origin count tag session data

/-- A notification that another die sent for a tenant of this one: the entry without its PHASE, after the tenant number (R60). -/
def Die.notifyReceived (e : Env) (d : Die) (tenant : Nat) (b : Bytes) : Die :=
  let x := b.drop 2
  d.notifyFrom e (leAt x 3 1 % 8) tenant (leAt x 0 1) (leAt x 1 1) (leAt x 4 4) (slice x 8 8) (leAt x 16 8) (slice x 24 8)

/-- A notification of this die. -/
def Die.notify (e : Env) (d : Die) (tenant event pair count : Nat) (tag : Bytes) (session : Nat) (data : Bytes) : Die :=
  d.notifyFrom e d.pos tenant event pair count tag session data


/-! ## Errors of a pair (R52, R53) -/

/-- The error vector and the RING_ERROR notification of a pair. -/
def Die.ringError (e : Env) (d : Die) (fn pair code : Nat) : Die :=
  (d.errorVector fn).notify e (d.tenantOf fn) 3 pair 0 (zeros 8) 0 (leBytes 1 code)

/-- The pair enters ERROR (R52). -/
def Die.pairError (e : Env) (d : Die) (fn pair code : Nat) : Die :=
  ((d.setAt2 .QUE_PAIR_STATUS_STATE fn pair 3).setAt2 .QUE_PAIR_STATUS_ERR_CODE fn pair code).ringError e fn pair code

/-- A refused reply write or tail write-back (R53). -/
def Die.replyRefused (e : Env) (d : Die) (fn pair : Nat) : Die :=
  match d.getAt2 .QUE_PAIR_STATUS_STATE fn pair with
  | 1 => d.pairError e fn pair 4
  | 2 =>
    if (d.pairState fn pair).drainReported then d
    else (d.setPair fn pair { d.pairState fn pair with drainReported := true }).ringError e fn pair 4
  | _ => d

/-! ## Replies (R55, R56, R58, R68) -/

/-- A reply entry: in the layout of R55, or for a steward request in the TY6C reply layout (R288). -/
def Req.replyEntry (r : Req) (idx : Nat) (rep : Reply) (phase : Bool) : Bytes :=
  let native := replyBytes r idx rep phase
  if r.orig.isEmpty then native else (List.range 32).map (Config.stewardReplyByte r.orig native)

/-- Writes the reply of a request of a ring pair, its tail write-back, and signals the vector. The request is then out
of flight. Of a reply whose write the MPU refuses R53 says that the write is lost. DESIGN CHOICE (log 153): the reply tail moves past
it and is written back, since its entry belongs to the request (R50), and it counts toward no message. -/
def Die.writeReply (e : Env) (d : Die) (r : Req) (rep : Reply) : Die :=
  match r.origin with
  | .ring .. => d
  | .pair fn pair idx =>
    if d.muted fn then d.dropReq r.rid else
    let t := d.tenantOf fn
    let size := 2 ^ d.getAt2 .QUE_PAIR_CTL_SIZE_LOG2 fn pair
    let tail := d.getAt2 .QUE_RPL_TAIL_INDEX fn pair
    let a := d.getAt2 .QUE_RPL_BASE_ADDR fn pair / 4096 * 4096 + tail % size * 32
    let ok := d.dmaOk t a 32 true
    let d1 := if ok then d.tenantWrite e t a (r.replyEntry idx rep (tail / size % 2 == 0))
              else (d.dmaFault e t a 32 true).replyRefused e fn pair
    let d2 := (d1.setAt2 .QUE_RPL_TAIL_INDEX fn pair (tail + 1)).dropReq r.rid
    let w := d2.getAt2 .QUE_RPL_WB_ADDR fn pair / 4 * 4
    let d3 :=
      if d2.hasAt2 .QUE_PAIR_CTL_WB_EN fn pair then
        if d2.dmaOk t w 4 true then d2.tenantWrite e t w (leBytes 4 (tail + 1))
        else (d2.dmaFault e t w 4 true).replyRefused e fn pair
      else d2
    if ok then
      let p := d3.pairState fn pair
      let n := p.sinceMsg + 1
      let d4 := d3.count 2 2 t 1
      if r.irq || decide (d3.getAt2 .QUE_RPL_IRQ_COUNT fn pair ≤ n)
      then (d4.setPair fn pair { p with sinceMsg := 0 }).signal fn pair
      else d4.setPair fn pair { p with sinceMsg := n }
    else d3

/-- The reply of `r` may be written now: nothing that R58 puts before it is outstanding. -/
def Die.mayReply (d : Die) (r : Req) : Bool :=
  match r.origin with
  | .ring .. => false
  | .pair fn pair _ =>
    if d.hasAt2 .QUE_PAIR_CTL_IN_ORDER fn pair then (d.earlier r).isEmpty
    else !(d.earlier r).any fun x => r.behind.contains x.rid

/-- Writes one ready reply of a pair, the oldest that may be written. -/
def Die.flushOne (e : Env) (d : Die) (fn pair : Nat) : Die :=
  match d.que.reqs.find? fun r =>
      (match r.origin with | .pair f p _ => f == fn && p == pair | .ring .. => false) && r.done && d.mayReply r with
  | some r => match r.stage with | .ready rep => d.writeReply e r rep | _ => d
  | none => d

/-- Writes the ready replies of a pair, as many as may be written. -/
def Die.flushPair (e : Env) (fn pair : Nat) : Nat → Die → Die
  | 0, d => d
  | n + 1, d => Die.flushPair e fn pair n (d.flushOne e fn pair)

/-- The request counts in a running quiesce: QUIESCED, or ABORTED where a reset stopped it (R279, R281). -/
def Die.countStopped (d : Die) (r : Req) (rep : Reply) : Die :=
  match r.fn? with
  | some fn =>
    if d.getAt .TEN_STATE_STATE fn == 3 && rep.status == .quiesced ||
       d.getAt .TEN_STATE_STATE fn == 5 && rep.status == .aborted
    then d.updCtl fn fun c => { c with stopped := c.stopped + 1 } else d
  | none => d

/-- The curve that a CURVE_UNLOAD names is gone; another request leaves them as they are (R194). -/
def Die.takeCurve (d : Die) (rid : Nat) : Die :=
  match d.req? rid with
  | some r => { d with con := { d.con with curves := d.con.curves.filter fun c => !r.unloads c.tenant c.id } }
  | none => d

/-- A request that others wait for is over, ABORTED by the cancel request `by_` (0 for none); one that waits for nothing more
completes OK, with its count in DETAIL byte 12 where it counts (R108, R187), and with its curve unloaded (R194). -/
def Die.settleWaiters (d : Die) (rid by_ : Nat) : Die :=
  let ws := d.que.waiters.map fun w =>
    if w.on.contains rid then { w with on := w.on.filter (· != rid), count := w.count + ofBool (w.rid == by_) } else w
  let d1 := { d with que := { d.que with waiters := ws.filter fun w => !w.on.isEmpty } }
  (ws.filter fun w => w.on.isEmpty).foldl (fun d w =>
    (d.takeCurve w.rid).setStage w.rid (.writing { Reply.done 0 with detail := if w.counts then min w.count 255 else 0 })) d1

/-- Jobs that completed ABORTED or QUIESCED (R195, R219). -/
def Die.countAborts (d : Die) (r : Req) (rep : Reply) : Die :=
  if rep.status != .aborted && rep.status != .quiesced then d
  else if r.opcode / 16 == 3 && r.opcode != 0x3F then d.wrap .CON_ABORT_COUNT_COUNT 1
  else d

/-- A steward request whose translation has another native request left goes on with it (R288). -/
def Die.nextNative (d : Die) (rid : Nat) : Die :=
  d.updReq rid fun r =>
    { r with
      desc := r.rest.headD [], rest := r.rest.tail, stage := .fetched, stop := none, use := none, allowed := false, spoiled := none,
      work := [], worked := false, relaned := false }

/-- A completion gives the key use of the request back (R71, R234): by its status, or, of a record that another die worked on, where it
ended before it had a lane there (log 158). -/
def Req.givesBack (r : Req) (st : Status) : Bool :=
  st.returnsUse || (r.stage == .forwarded && r.opcode / 16 == 1 && st != .ok && st != .tamperHalt)

/-- The results of a finished job are delivered: its context is released (R165, R196). -/
def Die.releaseCtx (d : Die) (rid : Nat) : Die :=
  let stays (at_ : Nat) (p : JobPlace) : Bool := at_ != rid || (match p with | .storing _ => false | _ => true)
  { d with con := { d.con with jobs := d.con.jobs.filter fun j => stays j.rid j.place },
           ntt := { d.ntt with jobs := d.ntt.jobs.filter fun j => stays j.rid j.place } }

/-- RELANED of a request whose work was repeated on another unit (R189). -/
def Reply.repeated (rep : Reply) (again : Bool) : Reply :=
  if again && rep.status != .faultRetry then { rep with flags := rep.flags ||| flagRelaned } else rep

/-- Zeroizes a handshake context and frees its entry. -/
def Die.dropCtx (d : Die) (id : Nat) : Die := { d with ntt := { d.ntt with ctxs := d.ntt.ctxs.filter fun c => c.ctxId != id } }

/-- Outcomes of a step that leave the context and its blob as they are (R209). -/
def keepsCtx (op : Nat) (st : Status) (detail : Nat) : Bool :=
  match st with
  | .ok | .busy | .faultRetry | .rngNotReady | .accessFault | .badDescriptor | .aborted | .tamperHalt | .quiesced => true
  | .authFail => op == 0x53
  | .paramRejected => detail % 256 == 0x16
  | _ => false

/-- A handshake step ends otherwise than OK: the context that it has taken up is freed, or stays as it was, which is no context where
the step would have opened it (R209). -/
def Die.endStep (d : Die) (r : Req) (rep : Reply) : Die :=
  match d.ntt.ctxs.find? fun c => c.busy == r.rid with
  | none => d
  | some c =>
    if rep.status == .ok || r.opcode / 16 != 5 then d
    else if !keepsCtx r.opcode rep.status rep.detail then (d.dropCtx c.ctxId).wrap .NTT_HS_FAILED_COUNT 1
    else if r.opcode == 0x50 || r.opcode == 0x58 then d.dropCtx c.ctxId else d

/-- A request completes: a key use it holds is settled, its reply is ready, and is written as soon as the order rules allow;
the completion of a forwarded request waits for the flush read (R57). `pos` becomes this die's position, but where another
die did the work. -/
def Die.completeCore (e : Env) (d : Die) (r : Req) (rep : Reply) : Die :=
  let cur := (d.req? r.rid).getD r
  let rep := match cur.spoiled with | some st => Reply.fail st 0 | none => rep
  let rep := (if r.stage == .forwarded then rep else { rep with pos := d.pos }).repeated cur.relaned
  let d0 := (((d.releaseCtx r.rid).endStep r rep).settleUse e cur (r.givesBack rep.status)).settleWaiters r.rid (if rep.status == .aborted then cur.stopBy else 0)
  let d1 := ((d0.setStage r.rid (.ready rep)).countStopped r rep).countAborts r rep
  if rep.status == .ok && !cur.rest.isEmpty then d0.nextNative r.rid
  else match r.origin with
  | .pair fn pair _ => Die.flushPair e fn pair d1.que.reqs.length d1
  | .ring .. =>
    { d1 with ens := { d1.ens with flushing := d1.ens.flushing ++
      [(r.rid, leBytes 1 rep.status.code ++ leBytes 1 rep.flags ++ leBytes 1 rep.pos ++ leBytes 5 rep.length ++
        leBytes 4 rep.detail ++ leBytes 8 rep.session)] } }

/-- The reply a request holds back until its slot writes are complete, when they are. -/
def Die.writtenReply (d : Die) (r : Req) : Option Reply :=
  match r.stage with
  | .writing rep => if d.writesPending r.rid then none else some rep
  | _ => none

/-- Completes the requests whose slot writes are all complete (R123, R147). -/
def Die.releaseWritten (e : Env) (d : Die) : Die :=
  d.que.reqs.foldl (fun d r =>
    match (d.req? r.rid).bind d.writtenReply with
    | some rep => d.completeCore e r rep
    | none => d) d

/-- A request completes; what its completion lets complete follows. -/
def Die.complete (e : Env) (d : Die) (r : Req) (rep : Reply) : Die := (d.completeCore e r rep).releaseWritten e

/-- A request is done but for slot writes that must be complete before it is reported (R123). -/
def Die.completeWritten (e : Env) (d : Die) (r : Req) (rep : Reply) : Die :=
  (d.setStage r.rid (.writing rep)).releaseWritten e

/-- Completes with a status and a DETAIL word. -/
def Die.fail (e : Env) (d : Die) (r : Req) (st : Status) (detail : Nat) : Die := d.complete e r (Reply.fail st detail)

/-- Completes the request named `rid`, if it is in flight. -/
def Die.completeRid (e : Env) (d : Die) (rid : Nat) (rep : Reply) : Die :=
  match d.req? rid with
  | some r => d.complete e r rep
  | none => d

/-- Life-cycle state Scrap answers every request POLICY_DENY (R415). -/
def Die.scrapped (d : Die) : Bool := d.get .LCS_STATE_STATE == 6

/-- Handles the request `rid` by its opcode `op`: it must be fetched, unhandled and allowed to start (R58). Reserved
header bits complete it BAD_DESCRIPTOR (R63), Scrap POLICY_DENY (R415); `k` does the rest (log 44). -/
def Die.handle (e : Env) (d : Die) (rid op : Nat) (k : Req → Die) : Die :=
  match d.req? rid with
  | none => d
  | some r =>
    if r.opcode != op || r.stage != .fetched || !d.startable r || d.untranslated r then d
    else if d.scrapped then d.fail e r .policyDeny 0x0F
    else if !r.headerOk then d.fail e r .badDescriptor 1
    else k r

/-- The DMA checks of R64 for the common body, before any byte is read or written; `k` goes on. -/
def Die.rangesOk (e : Env) (d : Die) (r : Req) (k : Die) : Die :=
  if !r.lengthsOk then d.fail e r .badDescriptor 2
  else if !d.dmaOk r.tenant r.inAddr r.inLen false then
    (d.dmaFault e r.tenant r.inAddr r.inLen false).fail e r .accessFault 0
  else if !d.dmaOk r.tenant r.outAddr r.outLen true then
    (d.dmaFault e r.tenant r.outAddr r.outLen true).fail e r .accessFault 0
  else k.port 0 r.inLen

/-- A key that a request needs (R112, R145): its handle slot is read, `check` judges what stands there, and `k` goes on with the object.
A slot that cannot be read, and a key that the check refuses, complete the request. -/
def Die.withKeyOf (e : Env) (d : Die) (r : Req) (tenant handle : Nat) (check : Die → KeyCheck) (k : Die → KeyObj → Die) : Die :=
  match d.loadKey e tenant handle with
  | (d1, some f) => d1.fail e r f.status 0
  | (d1, none) =>
    match check d1 with
    | .bad st x => d1.fail e r st x
    | .ok o => k d1 o

/-- A key of the request's own tenant. -/
def Die.withKey (e : Env) (d : Die) (r : Req) (handle : Nat) (check : Die → KeyCheck) (k : Die → KeyObj → Die) : Die :=
  d.withKeyOf e r r.tenant handle check k

/-- The request's function takes no output: it has received an FLR. -/
def Die.mutedReq (d : Die) (r : Req) : Bool := match r.fn? with | some fn => d.muted fn | none => false

/-- Writes output of a request for its tenant. -/
def Die.output (e : Env) (d : Die) (r : Req) (addr : Nat) (b : Bytes) : Die :=
  if d.mutedReq r then d else d.tenantWrite e r.tenant addr b

/-- Completes OK with an output written at OUT_ADDR, after the output and before nothing else (R57). -/
def Die.finishOut (e : Env) (d : Die) (r : Req) (out : Bytes) : Die :=
  (d.output e r r.outAddr out).complete e r (Reply.done out.length)

/-! ## Random values (R264, R267) -/

/-- How a draw ends: taken, with the number of its first byte; refused; or held until the generator is READY and its
queue holds the bytes. -/
inductive DrawResult where
  | drawn (d : Die) (at_ : Nat)
  | refused
  | held (d : Die)

/-- A request waits for random values, of the full-entropy queue where `full` says so; it does no more. -/
def Die.holdDraw (d : Die) (rid n : Nat) (full : Bool) : Die :=
  if d.rng.waits.any fun w => w.rid == rid then d
  else { d with rng := { d.rng with waits := d.rng.waits ++ [{ rid, full, need := n, got := 0 }] } }
def Die.unhold (d : Die) (rid : Nat) : Die := { d with rng := { d.rng with waits := d.rng.waits.filter fun w => w.rid != rid } }

/-- A draw of `n` bytes of DRBG output for request `rid`. In FAULT it is refused (R269); while the generator is not READY,
or its queue does not hold them, the request is held (R266, R267) and its command may come again. -/
def Die.drawFor (d : Die) (rid n : Nat) : DrawResult :=
  if d.get .RNG_STATUS_STATE == 3 then .refused
  else if d.get .RNG_STATUS_STATE == 1 && decide (n ≤ d.rng.drbgBytes) then
    .drawn { d with rng := { d.rng with draws := d.rng.draws + n, drbgBytes := d.rng.drbgBytes - n,
                                        waits := d.rng.waits.filter fun w => w.rid != rid } } d.rng.draws
  else .held (d.holdDraw rid n false)

/-- Full-entropy bytes for a request (R264); it waits for them as for DRBG output, and completes RNG_FAULT in FAULT. -/
def Die.withEntropy (e : Env) (d : Die) (r : Req) (n : Nat) (k : Die → Nat → Die) : Die :=
  if d.get .RNG_STATUS_STATE == 3 then d.fail e r .rngFault 0
  else if d.get .RNG_STATUS_STATE != 1 || decide (d.rng.feBytes < n) then d.holdDraw r.rid n true
  else k { d.unhold r.rid with rng := { (d.unhold r.rid).rng with draws := d.rng.draws + n, feBytes := d.rng.feBytes - n } } d.rng.draws

/-- Goes on with the bytes of a draw; completes RNG_FAULT, or holds the request, where there are none. -/
def Die.withDraw (e : Env) (d : Die) (r : Req) (n : Nat) (k : Die → Nat → Die) : Die :=
  match d.drawFor r.rid n with
  | .drawn d1 a => k d1 a
  | .refused => d.fail e r .rngFault 0
  | .held d1 => d1

end Sys2Proof.Machine
end

