-- ==== Sys2Proof/Machine/Quiesce.lean ====
section
/-! DEFINITION. Stopping work: how a quiesce, a ring drain, a reset and a Halt deal with requests in flight (R278, R54,
R281, R376), and the removal of a request from every queue that holds it. -/
namespace Sys2Proof.Machine

/-- Displaced jobs whose core is free go on, but while the die parks (R185, R202, R403). -/
def Die.resumeJobs (d : Die) : Die :=
  let con (c : Nat) : Bool := d.con.jobs.any fun j => j.place == .running c
  let ntt (c : Nat) : Bool := d.ntt.jobs.any fun j => j.place == .running c
  if 2 ≤ d.get .PWR_STATUS_STATE then d
  else { d with
    con := { d.con with jobs := d.con.jobs.map fun j =>
      match j.place with | .displaced c => if con c then j else { j with place := .running c, fresh := true } | _ => j },
    ntt := { d.ntt with jobs := d.ntt.jobs.map fun j =>
      match j.place with | .displaced c => if ntt c then j else { j with place := .running c } | _ => j } }

/-- Takes a request out of every wait list and job list of the blocks; its reply is not touched. -/
def Die.forget (d : Die) (rid : Nat) : Die :=
  Die.resumeJobs { d with
    que := { d.que with waiters := d.que.waiters.filter fun w => w.rid != rid },
    rcp := { d.rcp with
      jobs := d.rcp.jobs.filter fun j => j.rid != rid,
      streams := d.rcp.streams.filter fun j => j.rid != rid,
      hashes := d.rcp.hashes.filter fun j => j.rid != rid },
    kft := { d.kft with
      lookups := d.kft.lookups.filter fun l => l.rid != rid,
      lockWait := d.kft.lockWait.filter fun w => w.1 != rid,
      ilWait := d.kft.ilWait.filter fun w => w.2 != rid },
    con := { d.con with jobs := d.con.jobs.filter fun j => j.rid != rid },
    ntt := { d.ntt with jobs := d.ntt.jobs.filter fun j => j.rid != rid },
    rng := { d.rng with waits := d.rng.waits.filter fun w => w.rid != rid } }

/-- A session has one record less in flight. -/
def Die.leaveSession (d : Die) (uid : Nat) : Die :=
  d.mapSessions (fun s => s.uid == uid) fun s => { s with inFlight := s.inFlight - 1 }

/-- The lane of a job that no lane holds. -/
def noLane : Nat := 0xFF


/-- DETAIL bytes 14 and 15 of a job's reply (R171). -/
def conTail (core preempted : Nat) : Nat := 2 ^ 16 * (core % 256) + 2 ^ 24 * min preempted 255

/-- The job's core, 0 before it has one. -/
def JobPlace.core : JobPlace → Nat | .running c => c | .displaced c => c | .storing c => c | .waiting => 0

/-- DETAIL bytes 14 and 15 of the reply of a request whose Constantan or lattice job is stopped (R171, R203). -/
def Die.jobTail (d : Die) (rid : Nat) : Nat :=
  match d.con.jobs.find? fun j => j.rid == rid with
  | some j => conTail j.place.core j.preempted
  | none => ((d.ntt.jobs.find? fun j => j.rid == rid).map fun j => conTail j.place.core j.preempted).getD 0

/-- Running work that stops only at a boundary: streams, hash requests, long Constantan jobs and MLDSA_SIGN (R278). -/
def Die.stopsAtBoundary (d : Die) (rid : Nat) : Bool :=
  (d.rcp.streams.any fun j => j.rid == rid) || (d.rcp.hashes.any fun j => j.rid == rid && j.inner == 0) ||
    (d.con.jobs.any fun j => j.rid == rid && j.long && j.place != .waiting) ||
    (d.ntt.jobs.any fun j => j.rid == rid && j.signing && j.place != .waiting)

/-- A long job, or a signature, that a short job has displaced or that waits for a core to be repeated: it stands at a boundary
already (R188, R202). -/
def Die.atBoundary (d : Die) (rid : Nat) : Bool :=
  let off (p : JobPlace) : Bool := match p with | .waiting | .displaced _ => true | _ => false
  (d.con.jobs.any fun j => j.rid == rid && j.long && off j.place) || (d.ntt.jobs.any fun j => j.rid == rid && j.signing && off j.place)

/-- A quiesce of one request (R278): undispatched work completes `st`, work that stops at a boundary is asked to, a handshake step whose
jobs have not all completed completes `st`, and everything else goes on to its own status. -/
def Die.stopOne (e : Env) (st : Status) (d : Die) (r : Req) : Die :=
  match r.stage with
  | .fetched | .waiting => if r.worked then d else (d.forget r.rid).fail e r st 0
  | .running =>
    if r.opcode / 16 == 5 && !r.work.isEmpty then (d.forget r.rid).fail e r st 0
    else if d.atBoundary r.rid then (d.forget r.rid).fail e r st (d.jobTail r.rid)
    else if d.stopsAtBoundary r.rid then d.updReq r.rid fun x => { x with stop := some st } else d
  | _ => d

/-- A quiesce of the requests that satisfy `sel`, in fetch order. -/
def Die.stopWork (e : Env) (d : Die) (sel : Req → Bool) (st : Status) : Die :=
  (d.que.reqs.filter sel).foldl (Die.stopOne e st) d

/-- Discards a request without a reply (R70, R281); a Constantan job counts as aborted (R188, R195). -/
def Die.discard (e : Env) (d : Die) (r : Req) : Die :=
  let d1 := if r.sess != 0 && r.stage == .running then d.leaveSession r.sess else d
  ((((d1.forget r.rid).settleUse e r false).settleWaiters r.rid 0).countAborts r (Reply.fail .aborted 0)).dropReq r.rid

/-- Discards every request that satisfies `sel`. -/
def Die.discardWhere (e : Env) (d : Die) (sel : Req → Bool) : Die := (d.que.reqs.filter sel).foldl (Die.discard e) d

/-- A Halt stops work in flight: every request completes TAMPER_HALT where its reply can still be written (R376, R104,
R188). DESIGN CHOICE (log 172): a handshake step that has put its effects in place and only waits for slot writes is no work in flight any
more, so that a step which completes TAMPER_HALT has changed nothing (R209). -/
def Die.haltOne (e : Env) (d : Die) (r : Req) : Die :=
  if (match r.stage with | .ready _ => true | .writing _ => r.opcode / 16 == 5 | _ => false) then d
  else
    let off := ((d.rcp.streams.find? fun j => j.rid == r.rid).map fun j => j.off).getD 0
    let d1 := if r.sess != 0 && r.stage == .running then d.leaveSession r.sess else d
    (d1.forget r.rid).complete e r
      { Reply.fail .tamperHalt (d.jobTail r.rid) with length := off, flags := if 0 < off then flagUntrusted else 0 }

def Die.haltWork (e : Env) (d : Die) : Die := d.que.reqs.foldl (Die.haltOne e) d

/-- Any BAR0 access of a function breaks the low-word, high-word pair of R400. -/
def Die.access (d : Die) (fn : Nat) : Die :=
  { d with que := { d.que with heldHigh := d.que.heldHigh.filter fun h => h.1 != fn } }

/-- A request belongs to function `fn`. -/
def Req.ofFn (r : Req) (fn : Nat) : Bool := r.fn? == some fn

/-- A request belongs to ring pair `pair` of function `fn`. -/
def Req.ofPair (r : Req) (fn pair : Nat) : Bool := r.fn? == some fn && r.pair == pair

/-- Starts the drain of a pair (R52, R54): ENABLE clear, STATE DRAINING, its work quiesced; DISABLED at once when
nothing is left. -/
def Die.drainPair (e : Env) (d : Die) (fn pair : Nat) : Die :=
  let d1 := ((d.setAt2 .QUE_PAIR_CTL_ENABLE fn pair 0).setAt2 .QUE_PAIR_STATUS_STATE fn pair 2).setPair fn pair
    { d.pairState fn pair with drainReported := false }
  let d2 := d1.stopWork e (fun r => r.ofPair fn pair) .quiesced
  if d2.que.reqs.any fun r => r.ofPair fn pair then d2 else d2.setAt2 .QUE_PAIR_STATUS_STATE fn pair 0

/-- Every ring pair of a function DISABLED, its registers and indices at reset (R282, R70). -/
def Die.resetRings (d : Die) (fn : Nat) : Die :=
  { d with que := { d.que with pairs := d.que.pairs.filter fun p => p.1 / 16 != fn,
                               ntfs := d.que.ntfs.filter fun n => n.1 != fn } }

end Sys2Proof.Machine
end

