-- ==== Sys2Proof/Machine/TamperOps.lean ====
section
/-! DEFINITION. Alarms and their responses (R367, R370, R376, R378 to R383, R386): latching, TAMPER_OUT_N, propagation,
the five ranks and the zeroizations of R221. Every source of an alarm presents it here. -/
namespace Sys2Proof.Machine

/-! ## The map in force (R381, R383) -/

/-- Sources 0x01 to 0x18 of the boot ROM floor: rank, OUT, PROPAGATE (R367). -/
def floorEntry (src : Nat) : Nat × Bool × Bool :=
  if 1 ≤ src ∧ src ≤ 5 then (4, true, true)
  else if src ∈ [6, 7, 8, 9, 0x0C, 0x0E, 0x12, 0x13, 0x14] then (3, true, false)
  else if src ∈ [0x0A, 0x0B, 0x0D, 0x11, 0x15, 0x17] then (2, false, false)
  else if src ∈ [0x0F, 0x10] then (0, true, false)
  else (0, false, false)

/-- Puts entry `src` of a map in force. -/
def Die.setMapEntry (d : Die) (src rank : Nat) (out propagate enabled : Bool) : Die :=
  (((d.setAt .TMP_MAP_RANK src rank).setAt .TMP_MAP_OUT src (ofBool out)).setAt .TMP_MAP_PROPAGATE src
    (ofBool propagate)).setAt .TMP_MAP_ENABLED src (ofBool enabled)

/-- Source codes of the map. -/
def mapSources : List Nat := (List.range 24).map fun k => k + 1

/-- Enables of sources 0x01 to 0x07 go to the backup domain at each takeover of a map (R383). -/
def Die.copyEnables (d : Die) : Die :=
  { d with tmp := { d.tmp with backup := { d.tmp.backup with
      enables := unitBits 7 fun k => d.hasAt .TMP_MAP_ENABLED (k + 1) } } }

/-- The boot ROM floor takes over as the map (R382, R383): limits −45 and +120 °C, MESH_A enabled, no input. -/
def Die.floorMap (d : Die) : Die :=
  let d1 := mapSources.foldl (fun d s =>
    d.setMapEntry s (floorEntry s).1 (floorEntry s).2.1 (floorEntry s).2.2 (s == 1 || decide (8 ≤ s))) d
  (((d1.set .TMP_TEMP_LIMITS_LOW (2 ^ 16 - 45)).set .TMP_TEMP_LIMITS_HIGH 120).set .TMP_STATUS_MAP_SOURCE 0).copyEnables

/-- A TAMPER_MAP section takes over as the map (R381, R383). -/
def Die.imageMap (d : Die) (body : Bytes) : Die :=
  let d1 := mapSources.foldl (fun d s =>
    let fl := leAt body (8 + 4 * (s - 1) + 1) 1
    let en := if s ≤ 4 then bit (leAt body 6 1) (s - 1) else if s ≤ 7 then bit (leAt body 7 1) (s - 5) else true
    d.setMapEntry s (leAt body (8 + 4 * (s - 1)) 1) (bit fl 0) (bit fl 1) en) d
  (((d1.set .TMP_TEMP_LIMITS_LOW (leAt body 2 2)).set .TMP_TEMP_LIMITS_HIGH (leAt body 4 2)).set
    .TMP_STATUS_MAP_SOURCE 1).copyEnables

/-! ## Conditions and TAMPER_OUT_N -/

/-- The condition of a source is present. -/
def Die.cond (d : Die) (src : Nat) : Bool := bit (d.get .TMP_COND_SOURCES) (src - 1)

def Die.setCond (d : Die) (src : Nat) (v : Bool) : Die :=
  d.set .TMP_COND_SOURCES (putBits (d.get .TMP_COND_SOURCES) (src - 1) (src - 1) (ofBool v))

def Die.latchAlarm (d : Die) (src : Nat) : Die :=
  (d.set .TMP_ALARM_SOURCES (putBits (d.get .TMP_ALARM_SOURCES) (src - 1) (src - 1) 1)).signal 0 20

/-- A source with OUT set has its condition present. -/
def Die.outCondition (d : Die) : Bool := mapSources.any fun s => d.cond s && d.hasAt .TMP_MAP_OUT s

/-- Pulls TAMPER_OUT_N low. -/
def Die.outLow (d : Die) : Die :=
  if d.has .TMP_STATUS_OUT then d else (d.set .TMP_STATUS_OUT 1).emit (.pin .tamperOutN false)

/-- Releases TAMPER_OUT_N where R370 allows it: no OUT condition present, OUT_ACK written since, no lockdown and no
unacknowledged log entry that holds it (R387). -/
def Die.outRelease (d : Die) : Die :=
  if d.has .TMP_STATUS_OUT && !d.outCondition && d.tmp.outAck && !d.tmp.outLog && !d.tmp.lockdown
  then (d.set .TMP_STATUS_OUT 0).emit (.pin .tamperOutN true) else d

/-- A source of rank at least `rank` has its condition present. -/
def Die.rankedCondition (d : Die) (rank : Nat) : Bool :=
  mapSources.any fun s => s != 0x18 && d.cond s && decide (rank ≤ d.getAt .TMP_MAP_RANK s)

/-- ACTIVE and RANK as the responses in force make them. -/
def Die.showRank (d : Die) : Die :=
  let r := if d.tmp.lockdown then 4 else if d.tmp.clearing != 0 then d.tmp.clearing
    else if d.has .TMP_STATUS_HALTED then 2 else if d.has .TMP_STATUS_THROTTLED then 1 else 0
  (d.set .TMP_STATUS_RANK r).set .TMP_STATUS_ACTIVE (ofBool (r != 0))

/-! ## The backup tamper log (R386) -/

/-- Appends an entry: the newest replaces the oldest. -/
def Die.backupLog (d : Die) (src kind : Nat) (onCell : Bool) : Die :=
  let n := d.get .TMP_BACKUP_STATUS_NEXT
  let time := if d.has .TMP_BACKUP_STATUS_RUNNING
    then 65536 * d.get .TMP_BACKUP_TIME_SECONDS + d.get .TMP_BACKUP_TIME_FRACTION else 0
  let w1 := src + kind * 2 ^ 8 + 2 ^ 16 * (d.tmp.backup.seq % 2 ^ 16) + 2 ^ 32 * ofBool onCell
  let d1 := (((d.setAt2 .TMP_BLOG_WORD n 0 time).setAt2 .TMP_BLOG_WORD n 1 w1).set .TMP_BACKUP_STATUS_NEXT
    ((n + 1) % 32)).set .TMP_BACKUP_STATUS_NEW (min 32 (d.get .TMP_BACKUP_STATUS_NEW + 1))
  { d1 with tmp := { d1.tmp with backup := { d1.tmp.backup with seq := (d1.tmp.backup.seq + 1) % 2 ^ 16 } } }

/-! ## Ranks (R376) -/

/-- Everything that Zeroize-sessions zeroizes (R221, R376): slice and tree keys with their slices, the session cache, the key
cache, the version-tree cache with the mirror area, the memories of the cores, handshake contexts, volatile objects, and the
session-class scramble key. The slice is formatted (R156). -/
def Die.zeroizeSessions (d : Die) : Die :=
  { d with
    kft := { d.kft with sessions := [], metas := [], lookups := [], locks := [], lockWait := [], ilWait := [],
                        moves := [], relocDue := [], batches := [] },
    mlf := { d.mlf with nonce := 0, tree := [], cached := [], upper := [], dirty := [], writes := [], backs := [], reseals := [],
                        foreign := [], taken := [], mirror := .empty, mirrorToo := .empty, adopted := .empty },
    con := { d.con with mem := [] },
    ntt := { d.ntt with ctxs := [], mem := [] },
    key := { d.key with objs := [] },
    tmp := { d.tmp with scrambleSession := 0 } }

/-- What Zeroize-all zeroizes beside that (R221): DRK, NK, BBK, ESK and all that derives from them, and the share; its
records in NVM open no more (R379). -/
def Die.zeroizeRoots (d : Die) : Die :=
  let d1 := { d with key := { d.key with drk := none, bbk := none, nk := none, esk := none, share := none,
                                         nextShare := none,
                                         dealing := none },
                     ens := { d.ens with dxk := none, dtk := none },
                     tmp := { d.tmp with scrambleRoot := 0 } }
  (((d1.set .KEY_ROOT_STATUS_ESK_VALID 0).set .KEY_ROOT_STATUS_SHARE_HELD 0).set .KEY_ROOT_STATUS_BBK_VALID 0).set
    .TMP_BACKUP_STATUS_BBK_ZEROIZED 1

/-- The times that Throttle and the quiet time of a Halt count from begin anew, for a source of this rank (R376, R377). -/
def Die.stampCalm (d : Die) (rank : Nat) : Die :=
  { d with tmp := { d.tmp with throttleMs := if 1 ≤ rank then d.nowMs else d.tmp.throttleMs,
                               haltMs := if 2 ≤ rank then d.nowMs else d.tmp.haltMs } }

/-- Performs a rank: its action and those of every lower rank. -/
def Die.performRank (e : Env) (d0 : Die) (rank : Nat) : Die :=
  let d := d0.stampCalm rank
  let d1 := if 1 ≤ rank then d.set .TMP_STATUS_THROTTLED 1 else d
  let d2 := if 2 ≤ rank then
      let h := d1.set .TMP_STATUS_HALTED 1
      ({ h with tmp := { h.tmp with released := false, quiet := false } }.haltWork e).endDebug e
    else d1
  let d3 := if 3 ≤ rank then d2.zeroizeSessions else d2
  let d4 := if 4 ≤ rank then d3.zeroizeRoots else d3
  { d4 with tmp := { d4.tmp with clearing := if 3 ≤ rank then max rank d4.tmp.clearing else d4.tmp.clearing } }.showRank

/-- An alarm fires (R376, R379, R380): latched, recorded, logged, with the OUT and PROPAGATE flags of its map entry and
the actions of its rank. -/
def Die.fire (e : Env) (d : Die) (src kind : Nat) : Die :=
  let rank := d.getAt .TMP_MAP_RANK src
  let d1 := (d.latchAlarm src).report e { Report.of (0x0A00 + src) with unit := src, kind, rank }
  let d2 := if src ≤ 7 then d1.backupLog src kind false else d1
  let d3 := if d2.hasAt .TMP_MAP_OUT src then
      { d2.outLow with tmp := { d2.outLow.tmp with outAck := false } } else d2
  let d4 := if d3.hasAt .TMP_MAP_PROPAGATE src
    then d3.sendRing .tamper none (leBytes 1 d3.pos ++ leBytes 1 src ++ leBytes 1 rank) else d3
  d4.performRank e rank

/-- The condition of a source appears: the source fires unless it was present already (R380). A disabled source is not
watched, and nothing fires in lockdown (R378). -/
def Die.alarm (e : Env) (d : Die) (src kind : Nat) : Die :=
  if d.cond src || !d.hasAt .TMP_MAP_ENABLED src || d.tmp.lockdown then d
  else (d.setCond src true).fire e src kind

/-- An alarm that leaves no condition behind. -/
def Die.alarmEvent (e : Env) (d : Die) (src kind : Nat) : Die :=
  if d.tmp.lockdown then d else d.fire e src kind

/-- The condition of a source goes away, where it was present (R370, R377, R380). -/
def Die.condEnds (d : Die) (src : Nat) : Die :=
  if d.cond src then ((d.setCond src false).stampCalm (d.getAt .TMP_MAP_RANK src)).outRelease else d

/-- No store alarm is due. -/
def Die.noAlarmDue (d : Die) : Die := { d with mlf := { d.mlf with alarmDue := none } }

/-- An integrity failure of this command found the poison list full: STORE_INTEGRITY fires (R160). A further failure met while it is
answered finds its condition present already (R380). -/
def Die.presentAlarm (e : Env) (d : Die) : Die :=
  match d.mlf.alarmDue with
  | some kind => (d.alarm e 0x15 kind).noAlarmDue
  | none => d

/-! ## The frame of a command -/

/-- What a command reads beside the die. -/
abbrev State.env (s : State) : Env := { otp := s.otp, mem := s.mem }

/-- The end of a command that leaves die `d`: an alarm that it leaves due is presented, and its posted writes reach host memory. The
queue of waiting commands and the OTP stay as they are. -/
def State.finish (s : State) (d : Die) : State :=
  { s with mem := memPost s.mem (d.presentAlarm s.env).posted, die := (d.presentAlarm s.env).settle }

/-- The state after the effect `f` of a command on the die. -/
def State.after (s : State) (f : Env → Die → Die) : State := s.finish (f s.env s.die)

/-- Runs the effect `f` of a command on the die (log 147, 210). -/
def State.act (s : State) (f : Env → Die → Die) : Out := .next (s.after f)

end Sys2Proof.Machine
end

