-- ==== Sys2Proof/Machine/Units.lean ====
section
/-! DEFINITION. Lanes, hash lanes, Constantan cores and lattice cores as units: which take work, mismatches, quarantine,
known-answer tests, cores held by the operating point, and the charging of budgets (R95 to R99, R189 to R191, R202,
R276). -/
namespace Sys2Proof.Machine

/-- HELD of a unit; hash lanes and lattice cores are never held. -/
def Die.unitHeld (d : Die) (k : UnitKind) (u : Nat) : Bool :=
  match k with
  | .lane => d.hasAt .LANE_STATUS_HELD u
  | .con => d.hasAt .CON_CORE_STATUS_HELD u
  | _ => false

/-- A unit in service and not held. -/
def Die.inUse (d : Die) (k : UnitKind) (u : Nat) : Bool := d.unitState k u == 0 && !d.unitHeld k u

/-- The units in service. -/
def Die.inService (d : Die) (k : UnitKind) : List Nat := (List.range k.count).filter fun u => d.unitState k u == 0

/-- Units that the operating point in force lets a block use (R36). -/
def Die.unitLimit (d : Die) : UnitKind → Nat
  | .lane => if d.get .PWR_STATUS_POINT == 2 then 4 else 8
  | .con => if d.get .PWR_STATUS_POINT == 1 then 6 else 24
  | k => k.count

/-- Holds out all but the lowest-numbered units in service that the operating point allows (R99, R191). -/
def Die.rehold (d : Die) (k : UnitKind) : Die :=
  let use := ((List.range k.count).filter fun u => d.getAt k.stateFld u == 0).take (d.unitLimit k)
  (List.range k.count).foldl (fun d u =>
    let h := ofBool (d.getAt k.stateFld u == 0 && !use.contains u)
    match k with
    | .lane => d.setAt .LANE_STATUS_HELD u h
    | .con => d.setAt .CON_CORE_STATUS_HELD u h
    | _ => d) d

/-- The die dispatches work: not Halted, not parking, and in Active or Idle (R376, R403). -/
def Die.dispatches (d : Die) : Bool :=
  decide (d.get .PWR_STATUS_STATE ≤ 1) && !d.has .TMP_STATUS_HALTED && !d.tmp.lockdown

/-- The issue rate of a block in 1/256 of the full rate (R35). -/
def Die.rate (d : Die) : UnitKind → Nat
  | .lane => d.clk.rates.getD 0 256
  | .con => d.clk.rates.getD 1 256
  | .ntt => d.clk.rates.getD 2 256
  | .hash => 256

/-- The units that take new work at the issue rate that the governor leaves a block: the lowest-numbered, and at least one, so that the
block never stops (R35). DESIGN CHOICE (log 184): a lowered rate shows as fewer units that take work. -/
def Die.paced (d : Die) (k : UnitKind) (us : List Nat) : List Nat := us.take (max 1 (ceilDiv (us.length * d.rate k) 256))

/-- A unit in service and not held takes new work. -/
def Die.takesWork (d : Die) (k : UnitKind) (u : Nat) : Bool := (d.paced k ((List.range k.count).filter (d.inUse k))).contains u

/-- Lanes that take new records and chunks: in a brown-out warning the two lowest-numbered in service (R373). -/
def Die.openLanes (d : Die) : List Nat :=
  let ls := d.paced .lane ((d.inService .lane).filter fun u => !d.unitHeld .lane u)
  if d.has .TMP_STATUS_BROWNOUT then ls.filter fun u => ((d.inService .lane).take 2).contains u else ls

def UnitKind.quarantineTrigger : UnitKind → Nat
  | .lane => 0x0201 | .hash => 0x0202 | .con => 0x0401 | .ntt => 0x0402

def UnitKind.mismatchTrigger : UnitKind → Option Nat
  | .lane => some 0x0204 | .con => some 0x0403 | _ => none

/-- Counts a mismatch of a unit (R95, R189): count, kind and tenant of the last, and the 1,000 ms window. -/
def Die.noteMismatch (e : Env) (d : Die) (k : UnitKind) (u kind tenant : Nat) : Die :=
  let d1 := ((d.addAt k.mismFld u 1).setAt k.lastKindFld u kind).setAt k.lastTenFld u tenant
  let d2 := d1.setMismTimes k u ((d1.mismTimes k u).filter (fun t => d1.nowMs < t + 1000) ++ [d1.nowMs])
  let d3 := if k == .lane then d2.count 3 6 tenant 1 else d2
  match k.mismatchTrigger with
  | some t => d3.report e { Report.of t with unit := u, kind, tenant }
  | none => d3

/-- A unit goes out of service (R97, R190); the next held unit goes into service at once (R99, R191). -/
def Die.quarantine (e : Env) (d : Die) (k : UnitKind) (u : Nat) : Die :=
  ((d.setAt k.stateFld u 1).rehold k).report e { Report.of k.quarantineTrigger with unit := u }

/-- RELEASE of a quarantined unit starts its known-answer test (R98, R190, R202). -/
def Die.startKat (d : Die) (k : UnitKind) (u : Nat) : Die :=
  if d.getAt k.stateFld u == 1 then d.setAt k.stateFld u 2 else d

/-- The test ends: back to service with its mismatch history cleared, or quarantined with KAT_FAIL (R98). -/
def Die.endKat (d : Die) (k : UnitKind) (u : Nat) (pass : Bool) : Die :=
  if d.getAt k.stateFld u != 2 then d
  else if pass then (((d.setAt k.stateFld u 0).setAt k.katFld u 0).setMismTimes k u []).rehold k
  else (d.setAt k.stateFld u 1).setAt k.katFld u 1

/-! ## Budgets (R276) -/

/-- Blocks with budgets: 0 lanes, 1 Constantan, 2 lattice cores. -/
def putAt (l : List Nat) (i v : Nat) : List Nat := (List.range (max 3 l.length)).map fun k => if k = i then v else l.getD k 0

/-- The share of function `fn` in a block, in 1/256: under the default configuration function 0 has the whole die (R309) (log 67). -/
def Die.shareOf (d : Die) (fn block : Nat) : Nat :=
  if fn == 0 && d.tin.running.isEmpty then 256
  else match block with
    | 0 => d.getAt .TEN_SHARE_LANE fn
    | 1 => d.getAt .TEN_SHARE_CON fn
    | _ => d.getAt .TEN_SHARE_NTT fn

/-- The budget of a function in a block that is left. -/
def TenantCtl.left (c : TenantCtl) (block : Nat) : Nat := c.budget.getD block 0

/-- Charges a tenant's work: from its budget, the excess as debt, and the rotation has passed it; work on lent capacity creates no debt. -/
def Die.charge (d : Die) (tenant block cycles : Nat) : Die :=
  match d.fnOf? tenant with
  | none => d
  | some fn =>
    let b := (d.ctl fn).left block
    let d1 := d.updCtl fn fun c =>
      { c with budget := putAt c.budget block (b - cycles), used := putAt c.used block (c.used.getD block 0 + cycles),
               debt := putAt c.debt block (c.debt.getD block 0 + (if b = 0 then 0 else cycles - b)),
               lent := putAt c.lent block (c.lent.getD block 0 + (if b = 0 then cycles else 0)) }
    if b = 0 then d1 else { d1 with ten := { d1.ten with turn := putAt d1.ten.turn block fn } }

/-- Where a tenant stands in the two passes of a block (R276), the lowest first: with budget left in rotation, behind the function served
last; without, by the lent capacity it has had against its share, and at the very end with a share of 0. Work for a tenant of another die
has no budget here and goes first (DESIGN CHOICE, log 39). -/
def Die.serveRank (d : Die) (block tenant : Nat) : Nat :=
  match d.fnOf? tenant with
  | none => 0
  | some fn =>
    let c := d.ctl fn
    if c.left block != 0 then (fn + 255 - d.ten.turn.getD block 0) % 256
    else if d.shareOf fn block = 0 then 2 ^ 64 + c.lent.getD block 0
    else 256 + c.lent.getD block 0 * 256 / d.shareOf fn block

/-- Puts one item before the first that ranks no lower. -/
def insertRank {α : Type} (rank : α → Nat) (x : α) : List α → List α
  | [] => [x]
  | y :: l => if rank x ≤ rank y then x :: y :: l else y :: insertRank rank x l

/-- Items by rank, and by their order among those of one rank. -/
def sortRank {α : Type} (rank : α → Nat) (l : List α) : List α := l.foldr (insertRank rank) []

/-- The waiting work of a block in the order in which the two passes serve it (R276). -/
def Die.inPasses {α : Type} (d : Die) (block : Nat) (tenant : α → Nat) (l : List α) : List α :=
  sortRank (fun x => d.serveRank block (tenant x)) l

/-- A tenant's waiting work in a block can be served: from its budget, or, with no CAP, from idle capacity (R276). -/
def Die.servable (d : Die) (tenant block : Nat) : Bool :=
  match d.fnOf? tenant with
  | none => true
  | some fn => d.getAt .TEN_SHARE_CAP fn == 0 || (d.ctl fn).left block != 0

/-- Lane cycles of a record or chunk of `n` bytes (R93). -/
def laneCycles (alg n : Nat) : Nat := ceilDiv n (if alg = 1 then 16 else 8) + 9

end Sys2Proof.Machine
end

