-- ==== Sys2Proof/Machine/Works.lean ====
section
/-! DEFINITION. Work that a request of another block gives the Constantan cores, the lattice cores and the hash lanes: handshake steps,
statements, approvals, derivations and the hash passes of EdDSA (R100, R176, R184, R202, R206). -/
namespace Sys2Proof.Machine

/-- DETAIL of FAULT_RETRY (R77, R171): first lane, second lane or 0xFF, kind (log 25). -/
def faultDetail (first : Nat) (second : Option Nat) (kind : Nat) : Nat :=
  first + 2 ^ 8 * second.getD 0xFF + 2 ^ 16 * (kind % 16)

/-- No unit of a block is in service: its work completes FAULT_RETRY (R94, R190). -/
def Die.coreless (d : Die) (k : UnitKind) : Bool := (d.inService k).isEmpty && !d.parked

/-- The hash lane that takes a message: the least loaded in service, and of these the lowest (log 13). -/
def Die.pickHashLane (d : Die) (avoid : Option Nat) : Option Nat :=
  let ls := (d.inService .hash).filter fun l => some l != avoid
  let load (l : Nat) : Nat := (d.rcp.hashes.filter fun j => j.lane == l).length
  let least := ls.foldl (fun a l => min a (load l)) (2 ^ 40)
  ls.find? fun l => load l == least

/-- A message goes to a hash lane: `inner` is the ALG code of one that is not a hash request, else 0. With no lane in service it
waits for one. -/
def Die.addHash (d : Die) (r : Req) (inner total : Nat) (key : Bytes) : Die :=
  let lane := (d.pickHashLane none).getD noLane
  let d1 := if lane == noLane || d.rcp.hashes.any (fun j => j.lane == lane) then d else d.count 4 0x10 r.tenant 1
  { d1 with rcp := { d1.rcp with hashes := d1.rcp.hashes ++
    [{ rid := r.rid, lane, total, inner, off := 0, acc := [], key, first := none, relaned := false }] } }

/-- Removes the hash job of a request. -/
def Die.dropHash (d : Die) (rid : Nat) : Die :=
  { d with rcp := { d.rcp with hashes := d.rcp.hashes.filter fun j => j.rid != rid } }

/-- Changes one hash job. -/
def Die.updHash (d : Die) (rid : Nat) (f : HashJob → HashJob) : Die :=
  { d with rcp := { d.rcp with hashes := updateWhere (fun x => x.rid == rid) f d.rcp.hashes } }

/-- A job in its place: jobs stand in the order in which their requests were fetched (R186). -/
def insertRid {α : Type} (rid : α → Nat) (j : α) (l : List α) : List α :=
  l.takeWhile (fun x => decide (rid x ≤ rid j)) ++ j :: l.dropWhile fun x => decide (rid x ≤ rid j)

def Die.addCon (d : Die) (j : ConJob) : Die := { d with con := { d.con with jobs := insertRid ConJob.rid j d.con.jobs } }
def Die.addNtt (d : Die) (j : NttJob) : Die := { d with ntt := { d.ntt with jobs := insertRid NttJob.rid j d.ntt.jobs } }

/-- Gives one piece of a request's work to its block. -/
def Die.giveWork (d : Die) (r : Req) (w : Work) : Die :=
  match w with
  | .con cycles _ =>
    d.addCon { rid := r.rid, tenant := r.tenant, cycles, long := isLong cycles, place := .waiting, loaded := true, ctx := none, hashed := true,
               input := [], params := [], need := 0, draw := 0, preempted := 0, fresh := false, first := none, relaned := false }
  | .ntt cycles signing _ =>
    d.addNtt { rid := r.rid, tenant := r.tenant, place := .waiting, ctx := none, signing, cycles, input := [], need := 0, draw := 0,
               attempts := 0, preempted := 0, first := none, relaned := false }
  | .hash alg bytes => d.addHash r alg bytes []

/-- The block that a piece of work needs (log 53). -/
def Work.unit : Work → UnitKind
  | .con .. => .con | .ntt .. => .ntt | .hash .. => .hash

/-- Random bytes that the repeat of a piece of work draws anew (R189). -/
def Work.fresh : Work → Nat
  | .con _ n => n | .ntt _ _ n => n | .hash .. => 0

/-- The unit that a request has work in ends it: the next piece follows, and after the last the request's command goes on (log 163). -/
def Die.workDone (d : Die) (r : Req) : Die :=
  match r.work.tail with
  | [] => d.updReq r.rid fun x => { x with work := [], worked := true, stage := .fetched }
  | w :: ws => (d.updReq r.rid fun x => { x with work := w :: ws }).giveWork r w

/-- A request goes on, as `k`, once the work that it gives the blocks is done: `draw` random bytes are drawn (R179), the key
at `use` counts a use (R234), and the jobs, which the first of those bytes may bear on, run one after another. `bad` ends it
where it may not go on. With no unit of a block in service it completes FAULT_RETRY (R190). -/
def Die.withWork (e : Env) (d : Die) (r : Req) (jobs : Nat → List Work) (draw : Nat) (use : Option (Nat × Nat))
    (bad : Die → Status → Nat → Die) (k : Die → Nat → Die) : Die :=
  if r.worked then k d r.drawn
  else if (jobs 0).any fun w => d.coreless w.unit then d.fail e r .faultRetry (faultDetail 0xFF none 0)
  else
    let start (d : Die) (a : Nat) : Die :=
      match jobs a with
      | [] => k d a
      | w :: ws => (d.updReq r.rid fun x => { x with stage := .running, work := w :: ws, drawn := a }).giveWork r w
    let go (d1 : Die) (a : Nat) : Die :=
      match use with
      | none => start d1 a
      | some (handle, usage) =>
        match d1.takeUse e r handle usage with
        | .waits => d
        | .refused d2 st x => bad d2 st x
        | .counted d2 => start d2 a
    if draw = 0 then go d 0
    else match d.drawFor r.rid draw with
      | .drawn d1 a => go d1 a
      | .refused => bad d .rngFault 0
      | .held d1 => d1

/-- A request of the key manager itself counts its use of a key once (R234), and goes on when the host copy of USES is written that the
count lowers (R235); its command may come again until then. -/
def Die.withUse (e : Env) (d : Die) (r : Req) (handle usage : Nat) (k : Die → Die) : Die :=
  let go (d : Die) : Die := if d.writesPending r.rid then d else k d
  if r.worked then go d
  else match d.takeUse e r handle usage with
    | .waits => d
    | .refused d1 st x => d1.fail e r st x
    | .counted d1 => go (d1.updReq r.rid fun x => { x with worked := true })

/-- The key that a request reads for its work: the one whose use it holds, once it holds one (R234, R241). -/
def Die.workKey (d : Die) (r : Req) (check : Die → KeyCheck) : KeyCheck :=
  match d.usedObj r with
  | some o => .ok o
  | none => check d

end Sys2Proof.Machine
end

