-- ==== Sys2Proof/Machine/ConOps.lean ====
section
/-! DEFINITION. Constantan as an operation library (spec/06): descriptors and their checks, curves, primitive programs,
results, and the jobs of the cores. -/
namespace Sys2Proof.Machine

/-! ## Curves (R192 to R194, R232) -/

/-- CURVE_FP of a loaded curve. -/
def curveFp (record : Bytes) : Bytes := (sha384 record).take 12

def Die.loadedFp (d : Die) (tenant id : Nat) : Option Bytes :=
  (d.con.curves.find? fun c => c.tenant == tenant && c.id == id).map fun c => curveFp c.record

/-- An object bound to a loaded curve still names it (R232). -/
def Die.curveBound (d : Die) (o : KeyObj) : Bool :=
  if (o.type == 0x10 || o.type == 0x11) && decide (0x80 ≤ o.param) then
    d.loadedFp o.tenant o.param == some (slice o.material 84 12)
  else true

/-! ## Keys of an operation (R183, R471) -/

/-- Reads the key of a Constantan request: TYPE and PARAM, the curve binding, then the usage. -/
def Die.conKey (d : Die) (r : Req) (fits : KeyObj → Bool) (usage : Nat) : KeyCheck :=
  match d.readKey r.tenant r.keyHandle with
  | .bad st x => .bad st x
  | .ok o =>
    if !fits o then .bad .paramRejected 0x16
    else if !d.curveBound o then .bad .paramRejected 0x11
    else if !bit o.usage usage then .bad .policyDeny 0
    else .ok o

/-- The checks of DEST_HANDLE (R112, R168, R277): below the quota, not poisoned, a handle left, not occupied. A tombstone counts as empty.
A region with no handle left answers LIMIT_REACHED whatever the handle names (DEDUCED, log 197). -/
def Die.destCheck (d : Die) (tenant dest : Nat) : Option (Status × Nat) :=
  if d.keyQuota tenant ≤ dest then some (.noSession, 4)
  else if d.key.esk.isNone then some (.keyExpired, 0)
  else if d.bucketPoisoned (handleKey (tenant / 256) tenant dest) then some (.storeIntegrity, 0)
  else if d.keyQuota tenant ≤ d.keyUse tenant then some (.limitReached, 4)
  else if (d.obj? tenant dest).any fun o => !o.isTombstone && o.type != 0 then some (.policyDeny, 0)
  else none

/-- A handle that a request's object is to stand at: its slot is read, and checked (R112, R168). -/
def Die.withDestOf (e : Env) (d : Die) (r : Req) (tenant dest : Nat) (k : Die → Die) : Die :=
  match d.loadKey e tenant dest with
  | (d1, some f) => d1.fail e r f.status 0
  | (d1, none) =>
    match d1.destCheck tenant dest with
    | some (st, x) => d1.fail e r st x
    | none => k d1

/-- The DEST_HANDLE of a request, where it names one. -/
def Die.withDest (e : Env) (d : Die) (r : Req) (dest : Option Nat) (k : Die → Die) : Die :=
  match dest with
  | none => k d
  | some h => d.withDestOf e r r.tenant h k

/-- A new volatile object at a handle. -/
def Die.newVolatile (d : Die) (tenant handle type usage origin param len : Nat) (material : Bytes) : KeyObj :=
  { tombstone tenant handle type with usage, aflags := 1, origin, param, len, uses := uncounted, hostUses := uncounted,
                                      vgen := d.vgen tenant, material := slice material 0 96 }

/-! ## Primitive programs (R180 to R182) -/

/-- Counts and reserved bytes of a program block are as R180 lays them out. -/
def primLayoutOk (cls : Nat) (b : Bytes) : Bool :=
  let nc := leAt b 0 1
  let nl := leAt b 1 1
  let ns := leAt b 2 1
  let ex := leAt b 4 2
  decide (1 ≤ nc ∧ nc ≤ 32 ∧ nl ≤ 8 ∧ ns ≤ 8) && leAt b 3 1 == 0 && leAt b 6 10 == 0 && leAt b (16 + 8 * nl) (64 - 8 * nl) == 0 &&
    leAt b (80 + 4 * nc) (128 - 4 * nc) == 0 && leAt b (208 + ns) (8 - ns) == 0 && leAt b 216 40 == 0 &&
    ((List.range nl).all fun i => leAt b (16 + 8 * i) 1 < 8 && leAt b (17 + 8 * i) 1 ≤ 1 && leAt b (18 + 8 * i) 1 ≤ 7 &&
      leAt b (19 + 8 * i) 5 == 0) &&
    ((List.range nc).all fun i => leAt b (81 + 4 * i) 1 < 8 && bit (leAt b (82 + 4 * i) 1) 3 == false &&
      bit (leAt b (82 + 4 * i) 1) 7 == false && leAt b (83 + 4 * i) 1 < 8) &&
    ((List.range ns).all fun i => bits (leAt b (208 + i) 1) 6 3 == 0) &&
    (if (List.range nc).any fun i => leAt b (80 + 4 * i) 1 == 5 then decide (ex % 64 = 0 ∧ 64 ≤ ex ∧ ex ≤ cls) else ex == 0)

/-- Registers a command reads. -/
def PrimCmd.reads (c : PrimCmd) : List Nat := if c.op = 4 then [c.a, c.m] else [c.a, c.b, c.m]

/-- Every command reads only registers written before it, and every store too (R182). -/
def PrimProg.defined (p : PrimProg) : Bool :=
  let r := p.cmds.foldl (fun acc c => (acc.1 && c.reads.all fun x => acc.2.contains x, c.dst :: acc.2))
    (true, p.loads.map fun l => l.dst)
  r.1

/-- The secret registers after the program (R181). DESIGN CHOICE (log 164): the modulus register is a source too, so a
command whose modulus is secret writes a secret register. -/
def PrimProg.secret (p : PrimProg) : List Nat :=
  let s0 := p.loads.foldl (fun acc l => if l.source = 1 then l.dst :: acc else acc.filter (· != l.dst)) []
  p.cmds.foldl (fun acc c => if c.reads.any fun x => acc.contains x then c.dst :: acc else acc.filter (· != c.dst)) s0

def PrimProg.usesKey (p : PrimProg) : Bool := p.loads.any fun l => l.source == 1
def PrimProg.hasDest (p : PrimProg) : Bool := p.stores.any fun s => s.2

/-- The registers, and the first command that failed with its status. -/
structure PrimVm where
  v : List Nat
  err : Option (Status × Nat)
  deriving DecidableEq, Repr

/-- The outcome of one command (R174). -/
def PrimCmd.eval (c : PrimCmd) (cls expBits : Nat) (v : List Nat) : Nat ⊕ Status :=
  let m := v.getD c.m 0
  let a := v.getD c.a 0
  let b := v.getD c.b 0
  if m % 2 = 0 ∨ m < 3 ∨ 2 ^ cls ≤ m then .inr .operandRange
  else if m ≤ a then .inr .operandRange
  else match c.op with
    | 1 => if m ≤ b then .inr .operandRange else .inl ((a + b) % m)
    | 2 => if m ≤ b then .inr .operandRange else .inl (modSub a b m)
    | 3 => if m ≤ b then .inr .operandRange else .inl (a * b % m)
    | 4 => match modInv a m with | some x => .inl x | none => .inr .notInvertible
    | _ => if 2 ^ expBits ≤ b then .inr .operandRange else .inl (modPow a b m)

/-- Runs a program from its loaded registers; a failing command leaves zero in its destination (R182). -/
def PrimProg.run (p : PrimProg) (cls : Nat) (v : List Nat) : PrimVm :=
  (p.cmds.zipIdx).foldl (fun s ci =>
    match ci.1.eval cls p.expBits s.v with
    | .inl x => { s with v := s.v.set ci.1.dst x }
    | .inr st => { v := s.v.set ci.1.dst 0, err := s.err.or (some (st, ci.2)) }) { v, err := none }

/-- A component of a key as an integer (R181); none when the object does not have it. -/
def keyComponent (o : KeyObj) (ext : Option Bytes) (comp : Nat) : Option Nat :=
  if o.type = 0x18 then
    let k := RsaKey.parse (ceilDiv o.len 8) (ext.getD [])
    match comp with
    | 1 => some k.p | 2 => some k.q | 3 => some k.dp | 4 => some k.dq | 5 => some k.qinv | 6 => some k.n | 7 => some k.e
    | _ => none
  else if o.type = 0x19 then
    let k := ceilDiv o.len 8
    match comp with | 6 => some (beAt (ext.getD []) 0 k) | 7 => some (beAt (ext.getD []) k 8) | _ => none
  else if comp != 0 then none
  else if o.type = 0x12 ∨ o.type = 0x13 then some (leNat o.key)
  else if o.type ∈ [0x11, 0x14, 0x22] then none
  else some (beNat o.key)

/-- The object has the component (R182). -/
def hasComponent (o : KeyObj) (comp : Nat) : Bool :=
  if o.type = 0x18 then decide (1 ≤ comp ∧ comp ≤ 7) else if o.type = 0x19 then comp == 6 || comp == 7
  else comp == 0 && !(o.type == 0x11 || o.type == 0x14 || o.type == 0x22)

/-! ## Results (R170 to R174) -/

/-- A key object that a job creates at DEST_HANDLE: TYPE, ORIGIN, PARAM, LEN, material. -/
structure NewObj where
  type : Nat
  origin : Nat
  param : Nat
  len : Nat
  material : Bytes
  deriving DecidableEq, Repr

/-- What a job ends with: status, DETAIL bytes 12 and 13, the result bytes, LENGTH, and an object to create. -/
structure JobRes where
  st : Status
  b12 : Nat
  out : Bytes
  len : Nat
  obj : Option NewObj
  deriving DecidableEq, Repr

def JobRes.ok (out : Bytes) : JobRes := { st := .ok, b12 := 0, out, len := out.length, obj := none }
def JobRes.okObj (out : Bytes) (o : NewObj) : JobRes := { JobRes.ok out with obj := some o }

/-- A failed job: zeros to the full result length (R173). -/
def JobRes.bad (st : Status) (b12 resLen : Nat) : JobRes := { st, b12, out := zeros resLen, len := 0, obj := none }

/-- Material of an EC key object on a curve, with CURVE_FP where the curve is a loaded one (R232). -/
def Die.ecMaterial (d : Die) (tenant id : Nat) (b : Bytes) : Bytes :=
  if 0x80 ≤ id then slice b 0 84 ++ (d.loadedFp tenant id).getD (zeros 12) else b

/-- The private scalar of a key object is in range (R174). -/
def CurveP.scalarOk (c : CurveP) (x : Nat) : Bool := decide (0 < x) && decide (x < c.n)

/-- A peer point or public key as it stands in an operand block: its range and curve checks; `full` adds the check of
n × Q on a curve with a cofactor (R174) (log 36). -/
def CurveP.checkPoint (c : CurveP) (x y : Nat) (full : Bool) : Option Status :=
  if c.p ≤ x ∨ c.p ≤ y then some .operandRange
  else if !c.onCurve x y then some .invalidPoint
  else if full && decide (1 < c.h) && (c.mul c.n (some (x, y))).isSome then some .invalidPoint
  else none

def Die.ecKeygen (d : Die) (r : Req) (c : CurveP) (a : Nat) : JobRes :=
  let x := 1 + beNat (randomBytes a (c.ln + 8)) % (c.n - 1)
  match c.mul x c.base with
  | some (px, py) => .okObj (intBytes r.be c.lp px ++ intBytes r.be c.lp py)
      { type := 0x10, origin := 1, param := r.curve, len := c.ln, material := d.ecMaterial r.tenant r.curve (beBytes c.ln x) }
  | none => .bad .invalidPoint 0 (2 * c.lp)

def ecdhRes (r : Req) (c : CurveP) (key input : Bytes) : JobRes :=
  let px := intOf r.be (slice input 0 c.lp)
  let py := intOf r.be (slice input c.lp c.lp)
  let x := beNat key
  if !c.scalarOk x then .bad .paramRejected 0x10 0
  else match c.checkPoint px py true with
    | some st => .bad st 0 0
    | none => match c.mul x (some (px, py)) with
      | none => .bad .invalidPoint 0 0
      | some (sx, _) => .okObj [] { type := 0x30, origin := 6, param := 0, len := c.lp, material := beBytes c.lp sx }

/-- ECDSA_SIGN with at most two attempts (R178). -/
def ecdsaSign (be : Bool) (c : CurveP) (key dig extra : Bytes) : JobRes :=
  let x := beNat key
  let put (p : Nat × Nat) : Bytes := intBytes be c.ln p.1 ++ intBytes be c.ln p.2
  if !c.scalarOk x then .bad .paramRejected 0x10 (2 * c.ln)
  else
    let t := c.ecdsaTry x dig extra 0
    if t.1 != 0 && t.2 != 0 then { JobRes.ok (put t) with b12 := 1 }
    else { JobRes.ok (put (c.ecdsaTry x dig extra 1)) with b12 := 2 }

def ecdsaVerify (r : Req) (c : CurveP) (key input : Bytes) : JobRes :=
  let inline_ := bit r.mode 0
  let off := if inline_ then 2 * c.lp else 0
  let sr := intOf r.be (slice input off c.ln)
  let ss := intOf r.be (slice input (off + c.ln) c.ln)
  let dig := input.drop (off + 2 * c.ln)
  let check (q : Nat × Nat) : JobRes := if c.ecdsaOk q dig sr ss then .ok [] else .bad .authFail 4 0
  if inline_ then
    let px := intOf r.be (slice input 0 c.lp)
    let py := intOf r.be (slice input c.lp c.lp)
    match c.checkPoint px py false with
    | some st => .bad st 0 0
    | none => check (px, py)
  else match c.decompress (key.take (1 + c.lp)) with
    | none => .bad .paramRejected 0x10 0
    | some q => check q

def ed25519Pub (key : Bytes) : Bytes := (List.range 32).map (Config.ed25519PubByte key)
def ed25519Sign (key msg : Bytes) : Bytes := (List.range 64).map (Config.ed25519SigByte key msg)

def eddsaVerify (r : Req) (key input : Bytes) : JobRes :=
  let inline_ := bit r.mode 0
  let off := if inline_ then 32 else 0
  let pub := if inline_ then slice input 0 32 else key
  let sig := slice input off 64
  let msg := input.drop (off + 64)
  if !Config.ed25519Decodes pub then (if inline_ then .bad .invalidPoint 0 0 else .bad .paramRejected 0x10 0)
  else if !Config.ed25519Decodes (sig.take 32) then .bad .invalidPoint (ofBool inline_) 0
  else if Config.ed25519ScalarOk (sig.drop 32) && Config.ed25519Verifies pub msg sig then .ok [] else .bad .authFail 4 0

/-- X25519 of a scalar and a u-coordinate. -/
def x25519 (scalar u : Bytes) : Bytes := (List.range 32).map (Config.x25519Byte scalar u)

def x25519Keygen (a : Nat) : JobRes :=
  let k := randomBytes a 32
  .okObj (x25519 k (leBytes 32 9)) { type := 0x12, origin := 1, param := 0x10, len := 32, material := k }

def x25519Agree (key input : Bytes) : JobRes :=
  let s := x25519 key input
  if leNat s == 0 then .bad .invalidPoint 0 0 else .okObj [] { type := 0x30, origin := 6, param := 0, len := 32, material := s }

/-- RSA_PRIV with its padding (R170, R177). -/
def rsaPriv (r : Req) (bits_ : Nat) (ext : Option Bytes) (input : Bytes) (a : Nat) : JobRes :=
  let k := ceilDiv bits_ 8
  let alg := rsaHash (bits r.mode 3 2)
  let hl := hashLen alg
  let pad := r.mode % 4
  let resLen := if pad = 3 then k - 2 * hl - 2 else k
  match ext with
  | none => .bad .paramRejected 0x10 resLen
  | some b =>
    let key := RsaKey.parse k b
    if pad = 3 then
      let c := intOf r.be input
      if key.n ≤ c then .bad .operandRange 0 resLen
      else match oaepDecode alg k (beBytes k (key.priv c)) with
        | none => .bad .authFail 5 resLen
        | some m => { JobRes.ok (m ++ zeros (resLen - m.length)) with len := m.length }
    else
      let em := if pad = 1 then pkcs1Encode alg k input else pssEncode alg bits_ input (randomBytes a hl)
      .ok (intBytes r.be k (key.priv (beNat em)))

def rsaPub (r : Req) (input : Bytes) : JobRes :=
  let k := (r.inLen - 8) / 2
  let n := intOf r.be (slice input 0 k)
  let c := intOf r.be (slice input (k + 8) k)
  if n ≤ c then .bad .operandRange 2 k else .ok (intBytes r.be k (modPow c (intOf r.be (slice input k 8)) n))

/-! ## CURVE_LOAD (R192, R193) -/

/-- The curve of a domain-parameter record with integers of `l` bytes. -/
def recordCurve (be : Bool) (b : Bytes) (l : Nat) : CurveP :=
  let f (i : Nat) : Nat := intOf be (slice b (16 + i * l) l)
  { p := f 0, a := f 1, b := f 2, gx := f 3, gy := f 4, n := f 5, h := leAt b 6 1, pBits := leAt b 2 2, nBits := leAt b 4 2 }

/-- A number has exactly this many bits. -/
def hasBits (n k : Nat) : Bool := decide (0 < n) && n.log2 + 1 == k

/-- The checks of R193 in order: the reason of the first that fails. `a` is the draw of the Miller-Rabin bases. -/
def curveReason (b : Bytes) (c : CurveP) (l a held all_ : Nat) : Option Nat :=
  let bases (o : Nat) : List Nat := (List.range 64).map fun i => leNat (randomBytes (a + o + i * l) l)
  let absDiff := if c.h * c.n ≤ c.p + 1 then c.p + 1 - c.h * c.n else c.h * c.n - (c.p + 1)
  if leAt b 0 1 != 1 || leAt b 1 1 != 1 || !hasBits c.p c.pBits || c.p % 2 == 0 || decide (c.pBits < 192) || decide (640 < c.pBits)
    then some 1
  else if !passesRounds c.p (bases 0) then some 2
  else if c.p ≤ c.a ∨ c.p ≤ c.b then some 3
  else if (4 * c.a ^ 3 + 27 * c.b ^ 2) % c.p = 0 then some 4
  else if c.p ≤ c.gx ∨ c.p ≤ c.gy ∨ !c.onCurve c.gx c.gy then some 5
  else if !hasBits c.n c.nBits || c.n == c.p || !passesRounds c.n (bases (64 * l)) then some 6
  else if (c.mul c.n c.base).isSome then some 7
  else if c.h < 1 ∨ 8 < c.h ∨ 4 * c.p < absDiff * absDiff then some 8
  else if c.n ≤ 2 ^ 191 then some 9
  else if 16 ≤ held ∨ 512 ≤ all_ then some 0x0A
  else none

/-! ## Contexts (R164, R165) -/

def Die.updCon (d : Die) (rid : Nat) (f : ConJob → ConJob) : Die :=
  { d with con := { d.con with jobs := updateWhere (fun x => x.rid == rid) f d.con.jobs } }

/-- A job is gone, and its context with it. -/
def Die.dropCon (d : Die) (rid : Nat) : Die := { d with con := { d.con with jobs := d.con.jobs.filter fun j => j.rid != rid } }

/-- A context of a core that holds no job. -/
def Die.idleCtx (d : Die) (core : Nat) : Option Nat := (List.range 4).find? fun k => !d.con.jobs.any fun j => j.ctx == some (core, k)

/-- A job takes a context of 16 KiB, which is zeroized first. -/
def Die.giveCtx (d : Die) (rid core k : Nat) : Die :=
  let d1 := d.updCon rid fun x => { x with ctx := some (core, k) }
  { d1 with con := { d1.con with mem := d1.con.mem.filter fun b => b.1 / 16384 != 4 * core + k } }

/-- A waiting job whose operands load into a context of a core. -/
def Die.loadingOn (d : Die) (core : Nat) : Option ConJob :=
  d.con.jobs.find? fun j => j.place == .waiting && (j.ctx.map Prod.fst) == some core

/-- The job is in a context of this core: its own, an idle one, or that of the job which loads there and goes to another (log 165). None
when every context of the core runs, is preempted or stores. -/
def Die.ctxOn (d : Die) (j : ConJob) (core : Nat) : Option Die :=
  if (j.ctx.map Prod.fst) == some core then some d
  else match d.idleCtx core, d.loadingOn core with
    | some k, _ => some (d.giveCtx j.rid core k)
    | none, some x => some ((d.updCon x.rid fun y => { y with ctx := none }).giveCtx j.rid core ((x.ctx.map Prod.snd).getD 0))
    | none, none => none

/-- Each core that takes jobs loads one of those that wait and have their random values, in fetch order, short before long (log 165). -/
def Die.loadCtxs (d : Die) : Die :=
  (List.range 24).foldl (fun d core =>
    let free (l : Bool) (j : ConJob) : Bool := j.place == .waiting && j.loaded && j.ctx.isNone && j.long == l && j.first != some core
    if !d.inUse .con core || (d.loadingOn core).isSome then d
    else match d.idleCtx core, (d.con.jobs.find? (free false)).or (d.con.jobs.find? (free true)) with
      | some k, some j => d.giveCtx j.rid core k
      | _, _ => d) d

/-! ## Jobs -/

/-- A displaced job of a core resumes when the core is free (R185). -/
def Die.resumeCore (d : Die) (core : Nat) : Die :=
  if d.con.jobs.any fun j => j.place == .running core then d
  else { d with con := { d.con with jobs := updateWhere (fun j => j.place == .displaced core) (fun j => { j with place := .running core, fresh := true }) d.con.jobs } }

/-- A job leaves the dispatcher or its core with a reply. -/
def Die.endCon (e : Env) (d : Die) (r : Req) (j : ConJob) (rep : Reply) : Die :=
  let d1 := d.dropCon j.rid
  (if j.place = .waiting then d1 else d1.resumeCore j.place.core).complete e r rep

/-- A job that is stopped (R187, R188). -/
def Die.stopCon (e : Env) (d : Die) (r : Req) (j : ConJob) (st : Status) : Die :=
  d.endCon e r j (Reply.fail st (conTail j.place.core j.preempted))

/-- A job completes FAULT_RETRY, with zeros written to its result (R189). It counts as a job completed (R195). -/
def Die.faultCon (e : Env) (d : Die) (r : Req) (j : ConJob) (first : Nat) (second : Option Nat) (kind resLen : Nat) : Die :=
  let detail := first % 256 + 2 ^ 8 * (second.getD 0xFF % 256) + 2 ^ 16 * (kind % 16) + 2 ^ 24 * min j.preempted 255
  (((d.output e r r.outAddr (zeros resLen)).endCon e r j (Reply.fail .faultRetry detail))).wrap .CON_JOB_COUNT_COUNT 1

/-- Creates an object at DEST_HANDLE and completes when its slot is written; a handle that has been filled meanwhile
refuses (log 17). -/
def Die.createAt (e : Env) (d : Die) (r : Req) (o : KeyObj) (rep : Reply) : Die :=
  match d.destCheck o.tenant o.handle with
  | some (st, x) => d.fail e r st x
  | none => ((d.putObj o).writeHandle e o.tenant o.handle r.rid).completeWritten e r rep

end Sys2Proof.Machine
end

