-- ==== Sys2Proof/Machine/TableOps.lean ====
section
/-! DEFINITION. The session table as an operation library (spec/04): placement, slot formats, the session cache,
learning, removal, relocation and aging. -/
namespace Sys2Proof.Machine

/-! ## Handles and placement (R114 to R116) -/

/-- Fields of a session handle. -/
def handleHome (h : Nat) : Nat := bits h 63 61
def handleTenant (h : Nat) : Nat := bits h 60 50
def handleBucket (h : Nat) : Nat := bits h 49 20
def handleSid (h : Nat) : Nat := bits h 19 0

def Session.handle (s : Session) : Nat := 2 ^ 61 * s.home + 2 ^ 50 * s.tenant + 2 ^ 20 * s.bucket + s.sid

/-- SFLAGS (R118). -/
def Session.esn (s : Session) : Bool := bit s.sflags 0
def Session.tunnel (s : Session) : Bool := bit s.sflags 1
def Session.noAge (s : Session) : Bool := bit s.sflags 2
def Session.searchable (s : Session) : Bool := bit s.sflags 3
/-- The ESP ICV length. -/
def Session.icv (s : Session) : Nat := match bits s.sflags 5 4 with | 0 => 16 | 1 => 12 | _ => 8

/-- Home bucket of an identifier, or of a learning count for a session reached only by handle (R116). -/
def Die.homeBucket (d : Die) (home tenant proto idLen : Nat) (ident : Bytes) : Nat :=
  sipHash (d.k1 home) (leBytes 2 tenant ++ leBytes 1 proto ++ leBytes 1 idLen ++ ident) * d.mainBuckets / 2 ^ 64

/-- The Crumb bucket that serves a home bucket (R116). -/
def Die.crumbOf (d : Die) (home b : Nat) : Nat := sipHash (d.k2 home) (leBytes 8 b) * (d.mainBuckets / 32) / 2 ^ 64

/-- Steering index and home position of an identifier (R78). -/
def steerIndex (ident : Bytes) : Nat := crc32c ident % 64
def Die.steer (d : Die) (ident : Bytes) : Nat := d.getAt .REC_STEER_POSITION (steerIndex ident)

/-- The key of the bucket a session stands in. -/
def Die.bucketOf (d : Die) (s : Session) : Nat :=
  if s.crumb then crumbKey s.home (d.crumbOf s.home s.bucket) else mainKey s.home s.bucket

def Die.sessionsIn (d : Die) (k : Nat) : List Session := d.kft.sessions.filter fun s => d.bucketOf s == k

def Die.session? (d : Die) (uid : Nat) : Option Session := d.kft.sessions.find? fun s => s.uid == uid

/-- Changes one session. -/
def Die.updSession (d : Die) (uid : Nat) (f : Session → Session) : Die := d.mapSessions (fun s => s.uid == uid) f

/-- BUCKET_META of a main bucket (R117). -/
def BucketMeta.initial : BucketMeta := { nextId := 1, moveGen := 0 }
def Die.bucketMeta (d : Die) (k : Nat) : BucketMeta := sget (fun _ => BucketMeta.initial) d.kft.metas k
def Die.setMeta (d : Die) (k : Nat) (m : BucketMeta) : Die :=
  { d with kft := { d.kft with metas := sput (fun _ => BucketMeta.initial) d.kft.metas k m } }

/-! ## Slot formats (R117 to R119) -/

/-- K of R118. -/
def suiteKeyLen (suite : Nat) : Nat :=
  if suite ∈ [0x01, 0x11, 0x14, 0x15] then 16 else if suite = 0x02 then 24 else 32

/-- AEAD of a suite (ALG of R102). -/
def suiteAlg (suite : Nat) : Nat :=
  if suite ∈ [0x04, 0x13] then 3 else if suite ∈ [0x14, 0x15] then 2 else 1

/-- Tag length of a DTLS suite. -/
def suiteTag (suite : Nat) : Nat := if suite = 0x15 then 8 else 16

/-- W of a session (R118). -/
def Session.window (s : Session) : Nat := 64 * (s.wCode + 1)

/-- The session body (R118). `seqHost` is the next number as the host copy holds it. -/
def Session.body (s : Session) : Bytes :=
  let w := s.window / 8
  match s.proto with
  | 1 => s.key ++ slice s.salt 0 4 ++ leBytes 8 s.h ++ leBytes w s.bitmap
  | 2 => s.key ++ slice s.salt 0 4 ++ leBytes 8 s.hostSeq
  | _ => leBytes 1 s.peerCid.length ++ slice s.peerCid 0 20 ++ leBytes 2 s.rdEpoch ++ leBytes 2 s.wrEpoch ++ s.rdKey ++
      slice s.rdIv 0 12 ++ s.rdSn ++ s.wrKey ++ slice s.wrIv 0 12 ++ s.wrSn ++ leBytes 6 s.h ++ leBytes 6 s.hostSeq ++
      leBytes 6 s.fails ++ leBytes w s.bitmap

/-- Body length by PROTO, suite and window. -/
def bodyLen (proto suite w : Nat) : Nat :=
  let k := suiteKeyLen suite
  match proto with
  | 1 => k + 12 + w / 8
  | 2 => k + 12
  | _ => 67 + 4 * k + w / 8

/-- Slots that a session occupies (R119): the least k with 96 k − 28 at least the body length. -/
def slotsFor (proto suite w : Nat) : Nat := ceilDiv (bodyLen proto suite w + 28) 96

/-- Bytes 16 to 43 of the primary slot (R118), then the body. -/
def Session.content (s : Session) : Bytes :=
  leBytes 1 s.proto ++ leBytes 1 s.suite ++ leBytes 1 s.sflags ++ leBytes 1 s.idLen ++ leBytes 2 s.lastSeen ++
    leBytes 1 s.wCode ++ [0] ++ slice s.ident 0 20 ++ s.body

/-- The session that a content spells, for a tenant; its place and identity are still to be given. -/
def Session.parse (tenant : Nat) (b : Bytes) : Session :=
  let proto := leAt b 0 1
  let suite := leAt b 1 1
  let k := suiteKeyLen suite
  let w := 8 * (leAt b 6 1 + 1)
  let y := b.drop 28
  let dtls := proto == 3
  let o := 25 + 4 * k + 24
  let num (off n : Nat) : Nat := if dtls then leAt y off n else 0
  let raw (off n : Nat) : Bytes := if dtls then slice y off n else []
  { uid := 0, tenant, home := 0, bucket := 0, sid := 0, crumb := false, slots := [], proto, suite, sflags := leAt b 2 1,
    idLen := leAt b 3 1, lastSeen := leAt b 4 2, wCode := leAt b 6 1, ident := slice b 8 20,
    key := if dtls then [] else slice y 0 k, salt := if dtls then [] else slice y k 4,
    h := if proto = 1 then leAt y (k + 4) 8 else num o 6,
    bitmap := if proto = 1 then leAt y (k + 12) w else num (o + 18) w,
    seq := if proto = 2 then leAt y (k + 4) 8 else num (o + 6) 6, fails := num (o + 12) 6,
    peerCid := slice y 1 (num 0 1), rdEpoch := num 21 2, wrEpoch := num 23 2,
    rdKey := raw 25 k, rdIv := raw (25 + k) 12, rdSn := raw (37 + k) k,
    wrKey := raw (37 + 2 * k) k, wrIv := raw (37 + 3 * k) 12, wrSn := raw (49 + 3 * k) k,
    hostH := 0, hostSeq := 0, hostFails := 0, ways := [], rrpv := 0, inFlight := 0, deleting := none }

/-- The payload of part `p` of a session (R117), BUCKET_META as given. -/
def Session.slotPayload (s : Session) (p bmeta : Nat) : Bytes :=
  leBytes 1 (if p = 0 then 1 else 2) ++ leBytes 1 (p + 4 * (s.slots.length - 1)) ++ leBytes 2 s.tenant ++
    leBytes 4 s.bucket ++ leBytes 3 s.sid ++ [0] ++ leBytes 4 bmeta ++ slice s.content (96 * p) 96

/-- The payload of slot `i` of a bucket as it stands (R117). -/
def Die.bucketPayload (d : Die) (k i : Nat) : Bytes :=
  let m := d.bucketMeta k
  let bmeta := if keyKind k = 0 ∧ i = 0 then m.nextId * 4096 + m.moveGen else 0
  match (d.sessionsIn k).find? fun s => s.slots.contains i with
  | some s => s.slotPayload (s.slots.idxOf i) bmeta
  | none => zeros 12 ++ leBytes 4 bmeta ++ zeros 96

/-- Slots of a bucket that hold no session. -/
def Die.freeSlots (d : Die) (k : Nat) : List Nat :=
  (List.range (bucketSlots k)).filter fun i => !(d.sessionsIn k).any fun s => s.slots.contains i

/-- The host copy now holds what the session holds (R123). -/
def Session.synced (s : Session) : Session := { s with hostH := s.h, hostFails := s.fails }

/-- Writes slots of a bucket through to the slice for request `rid`. -/
def Die.writeSlots (e : Env) (d : Die) (k : Nat) (slots : List Nat) (rid : Nat) : Die :=
  (d.mapSessions (fun s => d.bucketOf s == k && s.slots.any slots.contains) Session.synced).beginWrite e k
    (slots.map fun i => (i, d.bucketPayload k i)) rid

/-- Writes a session through, at once or when the interlock of its bucket is free (R123). -/
def Die.writeSession (e : Env) (d : Die) (s : Session) (rid : Nat) : Die :=
  let k := d.bucketOf s
  if d.held k then d.waitInterlock k rid else d.writeSlots e k s.slots rid

/-! ## Usage limits and checkpoints (R90, R91, R123) -/

/-- A limit of R90 after LIMIT_SHIFT. -/
def shifted (limit shift : Nat) : Nat := max 1 (limit / 2 ^ shift)

/-- Records encrypted per key (R90) (log 109). -/
def encryptLimit (suite shift : Nat) : Nat :=
  shifted (match suite with | 0x11 => 2 ^ 24 | 0x12 => 2 ^ 24 | 0x13 => 2 ^ 48 - 1 | _ => 2 ^ 23) shift

/-- Failed decryptions per key (R90). -/
def integrityLimit (suite shift : Nat) : Nat :=
  shifted (match suite with | 0x14 => 2 ^ 23 | 0x15 => 128 | _ => 2 ^ 36) shift

/-- The last usable sequence number (R83, R88). -/
def Session.lastSeq (s : Session) : Nat :=
  if s.proto = 3 then 2 ^ 48 - 1 else if s.esn then 2 ^ 64 - 1 else 2 ^ 32 - 1

/-- What is left of a limit has fallen to REKEY_FRAC sixteenths of it or less (R91). -/
def nearing (remaining limit frac : Nat) : Bool := decide (remaining * 16 ≤ limit * frac)

/-- REKEY_DUE of a session (R91). -/
def Session.rekeyDue (s : Session) (shift frac : Nat) : Bool :=
  let f := max 1 frac
  match s.proto with
  | 1 => nearing (s.lastSeq - s.h) s.lastSeq f
  | 2 => nearing (s.lastSeq + 1 - s.seq) s.lastSeq f
  | _ =>
    let e := encryptLimit s.suite shift
    let i := integrityLimit s.suite shift
    nearing (2 ^ 48 - s.seq) (2 ^ 48 - 1) f || nearing (e - s.seq) e f || nearing (2 ^ 48 - 1 - s.h) (2 ^ 48 - 1) f ||
      decide (i * (16 - f) ≤ s.fails * 16)

/-- H or FAILS has run far enough ahead of the host copy for a checkpoint (R123). -/
def Session.checkpointDue (s : Session) (shift : Nat) : Bool :=
  decide (s.hostH + 4096 ≤ s.h) || decide (s.hostFails + max 1 (integrityLimit s.suite shift / 64) ≤ s.fails)

/-! ## The session cache (R122) -/

/-- Number of sets: S ÷ 16. -/
def Die.cacheSets (d : Die) : Nat := max 1 (d.get .KFT_GEOMETRY_CACHE_UNITS * 4096 / 16)

/-- Entries of the set of a home bucket. -/
def Die.cacheEntries (d : Die) (b : Nat) : List CacheEntry :=
  (d.kft.sessions.filter fun s => !s.ways.isEmpty && s.bucket % d.cacheSets == b % d.cacheSets).map fun s =>
    { id := s.uid, ways := s.ways, rrpv := s.rrpv, pinned := s.inFlight != 0 }

/-- Fills a session into the cache at value 2, writing evicted sessions back (R122, R123). None when every way of its
set is pinned. -/
def Die.fillSession (e : Env) (d : Die) (s : Session) : Option Die :=
  let es := d.cacheEntries s.bucket
  match makeRoom s.slots.length es.length es with
  | none => none
  | some left =>
    let gone := es.filter fun x => !left.any fun y => y.id == x.id
    let d1 := d.mapSessions (fun x => gone.any fun y => y.id == x.uid) fun x => { x with ways := [], hostSeq := x.seq }
    let d2 := gone.foldl (fun d y => match d.session? y.id with | some x => d.writeSession e x 0 | none => d) d1
    let d3 := d2.mapSessions (fun x => left.any fun y => y.id == x.uid) fun x =>
      { x with rrpv := ((left.find? fun y => y.id == x.uid).map fun y => y.rrpv).getD x.rrpv }
    some (d3.updSession s.uid fun x => { x with ways := (freeWays left).take s.slots.length, rrpv := 2 })

/-! ## Counts of slots (R125, R127, R325) -/

def Die.usedFld (s : Session) : Fld := if s.crumb then .KFT_CRUMB_USED_COUNT else .KFT_MAIN_USED_COUNT

/-- A tenant's share of slots on this die: ⌈Q ÷ N⌉ (R127). -/
def Die.tableShare (d : Die) (tenant : Nat) : Nat :=
  if tenant / 256 = d.pos then d.getAt .KFT_TEN_SHARE_SLOTS (tenant % 256)
  else match d.section? 4 tenant with
    | some s => ceilDiv (leAt s.body 8 4) d.size
    | none => 0

/-- Counts a session in: shares, tables and steering index; QUOTA_WARN at 15/16 of the share. -/
def Die.countIn (d : Die) (s : Session) : Die :=
  let d1 := ((d.addAt .KFT_TEN_USED_SLOTS s.tenant s.slots.length).add (Die.usedFld s) s.slots.length)
  let d2 := if s.searchable then d1.addAt .ENS_STEER_COUNT_SESSIONS (steerIndex (s.ident.take s.idLen)) 1 else d1
  if d2.tableShare s.tenant * 15 ≤ d2.getAt .KFT_TEN_USED_SLOTS s.tenant * 16 then d2.event .KFT_EVENT_QUOTA_WARN else d2

/-- Counts a session out; at the last searchable session of an index at its previous position VALID is cleared (R325). -/
def Die.countOut (d : Die) (s : Session) : Die :=
  let d1 := (d.subAt .KFT_TEN_USED_SLOTS s.tenant s.slots.length).sub (Die.usedFld s) s.slots.length
  if s.searchable then
    let i := steerIndex (s.ident.take s.idLen)
    let d2 := d1.subAt .ENS_STEER_COUNT_SESSIONS i 1
    if d2.getAt .ENS_STEER_COUNT_SESSIONS i == 0 && d2.hasAt .ENS_STEER_PREV_VALID i &&
       d2.getAt .ENS_STEER_PREV_POSITION i == s.home
    then (d2.setAt .ENS_STEER_PREV_VALID i 0).sendRing .steer none (leBytes 1 i ++ leBytes 1 s.home ++ [0])
    else d2
  else d1

/-- Removes a session: its slots zeroized in the cache and in the slice, its share credited (R132, R138). -/
def Die.removeSession (e : Env) (d : Die) (s : Session) (rid : Nat) : Die :=
  let k := d.bucketOf s
  let d1 := { d with kft := { d.kft with sessions := d.kft.sessions.filter fun x => x.uid != s.uid } }.countOut s
  d1.writeSlots e k s.slots rid

/-! ## Reading a bucket (R145, R153)

Of a slice that this die has written itself, the sessions of the model are what the slots hold. Of a slice that another die wrote, a
bucket's sessions are taken in when it is first read. -/

/-- A session of an adopted slice takes the adjustments of R124. -/
def Session.adopted (s : Session) (shift : Nat) : Session :=
  { s with h := if s.proto = 2 then s.h else s.h + 4096, bitmap := if s.proto = 2 then s.bitmap else 2 ^ s.window - 1,
           fails := s.fails + max 1 (integrityLimit s.suite shift / 64) }

/-- LIMIT_SHIFT of a tenant's REC_TEN_CFG, 0 where this die holds no page of the tenant. -/
def Die.limitShift (d : Die) (tenant : Nat) : Nat := ((d.fnOf? tenant).map fun fn => d.getAt .REC_TEN_CFG0_LIMIT_SHIFT fn).getD 0

/-- The session whose first part stands in slot `i` of bucket `k`, from the payloads of the bucket's slots. -/
def Die.sessionAt (d : Die) (k : Nat) (ps : List (Nat × Bytes)) (adjust : Bool) (i : Nat) (b : Bytes) : Option Session :=
  if leAt b 0 1 != 1 || leAt b 1 1 % 4 != 0 then none
  else
    let n := leAt b 1 1 / 4 + 1
    let parts := (List.range n).filterMap fun p => ps.find? fun x =>
      leAt x.2 0 1 == (if p = 0 then 1 else 2) && leAt x.2 1 1 == leAt b 1 1 + p && slice x.2 2 9 == slice b 2 9 && (p != 0 || x.1 == i)
    if parts.length != n then none
    else
      let s := Session.parse (leAt b 2 2) (parts.flatMap fun x => slice x.2 16 96)
      let s1 := { s with home := keyHome k, bucket := leAt b 4 4, sid := leAt b 8 3, crumb := keyKind k == 1, slots := parts.map Prod.fst,
                         hostH := s.h, hostSeq := s.seq, hostFails := s.fails }
      some (if adjust then s1.adopted (d.limitShift s1.tenant) else s1)

/-- Takes one session in. -/
def Die.takeSession (d : Die) (s : Session) : Die :=
  let s1 := { s with uid := d.kft.nextUid }
  { d with kft := { d.kft with sessions := d.kft.sessions ++ [s1], nextUid := d.kft.nextUid + 1 } }.countIn s1

/-- Takes in the sessions, and the BUCKET_META, of a bucket that has been checked, where another die wrote its slice and they have not
been taken in before (R117, R124, R153). -/
def Die.takeBucket (e : Env) (d : Die) (k : Nat) : Die :=
  match d.mlf.foreign.find? fun f => f.1 == keyHome k with
  | none => d
  | some f =>
    if d.mlf.taken.contains k then d
    else
      let i0 := d.slotIndex k 0
      let ps := (List.range (bucketSlots k)).filterMap fun i =>
        (d.openSlot e (keyHome k) (i0 + i) (d.childVersion (keyHome k) 0 (i0 + i))).map fun b => (i, b)
      let w := leAt ((ps.head?.map Prod.snd).getD []) 12 4
      let d1 : Die := { d with mlf := { d.mlf with taken := d.mlf.taken ++ [k] } }
      let d2 := if keyKind k = 0 ∧ w ≠ 0 then d1.setMeta k { nextId := w / 4096, moveGen := w % 4096 } else d1
      (ps.filterMap fun x => d2.sessionAt k ps f.2 x.1 x.2).foldl Die.takeSession d2

/-- Reads a bucket for a tenant, 0 for none (R145): a bucket known never to have been written needs no read (R144), an item that fails
its check is reported (R157), and a bucket of a slice that another die wrote is taken in. -/
def Die.readBucket (e : Env) (d : Die) (tenant k : Nat) : Die × Option StoreFault :=
  if d.knownEmpty k then (d, none)
  else match d.checkBucket e k with
    | (d1, some f) => (d1.storeFault e tenant (keyHome k) f, some f)
    | (d1, none) => (d1.takeBucket e k, none)

/-- Reads two buckets, the second only when the first could be read. -/
def Die.readBuckets (e : Env) (d : Die) (tenant k c : Nat) : Die × Option StoreFault :=
  match d.readBucket e tenant k with
  | (d1, some f) => (d1, some f)
  | (d1, none) => d1.readBucket e tenant c

/-! ## Locks (R136, R137) -/

def Die.lockOf (d : Die) (k : Nat) : Option Lock := d.kft.locks.find? fun l => l.bucket == k
def Die.locked (d : Die) (k : Nat) : Bool := (d.lockOf k).isSome
def Die.dropLock (d : Die) (k : Nat) : Die := { d with kft := { d.kft with locks := d.kft.locks.filter fun l => l.bucket != k } }
def Die.locksHeld (d : Die) (tenant : Nat) : Nat := (d.kft.locks.filter fun l => l.tenant == tenant).length

/-! ## Relocation (R128) -/

/-- Sessions of a home bucket's Crumb bucket that fit back: most slots first, then the lowest Crumb slot. -/
def Die.relocatable (d : Die) (home b : Nat) : Option Session :=
  let free := (d.freeSlots (mainKey home b)).length
  let fit := d.kft.sessions.filter fun s => s.home == home && s.bucket == b && s.crumb && s.deleting.isNone &&
    decide (s.slots.length ≤ free)
  let low (s : Session) : Nat := s.slots.foldl min 8
  let most := fit.foldl (fun a s => max a s.slots.length) 0
  (List.range 8).findSome? fun i => fit.find? fun s => s.slots.length == most && low s == i

/-- Slots of a main bucket that are written with slot 0, which carries BUCKET_META. -/
def withMeta (slots : List Nat) : List Nat := if slots.contains 0 then slots else 0 :: slots

/-- Moves session `s` of Crumb bucket `c` back into its main bucket `k`: MOVE_GEN raised with the write into the main bucket. The Crumb
slots follow when that write is complete. -/
def Die.moveSession (e : Env) (d : Die) (k c : Nat) (s : Session) (rid : Nat) : Die :=
  let m := d.bucketMeta k
  let dst := (d.freeSlots k).take s.slots.length
  let d1 := (d.setMeta k { m with moveGen := (m.moveGen + 1) % 4096 }).updSession s.uid fun x => { x with crumb := false, slots := dst }
  let d2 := (((d1.sub .KFT_CRUMB_USED_COUNT s.slots.length).add .KFT_MAIN_USED_COUNT s.slots.length).writeSlots e k (withMeta dst) 0).add
    .KFT_RELOC_COUNT_COUNT 1
  { d2 with kft := { d2.kft with moves := d2.kft.moves ++ [{ main := k, crumb := c, slots := s.slots, rid }] } }

/-- Something is being written in a bucket. -/
def Die.writing (d : Die) (k : Nat) : Bool := d.mlf.writes.any fun w => w.parts.any fun p => p.bucket == k

/-- A relocation goes on (R128): the Crumb slots are written empty when the main bucket's write is complete, and the relocation is over
when that write is. -/
def Die.stepMove (e : Env) (d : Die) (m : Move) : Die :=
  if d.writing m.main then d
  else if m.slots.isEmpty then
    if d.writing m.crumb then d else { d with kft := { d.kft with moves := d.kft.moves.filter fun x => x != m } }
  else
    { d with kft := { d.kft with moves := updateWhere (fun x => x == m) (fun x => { x with slots := [] }) d.kft.moves } }.writeSlots e
      m.crumb m.slots 0

/-- Relocates into main bucket `k` of which slots have become free, where a session fits (R128); whether anything is left to do. -/
def Die.relocate (e : Env) (d : Die) (k rid : Nat) : Die × Bool :=
  let home := keyHome k
  let c := crumbKey home (d.crumbOf home (keyIdx k))
  if d.bucketPoisoned k || d.bucketPoisoned c then (d, false)
  else if d.locked k || d.inWrite k || d.inWrite c then (d, true)
  else match d.readBuckets e 0 k c with
    | (d1, some _) => (d1, false)
    | (d1, none) =>
      match d1.relocatable home (keyIdx k) with
      | none => (d1, false)
      | some s => (d1.moveSession e k c s rid, true)

/-- One main bucket that a deletion has freed slots of (R138): its entry stays until nothing more can be moved. -/
def Die.stepDue (e : Env) (d : Die) (x : Nat × Nat) : Die :=
  match d.relocate e x.1 x.2 with
  | (d1, true) => d1
  | (d1, false) => { d1 with kft := { d1.kft with relocDue := d1.kft.relocDue.filter fun y => y != x } }

/-- Relocations go on after a slot write: those between their writes, then those that a deletion made due. -/
def Die.stepMoves (e : Env) (d : Die) : Die :=
  let d1 := d.kft.moves.foldl (Die.stepMove e) d
  let d2 := d1.kft.moves.foldl (Die.stepMove e) d1
  d2.kft.relocDue.foldl (Die.stepDue e) d2

/-! ## Learning (R125, R126) -/

/-- How a learning ends. -/
inductive LearnResult where
  | learned (d : Die) (s : Session)
  | refused (d : Die) (st : Status) (detail : Nat)
  /-- waits for an interlock on this bucket -/
  | waits (bucket : Nat)
  /-- waits for the lock on this bucket (R137) -/
  | locked (bucket : Nat)

/-- The next SESSION_ID of a home bucket that no session of it holds: 20 bits, skipping 0. -/
def Die.freshSid (d : Die) (home b : Nat) : Nat → Nat → Nat
  | 0, n => n
  | fuel + 1, n =>
    if n = 0 || d.kft.sessions.any (fun s => s.home == home && s.bucket == b && s.sid == n)
    then d.freshSid home b fuel ((n + 1) % 2 ^ 20) else n

/-- LEARNED of a session homed on the die `origin`, with the pair and the TAG of the request that learned (R60, R126). -/
def Die.notifyLearned (e : Env) (d : Die) (r : Req) (origin session proto suite slots : Nat) (crumb : Bool) : Die :=
  d.notifyFrom e origin r.tenant 1 r.pair 0 r.tag session (leBytes 1 proto ++ leBytes 1 suite ++ leBytes 1 slots ++ leBytes 1 (ofBool crumb))

/-- A session of the tenant with this PROTO and identifier stands in the home bucket or its Crumb bucket. -/
def Die.hasIdent (d : Die) (home b tenant proto idLen : Nat) (ident : Bytes) : Bool :=
  d.kft.sessions.any fun s => s.home == home && s.bucket == b && s.tenant == tenant && s.proto == proto &&
    s.idLen == idLen && s.ident == ident && s.searchable && s.deleting.isNone

/-- KFT_TEN_FULL on the tenant's page: learnings that were refused by the share, or for want of slots (R125, R127). On a die without
that page nothing: it counts where the completion of the forwarded learning arrives. -/
def Die.countRefused (d : Die) (tenant : Nat) (f : Fld) : Die :=
  match d.fnOf? tenant with
  | some fn => d.addAt f fn 1
  | none => d

/-- TABLE_FULL and its consequences (R125). -/
def Die.tableFull (e : Env) (d : Die) (tenant : Nat) : Die :=
  (((d.add .KFT_FULL_COUNT_COUNT 1).event .KFT_EVENT_TABLE_FULL).countRefused tenant .KFT_TEN_FULL_TABLE_FULL).report e
    { Report.of 0x0305 with tenant }

/-- The home bucket of a session to be learned: by its identifier, or by the number of the learning (R116). -/
def Die.learnBucket (d : Die) (s : Session) (home : Nat) : Nat :=
  if s.searchable then d.homeBucket home s.tenant s.proto s.idLen (s.ident.take s.idLen)
  else d.homeBucket home s.tenant s.proto 8 (leBytes 8 (d.get .KFT_LEARN_COUNT_COUNT))

/-- Places a session in its home bucket, or else in the Crumb bucket, under the next SESSION_ID, and writes both through (R125). -/
def Die.placeSession (e : Env) (d : Die) (s : Session) (home b rid : Nat) : LearnResult :=
  let k := slotsFor s.proto s.suite (if s.proto = 2 then 0 else s.window)
  let m := mainKey home b
  let c := crumbKey home (d.crumbOf home b)
  let sid := d.freshSid home b 2048 (d.bucketMeta m).nextId
  let next := if (sid + 1) % 2 ^ 20 = 0 then 1 else (sid + 1) % 2 ^ 20
  let fm := d.freeSlots m
  let fc := d.freeSlots c
  let d0 := d.setMeta m { d.bucketMeta m with nextId := next }
  if fm.length < k ∧ fc.length < k then .refused (d0.tableFull e s.tenant) .tableFull 0
  else
    let inMain := decide (k ≤ fm.length)
    let slots := (if inMain then fm else fc).take k
    let s1 := { s with uid := d.kft.nextUid, home, bucket := b, sid, crumb := !inMain, slots, hostH := s.h, hostSeq := s.seq,
                       hostFails := s.fails, ways := [], rrpv := 0, inFlight := 0, deleting := none, lastSeen := d.get .KFT_MINUTE_MINUTE }
    let d1 := { d0 with kft := { d0.kft with sessions := d0.kft.sessions ++ [s1], nextUid := d0.kft.nextUid + 1 } }
    let d2 := (d1.countIn s1).wrap .KFT_LEARN_COUNT_COUNT 1
    let d3 := d2.writeSlots e m (if inMain then withMeta slots else [0]) rid
    let d4 := if inMain then d3 else d3.writeSlots e c slots rid
    .learned (d4.count 5 3 s.tenant 1) s1

/-- Learns a session in the slice of position `home` (R125). `s` carries everything but its place and identity. -/
def Die.learn (e : Env) (d : Die) (s : Session) (home rid : Nat) : LearnResult :=
  let k := slotsFor s.proto s.suite (if s.proto = 2 then 0 else s.window)
  if d.tableShare s.tenant < d.getAt .KFT_TEN_USED_SLOTS s.tenant + k then
    .refused (d.countRefused s.tenant .KFT_TEN_FULL_QUOTA_REFUSED) .limitReached 4
  else if d.key.esk.isNone then .refused d .keyExpired 0
  else if !d.servesSlice home || d.mainBuckets == 0 then .refused (d.tableFull e s.tenant) .tableFull 0
  else
    let b := d.learnBucket s home
    let m := mainKey home b
    let c := crumbKey home (d.crumbOf home b)
    if d.heldFor m rid then .waits m
    else if d.heldFor c rid then .waits c
    else if d.locked m then .locked m
    else if d.bucketPoisoned m || d.bucketPoisoned c then .refused d .storeIntegrity 0
    else match d.readBuckets e s.tenant m c with
      | (d1, some f) => .refused d1 f.status 0
      | (d1, none) =>
        let d2 := (d1.passInterlock m rid).passInterlock c rid
        if s.searchable && d2.hasIdent home b s.tenant s.proto s.idLen s.ident then .refused d2 .paramRejected 0
        else d2.placeSession e s home b rid

/-! ## Aging (R129 to R133) -/

/-- The age of a session in minutes. -/
def Die.age (d : Die) (s : Session) : Nat := (d.get .KFT_MINUTE_MINUTE + 2 ^ 16 - s.lastSeen) % 2 ^ 16

/-- A tenant's age limit L. -/
def Die.ageLimit (d : Die) (tenant : Nat) : Nat :=
  if tenant / 256 = d.pos then d.getAt .KFT_TEN_CFG_AGE_LIMIT (tenant % 256)
  else match d.section? 4 tenant with
    | some s => leAt s.body 18 2
    | none => 0

/-- The session is over its age limit (R131). -/
def Die.aged (d : Die) (s : Session) : Bool :=
  let l := d.ageLimit s.tenant
  l != 0 && !s.noAge && decide (l + 1 ≤ d.age s)

/-- Closes a tenant's batch: one AGED entry for each session in it (R133). DESIGN CHOICE (log 157): the batch number, which R133 lets
count per tenant and home die, begins at 0. -/
def Die.closeBatch (e : Env) (d : Die) (tenant : Nat) : Die :=
  match d.kft.batches.find? fun b => b.tenant == tenant with
  | none => d
  | some b =>
    let n := tget d.kft.batchNo tenant
    let d1 := { d with kft := { d.kft with batches := d.kft.batches.filter fun x => x.tenant != tenant,
                                           batchNo := tput d.kft.batchNo tenant ((n + 1) % 2 ^ 32) } }
    b.entries.foldl (fun d x =>
      d.notify e tenant 2 0xFF b.entries.length (zeros 8) x.1 (leBytes 2 x.2.1 ++ leBytes 2 x.2.2 ++ leBytes 4 n)) d1

/-- Adds an aged session to its tenant's batch; the batch closes at 64 entries (R133). Whether the tenant wants AGED entries is asked
where they are posted. -/
def Die.addAged (e : Env) (d : Die) (s : Session) : Die :=
  let entry := (s.handle, s.lastSeen, d.get .KFT_MINUTE_MINUTE)
  let bs := d.kft.batches
  let bs1 := if bs.any fun b => b.tenant == s.tenant
    then updateWhere (fun b => b.tenant == s.tenant) (fun b => { b with entries := b.entries ++ [entry] }) bs
    else bs ++ [{ tenant := s.tenant, entries := [entry] }]
  let d1 := { d with kft := { d.kft with batches := bs1 } }
  if bs1.any fun b => b.tenant == s.tenant && decide (64 ≤ b.entries.length) then d1.closeBatch e s.tenant else d1

end Sys2Proof.Machine
end

