-- ==== Sys2Proof/Machine/RecordOps.lean ====
section
/-! DEFINITION. Records as an operation library (spec/03): headers, sequence numbers, nonces, padding, anti-replay,
usage limits, lanes and the release of held records. -/
namespace Sys2Proof.Machine

/-! ## Settings and input of a record request -/

/-- REC_TEN_CFG of the submitting tenant. -/
structure RecCfg where
  rekeyFrac : Nat
  limitShift : Nat
  cidLen : Nat
  noLen : Bool
  seq8 : Bool
  deriving DecidableEq, Repr

/-- The settings as the 8 bytes that travel with a forwarded record (log 12). -/
def RecCfg.bytes (c : RecCfg) : Bytes :=
  leBytes 1 c.rekeyFrac ++ leBytes 1 c.limitShift ++ leBytes 1 c.cidLen ++ leBytes 1 (ofBool c.noLen) ++
    leBytes 1 (ofBool c.seq8) ++ zeros 3

/-- The settings of a function's tenant (R111). -/
def Die.recCfgOf (d : Die) (fn : Nat) : RecCfg :=
  { rekeyFrac := d.getAt .REC_TEN_CFG0_REKEY_FRAC fn, limitShift := d.getAt .REC_TEN_CFG0_LIMIT_SHIFT fn,
    cidLen := d.getAt .REC_TEN_CFG0_CID_LEN fn, noLen := d.hasAt .REC_TEN_CFG1_OUT_NO_LEN fn,
    seq8 := d.hasAt .REC_TEN_CFG1_OUT_SEQ8 fn }

/-- The settings a request runs under: a forwarded record brings its tenant's. -/
def Die.recCfg (d : Die) (r : Req) : RecCfg :=
  match r.fn? with
  | some fn => d.recCfgOf fn
  | none => { rekeyFrac := leAt r.input 0 1, limitShift := leAt r.input 1 1, cidLen := leAt r.input 2 1,
              noLen := leAt r.input 3 1 != 0, seq8 := leAt r.input 4 1 != 0 }

/-- OFLAGS.KEY_CONTENT of an outbound record (R75). -/
def Req.keyContent (r : Req) : Bool := (r.opcode == 0x11 || r.opcode == 0x13) && bit (r.byte 58) 0

/-- The material that KEY_CONTENT appends on the submitting tenant's die (R75). -/
def Die.contentKey (d : Die) (r : Req) : Bytes :=
  if r.keyContent then ((d.obj? r.tenant (leAt r.desc 60 2)).map KeyObj.key).getD [] else []

/-- The record or content of a request: read from host memory, or as it was forwarded. -/
def Die.recInput (e : Env) (d : Die) (r : Req) : Bytes :=
  match r.origin with
  | .ring .. => r.input.drop 8
  | .pair .. => dmaRead e d r.inAddr r.inLen ++ d.contentKey r

/-! ## Headers (R78, R85) -/

/-- A DTLS 1.3 unified header: its length, its connection ID, the bytes of its sequence field and its epoch bits. -/
structure DtlsHdr where
  len : Nat
  cid : Option Bytes
  seqLen : Nat
  hasLen : Bool
  ee : Nat
  deriving DecidableEq, Repr

/-- Parses the unified header of a record (R85); none when it does not parse (log 27). -/
def parseDtls (rec : Bytes) (cidLen : Nat) : Option DtlsHdr :=
  let b := leAt rec 0 1
  let c := bit b 4
  let s := bit b 3
  let l := bit b 2
  let n := 1 + (if c then cidLen else 0) + (if s then 2 else 1) + (if l then 2 else 0)
  if rec.isEmpty || bits b 7 5 != 1 || (c && cidLen == 0) || decide (rec.length < n) then none
  else if l && beAt rec (n - 2) 2 + n != rec.length then none
  else some { len := n, cid := if c then some (slice rec 1 cidLen) else none, seqLen := if s then 2 else 1,
              hasLen := l, ee := bits b 1 0 }

/-- An inbound DTLS record with a first byte of the unified form ends before its header does (R77, R85). -/
def dtlsShort (rec : Bytes) (cidLen : Nat) : Bool :=
  let b := leAt rec 0 1
  let n := 1 + (if bit b 4 then cidLen else 0) + (if bit b 3 then 2 else 1) + (if bit b 2 then 2 else 0)
  rec.isEmpty || (bits b 7 5 == 1 && !(bit b 4 && cidLen == 0) && decide (rec.length < n))

/-- What a lookup searches for (R120): an identifier with its PROTO, or a session handle. -/
inductive LookKey where
  | ident (proto : Nat) (id : Bytes)
  | handle (h : Nat)
  deriving DecidableEq, Repr

/-- A session matches a key of a tenant (R120). -/
def Session.matches (s : Session) (tenant : Nat) : LookKey → Bool
  | .ident p id => s.tenant == tenant && s.proto == p && s.searchable && s.idLen == id.length &&
      s.ident.take s.idLen == id
  | .handle h => s.tenant == tenant && s.tenant == handleTenant h && s.home == handleHome h && s.bucket == handleBucket h &&
      s.sid == handleSid h

/-- The key by which a record or table request names its session; none when it names none (R74, R79, R134). -/
def Die.lookKey (e : Env) (d : Die) (r : Req) : Option LookKey :=
  if r.opcode == 0x82 then
    some (.ident (r.byte 56) (match r.origin with
      | .ring .. => r.input.drop 8
      | .pair .. => dmaRead e d r.inAddr r.inLen))
  else if r.handle != 0 then some (.handle r.handle)
  else if r.opcode == 0x10 then some (.ident 1 (slice (d.recInput e r) 0 4))
  else if r.opcode == 0x12 then
    match (parseDtls (d.recInput e r) (d.recCfg r).cidLen).bind fun h => h.cid with
    | some c => some (.ident 3 c)
    | none => none
  else none

/-- The position whose slice holds what a key names (R78, R79). -/
def Die.keyPosition (d : Die) : LookKey → Nat
  | .ident _ id => d.steer id
  | .handle h => handleHome h

/-- The home bucket of a key in the slice of position `home`. -/
def Die.keyBucket (d : Die) (tenant home : Nat) : LookKey → Nat
  | .ident p id => d.homeBucket home tenant p id.length id
  | .handle h => handleBucket h

/-! ## Sequence numbers and nonces (R83, R86, R89) -/

/-- The full ESP sequence number by RFC 4303 appendix A from the low 32 bits; none when it would lie below 0 (R83). -/
def espInfer (s : Session) (low : Nat) : Option Nat :=
  if !s.esn then some low
  else
    let th := s.h / 2 ^ 32
    let tl := s.h % 2 ^ 32
    let w := s.window
    if w - 1 ≤ tl then
      if tl + 1 - w ≤ low then some (2 ^ 32 * th + low) else some (2 ^ 32 * (th + 1) + low)
    else
      if (tl + 1 + 2 ^ 32 - w) % 2 ^ 32 ≤ low then (if th = 0 then none else some (2 ^ 32 * (th - 1) + low))
      else some (2 ^ 32 * th + low)

/-- The full DTLS sequence number closest to one more than the highest accepted (R87), from `n` bits of it. -/
def dtlsReconstruct (h n low : Nat) : Nat :=
  let m := 2 ^ n
  let want := h + 1
  let c := want / m * m + low
  let dist (x : Nat) : Nat := max x want - min x want
  let c1 := if m ≤ c ∧ dist (c - m) < dist c then c - m else c
  if dist (c + m) < dist c1 then c + m else c1

/-- The provisional check of R89: the number is inside the window and not seen. -/
def Session.fresh (s : Session) (n : Nat) : Bool :=
  !(decide (n + s.window ≤ s.h) || (decide (n ≤ s.h) && bit s.bitmap (s.h - n)))

/-- The window after the release of number `n` (R89). -/
def Session.accept (s : Session) (n : Nat) : Session :=
  if s.h < n then { s with h := n, bitmap := (s.bitmap * 2 ^ (n - s.h) + 1) % 2 ^ s.window }
  else { s with bitmap := s.bitmap ||| 2 ^ (s.h - n) }

/-- The nonce of a DTLS record (R86). -/
def dtlsNonce (iv : Bytes) (seq : Nat) : Bytes := xorBytes iv (beBytes 12 seq)

/-- The record-number mask over a ciphertext sample (R86). -/
def snMask (suite : Nat) (key sample : Bytes) (n : Nat) : Bytes :=
  (List.range n).map (Config.maskByte (if suiteAlg suite = 3 then 3 else 1) key sample)

/-! ## Lanes -/

/-- Bytes of hold buffer that a held job takes, in 256-byte units (R94). -/
def LaneJob.hold (j : LaneJob) : Nat := ceilDiv j.body.length 256 * 256

/-- Hold space in use in a lane. -/
def Die.holdUsed (d : Die) (l : Nat) : Nat := ((d.rcp.jobs.filter fun j => j.lane == l).map LaneJob.hold).sum


/-- The lane a job is issued to: of the open lanes with space for it, but not its first one, the one that holds least,
and of these the lowest (log 13). -/
def Die.pickLane (d : Die) (avoid : Option Nat) (need : Nat) : Option Nat :=
  let ls := d.openLanes.filter fun l => some l != avoid && decide (d.holdUsed l + need ≤ 131072)
  let least := ls.foldl (fun a l => min a (d.holdUsed l)) (2 ^ 40)
  ls.find? fun l => d.holdUsed l == least


/-- Lane `l` becomes busy: counted where it held no work (R442). -/
def Die.laneBegins (d : Die) (l tenant : Nat) : Die :=
  if d.rcp.jobs.any (fun j => j.lane == l) || d.rcp.streams.any (fun j => j.lane == l) then d else d.count 3 0x10 tenant 1

/-! ## The end of a record (R71, R91) -/

/-- Forgets the stamp that the lookup of a request replaced. -/
def Req.noStamp (r : Req) : Req := { r with stamp := none }

/-- The status of a record settles the stamp refresh of its lookup (R71, R130): a status that changes no session slot takes it back,
unless another record of the session, in flight, has refreshed it too; any other status lets it stand. -/
def Die.settleStamp (e : Env) (d : Die) (r : Req) (st : Status) : Die :=
  match ((d.req? r.rid).getD r).stamp with
  | none => d
  | some (uid, old) =>
    let shares (x : Req) : Bool := (x.stamp.map Prod.fst) == some uid
    if !st.returnsUse then { d with que := { d.que with reqs := updateWhere shares Req.noStamp d.que.reqs } }
    else
      let d1 := d.updReq r.rid Req.noStamp
      if d1.que.reqs.any shares then d1
      else
        let d2 := d1.updSession uid fun x => { x with lastSeen := old }
        match d2.session? uid with
        | some x => d2.writeSession e x 0
        | none => d2

/-- The reply of a record whose session is known: it names the session, and warns of a limit that is near (R91); NO_SESSION names
none. -/
def Die.recordReply (d : Die) (r : Req) (s : Session) (rep : Reply) : Reply :=
  let c := d.recCfg r
  let cur := (d.session? s.uid).getD s
  if rep.status == .noSession then rep
  else { rep with flags := rep.flags ||| replyFlags false (cur.rekeyDue c.limitShift c.rekeyFrac) false false false, session := cur.handle }

/-- A record ends, with its session left. -/
def Die.endRecord (e : Env) (d : Die) (r : Req) (s : Session) (rep : Reply) : Die :=
  ((d.leaveSession s.uid).settleStamp e r rep.status).complete e r (d.recordReply r s rep)

/-- Removes a lane job. -/
def Die.dropJob (d : Die) (rid : Nat) : Die := { d with rcp := { d.rcp with jobs := d.rcp.jobs.filter fun j => j.rid != rid } }

/-- A held record or object ends without a result. -/
def Die.endJob (e : Env) (d : Die) (r : Req) (j : LaneJob) (rep : Reply) : Die :=
  let d1 := d.dropJob j.rid
  match d1.session? j.uid with
  | some s => d1.endRecord e r s rep
  | none => d1.complete e r rep

/-- Changes one held job. -/
def Die.updJob (d : Die) (rid : Nat) (f : LaneJob → LaneJob) : Die :=
  { d with rcp := { d.rcp with jobs := updateWhere (fun x => x.rid == rid) f d.rcp.jobs } }

/-- Changes one stream. -/
def Die.updStream (d : Die) (rid : Nat) (f : StreamJob → StreamJob) : Die :=
  { d with rcp := { d.rcp with streams := updateWhere (fun x => x.rid == rid) f d.rcp.streams } }

/-! ## Placing work on lanes (R94, R103, R234, R276) -/

/-- Issues one waiting held job to a lane. The key use that its dispatch counts is counted here: a use that is refused ends the
request, and one that waits for room in the key cache leaves it waiting (R75, R234, R240). -/
def Die.placeOne (e : Env) (d : Die) (j : LaneJob) : Die :=
  let t := d.tenantOfRid j.rid
  if j.lane != noLane || !d.servable t 0 then d
  else match d.pickLane j.first j.hold, d.req? j.rid with
    | some l, some r =>
      let put (d : Die) (key : Bytes) : Die :=
        let d0 := (if j.uid = 0 then d.setStage j.rid .running else d).laneBegins l t
        (d0.updJob j.rid fun x => { x with lane := l, key, use := none }).charge t 0 (laneCycles j.alg j.body.length)
      match j.use with
      | none => put d j.key
      | some (h, u) =>
        match d.takeUse e r h u with
        | .counted d1 => put d1 (if j.uid = 0 then ((d1.obj? r.tenant h).map KeyObj.key).getD [] else j.key)
        | .refused d1 st x => d1.endJob e r j (Reply.fail st x)
        | .waits => d
    | _, _ => d

/-- Bytes of the chunk a stream has next (R103). -/
def StreamJob.chunk (j : StreamJob) : Nat := min 65536 (j.total - j.off)

def Die.dropStream (d : Die) (rid : Nat) : Die :=
  { d with rcp := { d.rcp with streams := d.rcp.streams.filter fun x => x.rid != rid } }

/-- Schedules the next chunk of one waiting stream on a lane (R103); its first counts the key use. -/
def Die.placeStream (e : Env) (d : Die) (j : StreamJob) : Die :=
  let t := d.tenantOfRid j.rid
  if j.lane != noLane || j.scrub.isSome || !d.servable t 0 then d
  else match d.pickLane j.first 0, d.req? j.rid with
    | some l, some r =>
      let put (d : Die) (key : Bytes) : Die :=
        let d0 := (d.setStage j.rid .running).laneBegins l t
        (d0.updStream j.rid fun x => { x with lane := l, key, use := none }).charge t 0 (laneCycles j.alg j.chunk)
      match j.use with
      | none => put d j.key
      | some (h, u) =>
        match d.takeUse e r h u with
        | .counted d1 => put d1 (((d1.obj? r.tenant h).map KeyObj.key).getD [])
        | .refused d1 st x => (d1.dropStream j.rid).fail e r st x
        | .waits => d
    | _, _ => d

/-- Issues the held job or the next chunk of a request, where it waits for a lane. -/
def Die.placeRid (e : Env) (d : Die) (rid : Nat) : Die :=
  let d1 : Die := (d.rcp.jobs.filter fun j => j.rid == rid).foldl (Die.placeOne e) d
  (d1.rcp.streams.filter fun j => j.rid == rid).foldl (Die.placeStream e) d1

/-- Issues waiting requests one after another, in the order of the two passes, which each issue may change (R276). -/
def Die.placeAll (e : Env) : Nat → List Nat → Die → Die
  | 0, _, d => d
  | n + 1, rids, d =>
    match d.inPasses 0 d.tenantOfRid rids with
    | [] => d
    | x :: rest => Die.placeAll e n rest (d.placeRid e x)

/-- Requests with work for a lane, in fetch order. -/
def Die.laneRids (d : Die) : List Nat :=
  sortRank id ((d.rcp.jobs.map LaneJob.rid ++ d.rcp.streams.map StreamJob.rid).eraseDups)

/-- Issues what waits for a lane (R94, R103, R276). -/
def Die.placeJobs (e : Env) (d : Die) : Die := if d.dispatches then Die.placeAll e d.laneRids.length d.laneRids d else d

/-- Hands a held job to the lanes; with no lane in service it completes FAULT_RETRY (R98). -/
def Die.issueJob (e : Env) (d : Die) (r : Req) (j : LaneJob) : Die :=
  if (d.inService .lane).isEmpty && !d.parked then d.endJob e r j (Reply.fail .faultRetry (faultDetail 0xFF none 0))
  else { d with rcp := { d.rcp with jobs := d.rcp.jobs ++ [{ j with lane := noLane }] } }.placeJobs e

/-! ## Step 6: from a found session to a lane (R22) -/

/-- A record has found its session: it counts in flight, and is beyond step 4. -/
def Die.enterSession (d : Die) (r : Req) (uid : Nat) : Die :=
  (d.updReq r.rid fun x => { x with stage := .running, sess := uid }).updSession uid fun s =>
    { s with inFlight := s.inFlight + 1 }

/-- The key use of a record that carries a key (R75): counted where the record was submitted, here as it is dispatched. -/
def Req.contentUse (r : Req) : Option (Nat × Nat) :=
  match r.origin with
  | .pair .. => if r.keyContent then some (leAt r.desc 60 2, useWrap) else none
  | .ring .. => none

/-- BAD_DESCRIPTOR with the output length that would do (R76) (log 26). -/
def tooSmall (n : Nat) : Reply := { Reply.fail .badDescriptor 4 with length := n }

/-- ESP_IN from its session on (R74, R76, R83, R84, R89). -/
def Die.espInFound (e : Env) (d : Die) (r : Req) (s : Session) : Die :=
  let rec_ := d.recInput e r
  let n := rec_.length
  if s.proto != 1 || s.ident.take 4 != slice rec_ 0 4 then d.endRecord e r s (Reply.fail .noSession 3)
  else if n < 16 + s.icv then d.endRecord e r s (Reply.fail .authFail 2)
  else if r.outLen < n - 18 - s.icv then d.endRecord e r s (tooSmall (n - 18 - s.icv))
  else match espInfer s (beAt rec_ 4 4) with
    | none => (d.count 3 4 r.tenant 1).endRecord e r s (Reply.fail .replay 0)
    | some q =>
      if !s.fresh q then (d.count 3 4 r.tenant 1).endRecord e r s (Reply.fail .replay 0)
      else
        let aad := slice rec_ 0 4 ++ (if s.esn then beBytes 8 q else beBytes 4 q)
        d.issueJob e r { rid := r.rid, lane := noLane, uid := s.uid, seq := q, enc := false, alg := suiteAlg s.suite,
                         tagLen := s.icv, key := s.key, nonce := slice s.salt 0 4 ++ slice rec_ 8 8, aad,
                         body := rec_.drop 16, hdr := [], use := none, first := none, relaned := false }

/-- DTLS_IN from its session on (R74, R76, R85 to R90). -/
def Die.dtlsInFound (e : Env) (d : Die) (r : Req) (s : Session) : Die :=
  let rec_ := d.recInput e r
  let c := d.recCfg r
  match parseDtls rec_ c.cidLen with
  | none => d.endRecord e r s (Reply.fail .badDescriptor 3)
  | some h =>
    let body := rec_.drop h.len
    let tag := suiteTag s.suite
    if s.proto != 3 || (match h.cid with | some id => s.ident.take s.idLen != id | none => s.idLen != 0) then
      d.endRecord e r s (Reply.fail .noSession 3)
    else if h.ee != s.rdEpoch % 4 then d.endRecord e r s (Reply.fail .noSession 2)
    else if body.length < 16 then d.endRecord e r s (Reply.fail .authFail 2)
    else if r.outLen < body.length - tag - 1 then d.endRecord e r s (tooSmall (body.length - tag - 1))
    else if integrityLimit s.suite c.limitShift ≤ s.fails then d.endRecord e r s (Reply.fail .limitReached 3)
    else
      let at_ := h.len - h.seqLen - (if h.hasLen then 2 else 0)
      let sq := xorBytes (slice rec_ at_ h.seqLen) (snMask s.suite s.rdSn (slice body 0 16) h.seqLen)
      let q := dtlsReconstruct s.h (8 * h.seqLen) (beNat sq)
      if !s.fresh q then (d.count 3 4 r.tenant 1).endRecord e r s (Reply.fail .replay 0)
      else
        d.issueJob e r { rid := r.rid, lane := noLane, uid := s.uid, seq := q, enc := false, alg := suiteAlg s.suite,
                         tagLen := tag, key := s.rdKey, nonce := dtlsNonce s.rdIv q,
                         aad := patch (slice rec_ 0 h.len) at_ sq, body, hdr := slice rec_ 0 1, use := none, first := none,
                         relaned := false }

/-- The next number is assigned. Where the number after it would reach the value in the host copy, the host copy goes first to the next
multiple of 4,096 above the value it holds, and the record is released once that is written (R123). -/
def Die.assignSeq (e : Env) (d : Die) (r : Req) (s : Session) : Die :=
  let d1 := d.updSession s.uid fun x => { x with seq := x.seq + 1 }
  if s.hostSeq ≤ s.seq + 1 then
    let d2 := d1.updSession s.uid fun x => { x with hostSeq := (x.hostSeq / 4096 + 1) * 4096 }
    match d2.session? s.uid with
    | some x => d2.writeSession e x r.rid
    | none => d2
  else d1

/-- The pad bytes 1, 2, 3 and so on (R84). -/
def espPad (n : Nat) : Bytes := (List.range n).map fun k => BitVec.ofNat 8 (k + 1)

/-- ESP_OUT from its session on (R83, R84, R92). -/
def Die.espOutFound (e : Env) (d : Die) (r : Req) (s : Session) : Die :=
  let data := d.recInput e r
  let pad := (4 - (data.length + 2) % 4) % 4 + r.byte 57
  if s.proto != 2 then d.endRecord e r s (Reply.fail .noSession 3)
  else if r.byte 57 % 4 != 0 || decide (255 < pad) then d.endRecord e r s (Reply.fail .badDescriptor 2)
  else
    let plain := data ++ espPad pad ++ leBytes 1 pad ++ leBytes 1 (r.byte 56)
    let need := 16 + plain.length + s.icv
    if r.outLen < need then d.endRecord e r s (tooSmall need)
    else if s.lastSeq < s.seq then d.endRecord e r s (Reply.fail .limitReached 1)
    else
      let spi := slice s.ident 0 4
      (d.assignSeq e r s).issueJob e r
        { rid := r.rid, lane := noLane, uid := s.uid, seq := s.seq, enc := true, alg := suiteAlg s.suite,
          tagLen := s.icv, key := s.key, nonce := slice s.salt 0 4 ++ beBytes 8 s.seq,
          aad := spi ++ (if s.esn then beBytes 8 s.seq else beBytes 4 s.seq), body := plain,
          hdr := spi ++ beBytes 4 s.seq ++ beBytes 8 s.seq, use := r.contentUse, first := none, relaned := false }

/-- DTLS_OUT from its session on (R88, R90, R92). -/
def Die.dtlsOutFound (e : Env) (d : Die) (r : Req) (s : Session) : Die :=
  let data := d.recInput e r
  let c := d.recCfg r
  let tag := suiteTag s.suite
  if s.proto != 3 then d.endRecord e r s (Reply.fail .noSession 3)
  else
    let inner := data ++ leBytes 1 (r.byte 56) ++ zeros (r.byte 57)
    let inner := inner ++ zeros (16 - tag - inner.length)
    let cid := s.peerCid
    let hl := 1 + cid.length + (if c.seq8 then 1 else 2) + (if c.noLen then 0 else 2)
    let need := hl + inner.length + tag
    if r.outLen < need then d.endRecord e r s (tooSmall need)
    else if s.lastSeq < s.seq then d.endRecord e r s (Reply.fail .limitReached 1)
    else if encryptLimit s.suite c.limitShift ≤ s.seq then d.endRecord e r s (Reply.fail .limitReached 2)
    else
      let b0 := 0x20 + ofBool (!cid.isEmpty) * 0x10 + ofBool (!c.seq8) * 8 + ofBool (!c.noLen) * 4 + s.wrEpoch % 4
      let hdr := leBytes 1 b0 ++ cid ++ beBytes (if c.seq8 then 1 else 2) s.seq ++
        (if c.noLen then [] else beBytes 2 (inner.length + tag))
      (d.assignSeq e r s).issueJob e r
        { rid := r.rid, lane := noLane, uid := s.uid, seq := s.seq, enc := true, alg := suiteAlg s.suite, tagLen := tag,
          key := s.wrKey, nonce := dtlsNonce s.wrIv s.seq, aad := hdr, body := inner, hdr, use := r.contentUse, first := none,
          relaned := false }

/-- Step 6 of R22 for a record that has found its session. -/
def Die.recordFound (e : Env) (d : Die) (r : Req) (s : Session) : Die :=
  let d1 := (d.enterSession r s.uid).count 3 1 r.tenant 1
  match r.opcode with
  | 0x10 => d1.espInFound e r s
  | 0x11 => d1.espOutFound e r s
  | 0x12 => d1.dtlsInFound e r s
  | _ => d1.dtlsOutFound e r s

/-! ## Release (R84, R88, R89, R94) -/

/-- The trailing zeros of a DTLSInnerPlaintext removed (R88). -/
def stripZeros (b : Bytes) : Bytes := (b.reverse.dropWhile fun x => x == 0).reverse

/-- The pad bytes of a decrypted ESP payload run 1, 2, 3 and so on (R84). -/
def padRuns (plain : Bytes) (pad : Nat) : Bool := slice plain (plain.length - 2 - pad) pad == espPad pad

/-- What an inbound record's plaintext yields: a failed trailer, or the output and DETAIL (R77, R84, R88). -/
def Session.finishIn (s : Session) (cid : Bool) (plain : Bytes) : Option (Bytes × Nat) :=
  if s.proto = 1 then
    let n := plain.length
    let pad := leAt plain (n - 2) 1
    let nh := leAt plain (n - 1) 1
    if n < 2 ∨ n - 2 < pad then none
    else
      let dummy := nh == 59
      some (if dummy then [] else plain.take (n - 2 - pad),
        nh + (ofBool (!padRuns plain pad) + 2 * ofBool s.tunnel + 4 * ofBool dummy) * 2 ^ 8)
  else
    let t := stripZeros plain
    match t.getLast? with
    | none => none
    | some x => some (t.dropLast, x.toNat + ofBool cid * 2 ^ 8 + 2 ^ 16 * (s.rdEpoch % 2 ^ 16))

/-- Changes of a session that a record leaves in the cache, with the write-through of a checkpoint (R123). -/
def Die.recordUpdate (e : Env) (d : Die) (uid shift : Nat) (f : Session → Session) : Die :=
  let d1 := d.updSession uid f
  match d1.session? uid with
  | some s => if s.checkpointDue shift then d1.writeSession e s 0 else d1
  | none => d1

/-- A held inbound record leaves its lane with every check passed but the tag (R84, R89, R90). -/
def Die.releaseIn (e : Env) (d : Die) (r : Req) (s : Session) (j : LaneJob) : Die :=
  let ct := j.body.take (j.body.length - j.tagLen)
  let c := d.recCfg r
  if j.body.drop ct.length != aeadTag j.alg j.tagLen j.key j.nonce j.aad ct then
    let d1 := if s.proto = 3 then d.recordUpdate e s.uid c.limitShift fun x => { x with fails := x.fails + 1 } else d
    (d1.count 3 3 r.tenant 1).endRecord e r s (Reply.fail .authFail 1)
  else
    match s.finishIn (bit (leAt j.hdr 0 1) 4) (aeadText j.alg j.key j.nonce ct) with
    | none => (d.count 3 3 r.tenant 1).endRecord e r s (Reply.fail .authFail 3)
    | some (out, detail) =>
      if !s.fresh j.seq then (d.count 3 4 r.tenant 1).endRecord e r s (Reply.fail .replay 0)
      else
        let d1 := (d.recordUpdate e s.uid c.limitShift fun x => x.accept j.seq).output e r r.outAddr out
        (d1.count 3 2 r.tenant out.length).endRecord e r s
          { Reply.done out.length with detail, flags := replyFlags false false false false j.relaned }

/-- A held outbound record leaves its lane: its record number, of the length that its header says, is encrypted and the output written
(R83, R86, R88). -/
def Die.releaseOut (e : Env) (d : Die) (r : Req) (s : Session) (j : LaneJob) : Die :=
  let ct := aeadText j.alg j.key j.nonce j.body
  let sealed := ct ++ aeadTag j.alg j.tagLen j.key j.nonce j.aad ct
  let n := if bit (leAt j.hdr 0 1) 3 then 2 else 1
  let at_ := 1 + s.peerCid.length
  let hdr := if s.proto = 3 then
      patch j.hdr at_ (xorBytes (slice j.hdr at_ n) (snMask s.suite s.wrSn (slice sealed 0 16) n)) else j.hdr
  let out := hdr ++ sealed
  ((d.output e r r.outAddr out).count 3 2 r.tenant j.body.length).endRecord e r s
    { Reply.done out.length with detail := j.seq % 2 ^ 32, flags := replyFlags false false false false j.relaned }

/-- A held raw object leaves its lane (R103). -/
def Die.releaseRaw (e : Env) (d : Die) (r : Req) (j : LaneJob) : Die :=
  let fl := replyFlags false false false false j.relaned
  if j.enc then
    let ct := aeadText j.alg j.key j.nonce j.body
    let out := ct ++ aeadTag j.alg j.tagLen j.key j.nonce j.aad ct
    (d.output e r r.outAddr out).complete e r { Reply.done out.length with flags := fl }
  else
    let ct := j.body.take (j.body.length - j.tagLen)
    if j.body.drop ct.length != aeadTag j.alg j.tagLen j.key j.nonce j.aad ct then
      (d.count 3 3 r.tenant 1).complete e r { Reply.fail .authFail 1 with flags := fl }
    else (d.output e r r.outAddr (aeadText j.alg j.key j.nonce ct)).complete e r { Reply.done ct.length with flags := fl }

/-- A held job is released after its shadow checks. -/
def Die.releaseJob (e : Env) (d : Die) (r : Req) (j : LaneJob) : Die :=
  let d1 := d.dropJob j.rid
  if j.uid = 0 then d1.releaseRaw e r j
  else match d1.session? j.uid with
    | none => d1.fail e r .noSession 1
    | some s => if j.enc then d1.releaseOut e r s j else d1.releaseIn e r s j

/-- The second lane of a job that has had two. -/
def secondLane (first : Option Nat) (lane : Nat) : Option Nat := if first.isSome && lane != noLane then some lane else none

/-- A held job is given up FAULT_RETRY, its hold space zeroized (R94, R96). -/
def Die.faultJob (e : Env) (d : Die) (r : Req) (j : LaneJob) (kind : Nat) : Die :=
  d.endJob e r j (Reply.fail .faultRetry (faultDetail (j.first.getD j.lane) (secondLane j.first j.lane) kind))

/-! ## The end of a stream (R103 to R106, R66) -/

/-- A stream ends with a status other than OK: LENGTH is what it wrote, UNTRUSTED as R66 says. -/
def StreamJob.reply (j : StreamJob) (st : Status) (detail : Nat) : Reply :=
  { Reply.fail st detail with length := j.off, flags := replyFlags (decide (0 < j.off) || st == .untrustedOutput) false false false j.relaned }

/-- The stream ends; with SCRUB_ON_FAIL, and where R105 says so, its output is first overwritten with zeros. A stop asked for before is
over with the stream: only one that arrives during the scrub ends the scrub. -/
def Die.endStream (e : Env) (d : Die) (r : Req) (j : StreamJob) (st : Status) (detail : Nat) : Die :=
  let rep := j.reply st detail
  let asked := st == .untrustedOutput || st == .faultRetry || (st == .aborted && r.stopBy != 0)
  if r.scrubOnFail && !j.enc && asked && decide (0 < j.off)
  then (d.updStream j.rid fun x => { x with lane := noLane, scrub := some (0, rep) }).updReq r.rid fun x => { x with stop := none }
  else (d.dropStream j.rid).complete e r rep

/-! ## Quarantine of lanes (R97) -/

/-- Moves the held jobs and streams of a lane elsewhere; they complete with RELANED. Those that were moved before and now
mismatch are not moved here. -/
def Die.moveLaneWork (e : Env) (d : Die) (l : Nat) : Die :=
  let d1 := { d with rcp := { d.rcp with
    jobs := updateWhere (fun j => j.lane == l) (fun j => { j with lane := noLane, first := some l, relaned := true }) d.rcp.jobs,
    streams := updateWhere (fun j => j.lane == l) (fun j => { j with lane := noLane, first := some l, relaned := true }) d.rcp.streams } }
  d1.placeJobs e

/-- A lane other than the one of the first attempt is in service: work that avoids that one can still run (R96, R98). -/
def Die.hasLane (d : Die) (first : Option Nat) : Bool := d.parked || (d.inService .lane).any fun l => some l != first

/-- KIND of a FAULT_RETRY of work that left its first lane and finds no other: what that lane last showed. -/
def Die.laneKind (d : Die) (first : Option Nat) : Nat := (first.map fun l => d.getAt UnitKind.lane.lastKindFld l).getD 0

/-- Held jobs and streams that no lane in service can take complete FAULT_RETRY (R96, R98). -/
def Die.failLaneless (e : Env) (d : Die) : Die :=
  let d1 := d.rcp.jobs.foldl (fun d j =>
    match d.req? j.rid with
    | some r => if j.lane != noLane || d.hasLane j.first then d else d.faultJob e r j (d.laneKind j.first)
    | none => d) d
  d1.rcp.streams.foldl (fun d j =>
    match d.req? j.rid with
    | some r =>
      if j.scrub.isSome || j.lane != noLane || d.hasLane j.first then d
      else d.endStream e r j .faultRetry (faultDetail (j.first.getD 0xFF) none (d.laneKind j.first))
    | none => d) d1

/-- Quarantines a lane (R97): no new work, its work re-issued, its hold buffer zeroized. -/
def Die.quarantineLane (e : Env) (d : Die) (l : Nat) : Die := ((d.quarantine e .lane l).moveLaneWork e l).failLaneless e

end Sys2Proof.Machine
end

