-- ==== Sys2Proof/Machine/Constantan.lean ====
section
/-! DEFINITION. The Constantan commands (spec/06). -/
namespace Sys2Proof.Machine

/-! ## From a request to a waiting job (R168, R173, R186) -/

/-- What an operation asks of its descriptor and needs of its job; its fixed time is `Die.conCycles`. -/
structure ConSpec where
  /-- exact operand length, result length -/
  inOk : Bool
  resLen : Nat
  /-- a curve in force, where the operation names one -/
  params : List Nat
  /-- random bytes drawn before dispatch -/
  draw : Nat
  deriving DecidableEq, Repr

/-- Random bytes and cycles aside, a refusal or the key of an operation. -/
abbrev KeyNeed := Option ((KeyObj → Bool) × Nat)

/-- TYPE and PARAM of a key for a curve (R471). -/
def curveKey (type curve : Nat) (o : KeyObj) : Bool := o.type == type && o.param == curve
def typeIs (type : Nat) (o : KeyObj) : Bool := o.type == type

/-- The key an operation reads and the use it needs (R183). -/
def conKeyNeed (r : Req) : KeyNeed :=
  match r.opcode with
  | 0x32 => some (curveKey 0x10 r.curve, useAgree)
  | 0x33 => some (curveKey 0x10 r.curve, useSign)
  | 0x34 => if bit r.mode 0 then none else some (curveKey 0x11 r.curve, useVerify)
  | 0x35 => some (typeIs 0x13, useSign)
  | 0x36 => if bit r.mode 0 then none else some (typeIs 0x14, useVerify)
  | 0x37 => if bit r.mode 0 then none else some (typeIs 0x12, useAgree)
  | 0x38 => some (typeIs 0x18, if r.mode % 4 == 3 then useDecrypt else useSign)
  | _ => none

/-- The operation creates an object at DEST_HANDLE. -/
def conCreates (r : Req) : Bool := r.opcode == 0x31 || r.opcode == 0x32 || r.opcode == 0x37

/-- What a Weierstrass operation needs (R170) (log 35). -/
def Die.curveSpec (r : Req) (c : CurveP) : ConSpec :=
  let n := r.inLen
  let digest (k : Nat) : Bool := decide (20 ≤ k ∧ k ≤ 64)
  match r.opcode with
  | 0x31 => { inOk := n == 0, resLen := 2 * c.lp, params := c.toList, draw := c.ln + 16 }
  | 0x32 => { inOk := n == 2 * c.lp, resLen := 0, params := c.toList, draw := 8 }
  | 0x33 => { inOk := digest n, resLen := 2 * c.ln, params := c.toList, draw := 40 }
  | 0x34 =>
    let k := (if bit r.mode 0 then 2 * c.lp else 0) + 2 * c.ln
    { inOk := decide (k ≤ n) && digest (n - k), resLen := 0, params := c.toList, draw := 0 }
  | _ => { inOk := n == 2 * c.lp, resLen := 0, params := c.toList, draw := 0 }

/-- What an operation without a Weierstrass curve needs; the RSA key's modulus bits are `bits_` (log 38). -/
def plainSpec (r : Req) (bits_ : Nat) : ConSpec :=
  let n := r.inLen
  let msg (k : Nat) : Bool := decide (k ≤ n) && decide (n ≤ k + 65536)
  match r.opcode with
  | 0x35 => { inOk := msg 0, resLen := 64, params := [], draw := 8 }
  | 0x36 => { inOk := msg (if bit r.mode 0 then 96 else 64), resLen := 0, params := [], draw := 0 }
  | 0x37 =>
    if bit r.mode 0 then { inOk := n == 0, resLen := 32, params := [], draw := 40 } else { inOk := n == 32, resLen := 0, params := [], draw := 8 }
  | _ =>
    let k := ceilDiv bits_ 8
    let hl := hashLen (rsaHash (bits r.mode 3 2))
    let dec := r.mode % 4 == 3
    { inOk := if dec then n == k && decide (2 * hl + 2 ≤ k) else n == hl && (r.mode % 4 == 1 || decide (2 * hl + 2 ≤ ceilDiv (bits_ - 1) 8)),
      resLen := if dec then k - 2 * hl - 2 else k, params := [], draw := k + 16 + hl }

/-- Jobs that still wait for random values draw them, and the cores load (R179, R186, R267). A repeated job of another request gives
it the new values. -/
def Die.loadJobs (e : Env) (d : Die) : Die :=
  Die.loadCtxs (d.con.jobs.foldl (fun d j =>
    if j.loaded then d
    else match d.drawFor j.rid j.need, d.req? j.rid with
      | .drawn d1 a, _ => (d1.updCon j.rid fun x => { x with loaded := true, draw := a }).updReq j.rid fun x =>
          if x.work.isEmpty then x else { x with drawn := a }
      | .refused, some r => (d.dropCon j.rid).fail e r .rngFault 0
      | .refused, none => d.dropCon j.rid
      | .held d1, _ => d1) d)

/-- The first hash pass of an EdDSA operation: its length; none where there is no such pass (R176). -/
def Req.eddsaPass (r : Req) : Option Nat :=
  match r.opcode with
  | 0x35 => some (32 + r.inLen)
  | 0x36 => some (if bit r.mode 0 then r.inLen else r.inLen + 32)
  | _ => none

/-- A job joins the dispatcher (R186): it waits for random values, for its hash pass, for a context and for a core. The bound on waiting
jobs is kept at the fetch. -/
def Die.enqueueCon (e : Env) (d : Die) (r : Req) (sp : ConSpec) : Die :=
  if d.coreless .con then (d.fail e r .faultRetry (faultDetail 0xFF none 0)).wrap .CON_JOB_COUNT_COUNT 1
  else
    let cycles := d.conCycles e r
    let j : ConJob := { rid := r.rid, tenant := r.tenant, cycles, long := isLong cycles, place := .waiting, loaded := sp.draw == 0, ctx := none,
                        hashed := r.eddsaPass.isNone, input := dmaRead e d r.inAddr r.inLen, params := sp.params, need := sp.draw, draw := 0,
                        preempted := 0, fresh := false, first := none, relaned := false }
    let d1 := (d.setStage r.rid .waiting).addCon j
    (match r.eddsaPass with | some n => d1.addHash r 3 n [] | none => d1).loadJobs e

/-- The checks of a Constantan request that need no core: `spec` answers what the operation needs once its key is known. -/
def Die.conChecks (e : Env) (d : Die) (r : Req) (spec : Option KeyObj → ConSpec) (k : Die → ConSpec → Die) : Die :=
  let go (d : Die) (o : Option KeyObj) : Die :=
    let sp := spec o
    if !sp.inOk || decide (r.outLen < sp.resLen) then d.fail e r .badDescriptor 2
    else d.withDest e r (if conCreates r then some r.destHandle else none) fun d => k d sp
  match conKeyNeed r with
  | none => go d none
  | some (fits, usage) => d.withKey e r r.keyHandle (fun d => d.conKey r fits usage) fun d o => go d (some o)

/-- A Weierstrass operation. -/
def Die.curveRequest (e : Env) (d : Die) (rid op : Nat) : Die :=
  d.handle e rid op fun r =>
    if !conHeaderOk r (conKeyNeed r).isSome (conCreates r) then d.fail e r .badDescriptor 1
    else d.rangesOk e r
      (match d.curveFor r with
       | none => d.fail e r .paramRejected 0x11
       | some c => d.conChecks e r (fun _ => Die.curveSpec r c) fun d sp => d.enqueueCon e r sp)

/-- An operation on Curve25519, Edwards25519 or an RSA key; `ok` is its own check of CURVE and MODE. -/
def Die.plainRequest (e : Env) (d : Die) (rid op curve : Nat) (modeOk : Req → Bool) : Die :=
  d.handle e rid op fun r =>
    if !conHeaderOk r (conKeyNeed r).isSome (conCreates r) then d.fail e r .badDescriptor 1
    else if !modeOk r then d.fail e r .badDescriptor 2
    else d.rangesOk e r
      (if r.curve != curve then d.fail e r .paramRejected 0x11
       else d.conChecks e r (fun o => plainSpec r ((o.map fun x => x.len).getD 0)) fun d sp => d.enqueueCon e r sp)

def execEcKeygen (rid : Nat) (s : State) : Out := s.act fun e d => d.curveRequest e rid 0x31
def execEcdh (rid : Nat) (s : State) : Out := s.act fun e d => d.curveRequest e rid 0x32
def execEcdsaSign (rid : Nat) (s : State) : Out := s.act fun e d => d.curveRequest e rid 0x33
def execEcdsaVerify (rid : Nat) (s : State) : Out := s.act fun e d => d.curveRequest e rid 0x34
def execPointCheck (rid : Nat) (s : State) : Out := s.act fun e d => d.curveRequest e rid 0x3C
def execEddsaSign (rid : Nat) (s : State) : Out := s.act fun e d => d.plainRequest e rid 0x35 0x11 fun _ => true
def execEddsaVerify (rid : Nat) (s : State) : Out := s.act fun e d => d.plainRequest e rid 0x36 0x11 fun _ => true

/-- X25519 with KEYGEN set; the command of the other half leaves it alone (log 2). -/
def execX25519Keygen (rid : Nat) (s : State) : Out :=
  s.act fun e d => if (d.req? rid).any fun r => bit r.mode 0 then d.plainRequest e rid 0x37 0x10 fun _ => true else d

/-- X25519 with KEYGEN clear. -/
def execX25519Agree (rid : Nat) (s : State) : Out :=
  s.act fun e d => if (d.req? rid).any fun r => !bit r.mode 0 then d.plainRequest e rid 0x37 0x10 fun _ => true else d

/-- RSA_PRIV: PAD 0 and HASH 3 are refused (R170). -/
def execRsaPriv (rid : Nat) (s : State) : Out :=
  s.act fun e d => d.plainRequest e rid 0x38 0 fun r => r.mode % 4 != 0 && bits r.mode 3 2 != 3

/-- RSA_PUB (R170, R174): the public key is checked before the job reaches a core. -/
def execRsaPub (rid : Nat) (s : State) : Out :=
  s.act fun e d => d.handle e rid 0x39 fun r =>
    let k := (r.inLen - 8) / 2
    if !conHeaderOk r false false then d.fail e r .badDescriptor 1
    else d.rangesOk e r
      (if r.inLen != 2 * k + 8 || !decide (128 ≤ k ∧ k ≤ 1024) || decide (r.outLen < k) then d.fail e r .badDescriptor 2
       else
         let n := intOf r.be (dmaRead e d r.inAddr k)
         let x := intOf r.be (dmaRead e d (r.inAddr + k) 8)
         if n < 2 ^ (8 * (k - 1)) ∨ n % 2 = 0 ∨ x % 2 = 0 ∨ x < 3 ∨ n < 2 ^ 1023 then d.fail e r .paramRejected 0x12
         else d.enqueueCon e r { inOk := true, resLen := k, params := [], draw := 0 })

/-! ## CON_PRIM (R180 to R182) -/

/-- The key of a program that loads from KEY_HANDLE, its components, and the rules on secret registers. -/
def Die.primKey (e : Env) (d : Die) (r : Req) (p : PrimProg) (k : Die → Die) : Die :=
  let secretOut := p.stores.any fun s => !s.2 && p.secret.contains s.1
  if !p.usesKey then (if secretOut then d.fail e r .policyDeny 0 else k d)
  else d.withKey e r r.keyHandle (fun d => d.conKey r (fun _ => true) useDerive) fun d o =>
    if p.loads.any fun l => l.source == 1 && !hasComponent o l.comp then d.fail e r .badDescriptor 7
    else if secretOut then d.fail e r .policyDeny 0
    else k d

/-- CON_PRIM: the program block's checks, then a job of its computed count. -/
def execConPrim (rid : Nat) (s : State) : Out :=
  s.act fun e d => d.handle e rid 0x30 fun r =>
    let cls := r.primClass
    if !(r.zeroBytes 52 56 && r.zeroBytes 59 64) || r.mode % 128 != 0 then d.fail e r .badDescriptor 1
    else if 0xB < r.curve || decide (r.inLen < 256) then d.fail e r .badDescriptor 2
    else d.rangesOk e r
      (let b := dmaRead e d r.inAddr 256
       let p := parsePrim b
       let dests := (p.stores.filter fun s => s.2).length
       if !primLayoutOk cls b then d.fail e r .badDescriptor 7
       else if r.inLen != 256 + p.loads.length * (cls / 8) || decide (r.outLen < p.stores.length * (cls / 8)) then
         d.fail e r .badDescriptor 2
       else if (!p.usesKey && r.keyHandle != 0) || (!p.hasDest && (r.destHandle != 0 || r.usageByte != 0)) then d.fail e r .badDescriptor 1
       else if !p.defined || (p.cmds.any fun c => c.op < 1 || 5 < c.op) || (p.hasDest && decide (512 < cls)) || decide (1 < dests) then
         d.fail e r .badDescriptor 7
       else d.primKey e r p fun d => d.withDest e r (if p.hasDest then some r.destHandle else none) fun d =>
         d.enqueueCon e r { inOk := true, resLen := p.stores.length * (cls / 8), params := [], draw := 0 })

/-- The private scalar of an EC key object that a program loads is out of range (R174). -/
def Die.badScalar (d : Die) (o : KeyObj) : Bool :=
  o.type == 0x10 && (d.curve? o.tenant o.param).any fun c => !c.scalarOk (beNat o.key)

/-- The result of a primitive program (R174, R181, R182). DESIGN CHOICE (log 167): a component wider than the class loads whole, and a STORE
keeps the low bytes of its place. -/
def Die.primRes (e : Env) (d : Die) (r : Req) (input : Bytes) : JobRes :=
  let cls := r.primClass
  let l := cls / 8
  let p := parsePrim input
  let o := if p.usesKey then d.usedObj r else none
  let ext := o.bind fun o => if o.extended then d.readExt e o else none
  let resLen := p.stores.length * l
  if (o.any fun o => o.extended && ext.isNone) || o.any d.badScalar then .bad .paramRejected 0x10 resLen
  else
    let v := (p.loads.zipIdx).foldl (fun v (li : PrimLoad × Nat) =>
      let x := if li.1.source = 0 then intOf r.be (slice input (256 + li.2 * l) l)
        else ((o.bind fun o => keyComponent o ext li.1.comp).getD 0)
      v.set li.1.dst x) (List.replicate 8 0)
    let m := p.run cls v
    match m.err with
    | some (st, i) => .bad st i resLen
    | none =>
      let out := p.stores.flatMap fun s => if s.2 then zeros l else intBytes r.be l (m.v.getD s.1 0)
      match p.stores.find? fun s => s.2 with
      | some s => .okObj out { type := 8, origin := 2, param := 0, len := l, material := beBytes l (m.v.getD s.1 0) }
      | none => .ok out

/-! ## CURVE_LOAD and CURVE_UNLOAD (R192 to R194) -/

/-- CURVE_LOAD: the record's length must be that of the class of p. DESIGN CHOICE (log 168): a record whose reserved bytes are not zero
completes BAD_DESCRIPTOR with REASON 0x01. -/
def execCurveLoad (rid : Nat) (s : State) : Out :=
  s.act fun e d => d.handle e rid 0x3A fun r =>
    let l := (r.inLen - 16) / 6
    if !conHeaderOk r false false then d.fail e r .badDescriptor 1
    else d.rangesOk e r
      (let b := dmaRead e d r.inAddr 16
       let pb := leAt b 2 2
       if r.inLen != 16 + 6 * l || !([256, 384, 512, 576, 640].contains (8 * l)) ||
          (decide (192 ≤ pb ∧ pb ≤ 640) && classOf pb != 8 * l) then d.fail e r .badDescriptor 2
       else if leAt b 7 9 != 0 then d.fail e r .badDescriptor 1
       else d.enqueueCon e r { inOk := true, resLen := 0, params := [], draw := 128 * l })

/-- Installs the curve of a record that passed (R193): the lowest free identifier, in DETAIL byte 12. -/
def Die.installCurve (d : Die) (r : Req) (input : Bytes) (a : Nat) : Die × JobRes :=
  let l := (r.inLen - 16) / 6
  let c := recordCurve r.be input l
  let held := (d.con.curves.filter fun x => x.tenant == r.tenant).length
  match curveReason input c l a held d.con.curves.length with
  | some x => (d, .bad .paramRejected x 0)
  | none =>
    match ((List.range 16).map fun k => 0x80 + k).find? fun id =>
        (d.curve? r.tenant id).isNone with
    | none => (d, .bad .paramRejected 0x0A 0)
    | some id =>
      ({ d with con := { d.con with curves := d.con.curves ++ [({ tenant := r.tenant, id, record := input, params := c.toList } : Curve)] } },
        { JobRes.ok [] with b12 := id })

/-- CURVE_UNLOAD: gone at its fetch for later jobs; completes after the jobs fetched before it that name the curve, and takes the curve
then (R194). -/
def execCurveUnload (rid : Nat) (s : State) : Out :=
  s.act fun e d => d.handle e rid 0x3B fun r =>
    if !conHeaderOk r false false then d.fail e r .badDescriptor 1
    else if r.inLen != 0 then d.fail e r .badDescriptor 2
    else d.rangesOk e r <|
      if !decide (0x80 ≤ r.curve) || (d.curveFor r).isNone then d.fail e r .paramRejected 0x11 else
      let on := (d.que.reqs.filter fun x => x.isConJob && x.opcode != 0x30 && x.tenant == r.tenant && x.curve == r.curve &&
        decide (x.rid < rid) && !x.done).map Req.rid
      if on.isEmpty then (d.takeCurve rid).complete e r (Reply.done 0)
      else
        let d2 := d.setStage rid .running
        { d2 with que := { d2.que with waiters := d2.que.waiters ++ [{ rid, counts := false, count := 0, on }] } }

/-! ## Cancel, dispatch, yield and completion (R184 to R190) -/

/-- Cancels one job (R187). -/
def Die.cancelCon (e : Env) (by_ : Nat) (d : Die) (j : ConJob) : Die :=
  match d.req? j.rid with
  | none => d
  | some r =>
    if r.stop.isSome then d
    else match j.place with
      | .running _ => d.updReq r.rid fun x => { x with stop := some .aborted, stopBy := by_ }
      | .storing _ => d
      | _ => (d.dropHash j.rid).stopCon e r j .aborted

/-- The fields that a cancel must hold zero (R168): the reserved ones, the handles it does not use, CURVE and MODE but for BE. -/
def cancelHeaderOk (r : Req) (be : Bool) : Bool := r.zeroBytes 48 57 && (r.mode == 0 || (be && r.mode == 128)) && r.zeroBytes 58 64

/-- A cancel of the requests that `names` picks: those without a job yet complete at once, `js` are the requests of the jobs named, and
`stop` cancels these. It completes after the last (R187, R202). -/
def Die.cancelJobs (e : Env) (d : Die) (r : Req) (be : Bool) (names : Req → Bool) (js : List Nat) (stop : Die → Die) : Die :=
  if !cancelHeaderOk r be then d.fail e r .badDescriptor 1
  else if r.inLen != 0 then d.fail e r .badDescriptor 2
  else d.rangesOk e r <|
    let unfetched := d.que.reqs.filter fun x => x.stage == .fetched && x.rid != r.rid && names x
    let d1 : Die := stop (unfetched.foldl (fun d x => d.fail e x .aborted 0) d)
    let on := js.filter fun x => (d1.req? x).any fun y => y.stop == some .aborted && y.stopBy == r.rid && !y.done
    let now := (js.filter fun x => (d1.req? x).all fun y => y.done).length + unfetched.length
    if on.isEmpty then d1.complete e r { Reply.done 0 with detail := min now 255 }
    else
      let d2 := d1.setStage r.rid .running
      { d2 with que := { d2.que with waiters := d2.que.waiters ++ [{ rid := r.rid, counts := true, count := now, on }] } }

/-- CON_CANCEL (R187): the tenant's Constantan requests with the TAG given. -/
def execConCancel (rid : Nat) (s : State) : Out :=
  s.act fun e d => d.handle e rid 0x3F fun r =>
    let names (x : Req) : Bool := x.isConJob && x.tenant == r.tenant && leNat x.tag == r.inAddr
    let js := d.con.jobs.filter fun j => (d.req? j.rid).any names && (match j.place with | .storing _ => false | _ => true)
    d.cancelJobs e r true names (js.map ConJob.rid) fun d => js.foldl (Die.cancelCon e rid) d

/-- A request of the same tenant and class was fetched earlier and its command has not run: its job goes first (R186) (log 169). -/
def Die.fetchedBefore (e : Env) (d : Die) (j : ConJob) : Bool :=
  d.que.reqs.any fun r => r.isConJob && decide (r.rid < j.rid) && r.tenant == j.tenant && d.unhandled r && d.startable r &&
    isLong (d.conCycles e r) == j.long

/-- The waiting jobs that core `core` may take, short or long, in the order of R186 and R276. -/
def Die.conWaiters (e : Env) (d : Die) (core : Nat) (long : Bool) : List ConJob :=
  d.inPasses 1 ConJob.tenant (d.con.jobs.filter fun j => j.place == .waiting && j.loaded && j.hashed && j.long == long &&
    j.first != some core && d.servable j.tenant 1 && !d.fetchedBefore e j)

/-- The handle and usage of the key that a job of family 0x3 reads. -/
def ConJob.keyUse (j : ConJob) (r : Req) : Option Nat :=
  if r.opcode == 0x30 then (if (parsePrim j.input).usesKey then some useDerive else none) else (conKeyNeed r).map fun x => x.2

/-- Starts a job on a core, in a context of it: its key use is counted, once for all its attempts (R183, R234), and the second pass of
EDDSA_SIGN is given to the hash lanes (R176). With no context for it, it waits. -/
def Die.startCon (e : Env) (d : Die) (j : ConJob) (core : Nat) : Die :=
  match d.req? j.rid with
  | none => d.dropCon j.rid
  | some r =>
    let go (d : Die) : Die :=
      match d.ctxOn j core with
      | none => d
      | some d1 =>
        let d2 := ((d1.setStage r.rid .running).updCon j.rid fun x => { x with place := .running core, fresh := false }).charge j.tenant 1 j.cycles
        (if r.opcode == 0x35 then d2.addHash r 3 (64 + r.inLen) [] else d2).count 7 0x10 j.tenant 1
    match j.keyUse r with
    | none => go d
    | some usage =>
      if r.use.isSome || (d.ctxOn j core).isNone then go d
      else match d.takeUse e r r.keyHandle usage with
        | .counted d1 => go d1
        | .refused d1 st x => (d1.dropCon j.rid).fail e r st x
        | .waits => d

/-- CON_DISPATCH: an idle core in service and not held takes the next waiting job, short before long. -/
def execConDispatch (core : Nat) (s : State) : Out :=
  s.act fun e d0 =>
    let d := d0.loadJobs e
    if 24 ≤ core || !d.takesWork .con core || !d.dispatches ||
       d.con.jobs.any fun j => j.place == .running core || j.place == .displaced core then d
    else match d.conWaiters e core false ++ d.conWaiters e core true with
      | j :: _ => d.startCon e j core
      | [] => d

/-- A core that a short job could take at once. -/
def Die.idleCore (d : Die) : Bool :=
  (List.range 24).any fun c => d.takesWork .con c && !d.con.jobs.any fun j => j.place == .running c || j.place == .displaced c

/-- A waiting short job takes the core of a running long one, where it can start (R185). -/
def Die.preempt (e : Env) (d : Die) (j : ConJob) (core : Nat) : Die :=
  match d.conWaiters e core false with
  | [] => d
  | x :: _ =>
    let d1 := d.startCon e x core
    if d1.con.jobs.any fun y => y.rid == x.rid && y.place == .running core
    then (d1.updCon j.rid fun y => { y with place := .displaced core, preempted := y.preempted + 1 }).count 7 2 j.tenant 1 else d1

/-- CON_YIELD_POINT: a running job stops where it was asked to; a long job gives its core to a waiting short job when no
core is idle (R185); as the die parks it pauses here (R403). A resumed job has run to its next yield point with this. -/
def execConYieldPoint (rid : Nat) (s : State) : Out :=
  s.act fun e d0 =>
    let d := d0.updCon rid fun x => { x with fresh := false }
    match d.req? rid, d.con.jobs.find? fun j => j.rid == rid with
    | some r, some j =>
      match j.place with
      | .running core =>
        match r.stop with
        | some st => d.stopCon e r j st
        | none =>
          if !j.long then d
          else if d.get .PWR_STATUS_STATE == 2 then d.updCon rid fun x => { x with place := .displaced core }
          else if d.idleCore || !d.dispatches || !d.inUse .con core ||
              (d.con.jobs.filter fun x => x.place == .displaced core).length != 0 then d
          else d.preempt e j core
      | _ => d
    | _, _ => d

/-- The result of a finished job of family 0x3. -/
def Die.conResult (e : Env) (d : Die) (r : Req) (j : ConJob) : Die × JobRes :=
  let c := CurveP.ofList j.params
  let o := d.usedObj r
  let key := (o.map KeyObj.key).getD []
  match r.opcode with
  | 0x30 => (d, d.primRes e r j.input)
  | 0x31 => (d, d.ecKeygen r c j.draw)
  | 0x32 => (d, ecdhRes r c key j.input)
  | 0x33 => (d, ecdsaSign r.be c key j.input (randomBytes j.draw 32))
  | 0x34 => (d, ecdsaVerify r c key j.input)
  | 0x35 => (d, .ok (ed25519Sign key j.input))
  | 0x36 => (d, eddsaVerify r key j.input)
  | 0x37 => (d, if bit r.mode 0 then x25519Keygen j.draw else x25519Agree key j.input)
  | 0x38 => (d, rsaPriv r ((o.map fun x => x.len).getD 0) (o.bind fun o => d.readExt e o) j.input j.draw)
  | 0x39 => (d, rsaPub r j.input)
  | 0x3A => d.installCurve r j.input j.draw
  | _ =>
    (d, match c.checkPoint (intOf r.be (slice j.input 0 c.lp)) (intOf r.be (slice j.input c.lp c.lp)) true with
        | some st => .bad st 0 0
        | none => .ok [])

/-- A job's own work on its core is over: the core goes on, and counts it (R195). -/
def Die.countCon (d : Die) (r : Req) (core : Nat) : Die :=
  (((d.resumeCore core).wrap .CON_JOB_COUNT_COUNT 1).wrapAt2 .CON_CORE_JOBS_COUNT core 0 1).count 7 1 r.tenant 1

/-- A job ends with its result (R171 to R173): output, an object at DEST_HANDLE, counts and the reply. An object that may not be created
any more leaves nothing written (log 52); while its slot is written, the job's context stores it (R165). -/
def Die.finishCon (e : Env) (d : Die) (r : Req) (j : ConJob) (core : Nat) (x : JobRes) : Die :=
  let rep : Reply := { Reply.fail x.st (x.b12 + conTail core j.preempted) with length := x.len, flags := replyFlags false false false false j.relaned }
  match x.obj with
  | none => (((d.output e r r.outAddr x.out).dropCon j.rid).countCon r core).complete e r rep
  | some n =>
    match d.destCheck r.tenant r.destHandle with
    | some (st, y) => ((d.dropCon j.rid).countCon r core).fail e r st (y + conTail core j.preempted)
    | none =>
      let d1 := ((d.output e r r.outAddr x.out).updCon j.rid fun y => { y with place := .storing core }).countCon r core
      d1.createAt e r (d1.newVolatile r.tenant r.destHandle n.type r.usageByte n.origin n.param n.len n.material) rep

/-- Modulus bits of the RSA key of a request. -/
def Die.rsaBits (d : Die) (r : Req) : Nat := (((d.usedObj r).or (d.obj? r.tenant r.keyHandle)).map fun o => o.len).getD 0

/-- Length of the result buffer of an operation, for the zeros of a fault (R170, R173). -/
def Die.conResLen (d : Die) (r : Req) (j : ConJob) : Nat :=
  match r.opcode with
  | 0x30 => (parsePrim j.input).stores.length * (r.primClass / 8)
  | 0x31 => 2 * (CurveP.ofList j.params).lp
  | 0x33 => 2 * (CurveP.ofList j.params).ln
  | 0x39 => (r.inLen - 8) / 2
  | 0x35 | 0x37 | 0x38 => (plainSpec r (d.rsaBits r)).resLen
  | _ => 0

/-- A job is repeated from its inputs on another core, with fresh random values (R189, R190). -/
def Die.repeatCon (d : Die) (r : Req) (j : ConJob) (core : Nat) : Die :=
  let need := (r.work.head?.map Work.fresh).getD j.need
  let d1 := if j.hashed then d.dropHash j.rid else d
  (d1.updCon j.rid fun x => { x with place := .waiting, ctx := none, first := some core, relaned := true, loaded := need == 0, need }).updReq j.rid
    fun x => { x with relaned := x.relaned || !x.work.isEmpty }

/-- Quarantines a core (R190): its jobs are repeated elsewhere, its contexts are zeroized, and with no core left jobs complete
FAULT_RETRY. -/
def Die.quarantineCore (e : Env) (d : Die) (core : Nat) : Die :=
  let d1 := d.quarantine e .con core
  let mine := d1.con.jobs.filter fun j => j.place == .running core || j.place == .displaced core
  let d2 : Die := mine.foldl (fun d j => match d.req? j.rid with | some r => d.repeatCon r j core | none => d.dropCon j.rid) d1
  let d3 := { d2 with con := { d2.con with
    jobs := updateWhere (fun j => (j.ctx.map Prod.fst) == some core) (fun j => { j with ctx := none }) d2.con.jobs,
    mem := d2.con.mem.filter fun b => b.1 / 65536 != core } }
  let d4 := d3.loadJobs e
  if !d4.coreless .con then d4
  else d4.con.jobs.foldl (fun d j =>
    match d.req? j.rid, j.place with
    | some r, .waiting =>
      d.faultCon e r j (j.first.getD 0xFF) none ((j.first.map fun c => d.getAt .CON_CORE_LAST_MISMATCH_KIND c).getD 0)
        (if r.stage == .running && r.work.isEmpty then d.conResLen r j else 0)
    | _, _ => d) d4

/-- A fault check of a job mismatched (R189, R190). -/
def Die.conMismatch (e : Env) (d : Die) (r : Req) (j : ConJob) (core kind : Nat) : Die :=
  let d1 := d.noteMismatch e .con core kind r.tenant
  let quar := decide (3 ≤ d1.recent .con core)
  let again := quar || r.allowRelane || d.has .CON_CTL_RECORE_ALWAYS
  let d2 :=
    if j.relaned || !again then
      d1.faultCon e r j (j.first.getD core) (if j.first.isSome then some core else none) kind (if r.work.isEmpty then d1.conResLen r j else 0)
    else ((d1.repeatCon r j core).resumeCore core).loadJobs e
  if quar then d2.quarantineCore e core else d2

/-- CON_JOB_DONE: a running job has had its fixed time, with a mismatch of `kind` or 0 for none. EDDSA_SIGN holds its core until its second
hash pass is done; a job of another request lets that go on. -/
def execConJobDone (rid kind : Nat) (s : State) : Out :=
  s.act fun e d =>
    match d.req? rid, d.con.jobs.find? fun j => j.rid == rid with
    | some r, some j =>
      match j.place with
      | .running core =>
        if kind != 0 then d.conMismatch e r j core kind
        else if d.rcp.hashes.any fun h => h.rid == rid then d
        else if !r.work.isEmpty then ((d.dropCon rid).countCon r core).workDone r
        else
          let x := d.conResult e r j
          x.1.finishCon e r j core x.2
      | _ => d
    | _, _ => d

def execConQuarantineCmd (core : Nat) (s : State) : Out :=
  s.act fun e d =>
    let d := d.access 0
    if core < 24 && d.getAt .CON_CORE_STATUS_STATE core != 1 then d.quarantineCore e core else d

def execConReleaseCmd (core : Nat) (s : State) : Out :=
  s.act fun _ d => if core < 24 then (d.access 0).startKat .con core else d.access 0

def execConKatDone (core : Nat) (pass : Bool) (s : State) : Out :=
  s.act fun _ d => if core < 24 then d.endKat .con core pass else d

end Sys2Proof.Machine
end

