-- ==== Sys2Proof/Machine/Lattice.lean ====
section
/-! DEFINITION. The lattice cores and their commands (R196 to R203). -/
namespace Sys2Proof.Machine

/-! ## Parameter sets (R198, R199) -/

def isMlkem (p : Nat) : Bool := decide (1 ≤ p ∧ p ≤ 3)
def isMldsa (p : Nat) : Bool := decide (0x11 ≤ p ∧ p ≤ 0x13)

/-- Encapsulation key and ciphertext lengths of ML-KEM; public key and signature lengths of ML-DSA. -/
def pqLens (p : Nat) : Nat × Nat :=
  match p with
  | 1 => (800, 768) | 2 => (1184, 1088) | 3 => (1568, 1568)
  | 0x11 => (1312, 2420) | 0x12 => (1952, 3309) | _ => (2592, 4627)

/-- Cycles of KEYGEN and of the other operations of ML-KEM; KEYGEN, S0, S1 and VERIFY of ML-DSA. -/
def pqCycles (p : Nat) : Nat × Nat × Nat × Nat :=
  match p with
  | 1 => (2600, 2900, 2900, 2900) | 2 => (3600, 4000, 4000, 4000) | 3 => (5000, 5600, 5600, 5600)
  | 0x11 => (24000, 34000, 14000, 30000) | 0x12 => (38000, 50000, 20000, 46000) | _ => (56000, 72000, 28000, 68000)

def mlkemEk (p : Nat) (seed : Bytes) : Bytes := (List.range (pqLens p).1).map (Config.mlkemEkByte p seed)
def mlkemCt (p : Nat) (ek m : Bytes) : Bytes := (List.range (pqLens p).2).map (Config.mlkemCtByte p ek m)
def mlkemSs (p : Nat) (ek m : Bytes) : Bytes := (List.range 32).map (Config.mlkemSsByte p ek m)
def mlkemDec (p : Nat) (seed ct : Bytes) : Bytes := (List.range 32).map (Config.mlkemDecByte p seed ct)
def mldsaPk (p : Nat) (seed : Bytes) : Bytes := (List.range (pqLens p).1).map (Config.mldsaPkByte p seed)
def mldsaSig (p : Nat) (seed ctx msg rnd : Bytes) : Bytes := (List.range (pqLens p).2).map (Config.mldsaSigByte p seed ctx msg rnd)

/-- Attempts of a signature: at least one (R201) (log 62). -/
def mldsaTries (p : Nat) (seed ctx msg rnd : Bytes) : Nat := max 1 (Config.mldsaAttempts p seed ctx msg rnd)

/-! ## Descriptors (R198) -/

def Req.param (r : Req) : Nat := r.byte 56
def Req.ctxLen (r : Req) : Nat := r.byte 59

/-- What a lattice operation needs: exact operand length or its bound, result length, random bytes. -/
structure NttSpec where
  inOk : Bool
  resLen : Nat
  draw : Nat
  deriving DecidableEq, Repr

def nttSpec (r : Req) : NttSpec :=
  let l := pqLens r.param
  match r.opcode with
  | 0x40 => { inOk := r.inLen == 0, resLen := l.1, draw := 64 }
  | 0x41 => { inOk := r.inLen == l.1, resLen := l.2, draw := 32 }
  | 0x42 => { inOk := r.inLen == l.2, resLen := 0, draw := 0 }
  | 0x43 => { inOk := r.inLen == 0, resLen := l.1, draw := 32 }
  | 0x44 => { inOk := decide (r.ctxLen ≤ r.inLen) && decide (r.inLen ≤ 65536), resLen := l.2, draw := 32 }
  | _ => { inOk := decide (l.1 + l.2 + r.ctxLen ≤ r.inLen) && decide (r.inLen ≤ l.1 + l.2 + 65536), resLen := 0, draw := 0 }

def nttCreates (r : Req) : Bool := decide (0x40 ≤ r.opcode ∧ r.opcode ≤ 0x43)

/-- The key an operation reads and the use it needs (R198, R471). -/
def nttKeyNeed (r : Req) : KeyNeed :=
  match r.opcode with
  | 0x42 => some (curveKey 0x20 r.param, useAgree)
  | 0x44 => some (curveKey 0x21 r.param, useSign)
  | 0x45 => if r.keyHandle == 0 then none else some (curveKey 0x22 r.param, useVerify)
  | _ => none

/-- Reserved fields and unused handles (R63, R198). A KEY_HANDLE of 0 of MLDSA_VERIFY names no key. -/
def nttHeaderOk (r : Req) : Bool :=
  let keyed := r.opcode == 0x42 || r.opcode == 0x44 || r.opcode == 0x45
  let ctx := r.opcode == 0x44 || r.opcode == 0x45
  r.zeroBytes 52 56 && r.zeroBytes 60 64 && r.byte 57 == 0 && (keyed || r.keyHandle == 0) &&
    (nttCreates r || (r.destHandle == 0 && r.usageByte == 0)) && (ctx || r.ctxLen == 0)

/-- Cycles that SHAKE256 absorbs a message of `n` bytes in (R199). -/
def absorb (n : Nat) : Nat := 24 * ceilDiv n 136

/-- Core time of a job (R199, R201), A attempts for a signature. -/
def nttCycles (r : Req) (attempts : Nat) : Nat :=
  let c := pqCycles r.param
  match r.opcode with
  | 0x40 => c.1 | 0x41 => c.2.1 | 0x42 => c.2.1 | 0x43 => c.1
  | 0x44 => c.2.1 + attempts * c.2.2.1 + absorb r.inLen
  | _ => c.2.2.2 + absorb (r.inLen - (pqLens r.param).1 - (pqLens r.param).2)

/-! ## Contexts (R196) -/

def Die.updNtt (d : Die) (rid : Nat) (f : NttJob → NttJob) : Die :=
  { d with ntt := { d.ntt with jobs := updateWhere (fun x => x.rid == rid) f d.ntt.jobs } }

/-- A job is gone, and its context with it. -/
def Die.dropNtt (d : Die) (rid : Nat) : Die := { d with ntt := { d.ntt with jobs := d.ntt.jobs.filter fun j => j.rid != rid } }

/-- A context of a core that holds no job. -/
def Die.idleNttCtx (d : Die) (core : Nat) : Option Nat := (List.range 2).find? fun k => !d.ntt.jobs.any fun j => j.ctx == some (core, k)

/-- A job takes a context of 128 KiB, which is zeroized first. -/
def Die.giveNttCtx (d : Die) (rid core k : Nat) : Die :=
  let d1 := d.updNtt rid fun x => { x with ctx := some (core, k) }
  { d1 with ntt := { d1.ntt with mem := d1.ntt.mem.filter fun b => b.1 / 131072 != 2 * core + k } }

/-- A waiting job whose operands load into a context of a core. -/
def Die.loadingNtt (d : Die) (core : Nat) : Option NttJob :=
  d.ntt.jobs.find? fun j => j.place == .waiting && (j.ctx.map Prod.fst) == some core

/-- The job is in a context of this core: its own, an idle one, or that of the job which loads there and goes to another (log 165). None
when both contexts of the core hold jobs that run, are displaced or store. -/
def Die.nttCtxOn (d : Die) (j : NttJob) (core : Nat) : Option Die :=
  if (j.ctx.map Prod.fst) == some core then some d
  else match d.idleNttCtx core, d.loadingNtt core with
    | some k, _ => some (d.giveNttCtx j.rid core k)
    | none, some x => some ((d.updNtt x.rid fun y => { y with ctx := none }).giveNttCtx j.rid core ((x.ctx.map Prod.snd).getD 0))
    | none, none => none

/-! ## Jobs -/

/-- A signature displaced from a core resumes when the core is free (R202). -/
def Die.resumeNtt (d : Die) (core : Nat) : Die :=
  if d.ntt.jobs.any fun j => j.place == .running core then d
  else { d with ntt := { d.ntt with jobs := updateWhere (fun j => j.place == .displaced core) (fun j => { j with place := .running core }) d.ntt.jobs } }

/-- A job leaves the dispatcher or its core with a reply. -/
def Die.endNtt (e : Env) (d : Die) (r : Req) (j : NttJob) (rep : Reply) : Die :=
  let d1 := d.dropNtt j.rid
  (if j.place = .waiting then d1 else d1.resumeNtt j.place.core).complete e r rep

/-- A job that is stopped (R187, R188, R202). -/
def Die.stopNtt (e : Env) (d : Die) (r : Req) (j : NttJob) (st : Status) : Die :=
  d.endNtt e r j (Reply.fail st (conTail j.place.core j.preempted))

/-- A job completes FAULT_RETRY, with zeros written to its result (R189, R202). -/
def Die.faultNtt (e : Env) (d : Die) (r : Req) (j : NttJob) (first : Nat) (second : Option Nat) (kind resLen : Nat) : Die :=
  let detail := first % 256 + 2 ^ 8 * (second.getD 0xFF % 256) + 2 ^ 16 * (kind % 16) + 2 ^ 24 * min j.preempted 255
  (d.output e r r.outAddr (zeros resLen)).endNtt e r j (Reply.fail .faultRetry detail)

/-- The job has the random values it needs. -/
def NttJob.loaded (j : NttJob) : Bool := j.need == 0 || j.draw != 0

/-- ML-KEM jobs, and the lattice work of handshake steps, go before other lattice work (R202). -/
def Req.nttFirst (r : Req) : Bool := r.opcode / 16 == 5 || decide (0x40 ≤ r.opcode ∧ r.opcode ≤ 0x42)

def Die.nttFirst (d : Die) (j : NttJob) : Bool := (d.req? j.rid).any Req.nttFirst

/-- Each core that takes jobs loads one of those that wait and have their random values (log 165). -/
def Die.loadNttCtxs (d : Die) : Die :=
  (List.range 4).foldl (fun d core =>
    let free (first : Bool) (j : NttJob) : Bool := j.place == .waiting && j.loaded && j.ctx.isNone && d.nttFirst j == first && j.first != some core
    if !d.inUse .ntt core || (d.loadingNtt core).isSome then d
    else match d.idleNttCtx core, (d.ntt.jobs.find? (free true)).or (d.ntt.jobs.find? (free false)) with
      | some k, some j => d.giveNttCtx j.rid core k
      | _, _ => d) d

/-- Jobs that still wait for random values draw them, and the cores load (R179, R186, R202, R267). A repeated job of another request
gives it the new values. -/
def Die.loadNtt (e : Env) (d : Die) : Die :=
  Die.loadNttCtxs (d.ntt.jobs.foldl (fun d j =>
    if j.loaded then d
    else match d.drawFor j.rid j.need, d.req? j.rid with
      | .drawn d1 a, _ => (d1.updNtt j.rid fun x => { x with draw := a + 1 }).updReq j.rid fun x =>
          if x.work.isEmpty then x else { x with drawn := a }
      | .refused, some r => (d.dropNtt j.rid).fail e r .rngFault 0
      | .refused, none => d.dropNtt j.rid
      | .held d1, _ => d1) d)

/-- A lattice request: its checks, then a waiting job (R198, R202). The bound on waiting jobs is kept at the fetch. -/
def Die.nttRequest (e : Env) (d : Die) (rid op : Nat) : Die :=
  d.handle e rid op fun r =>
    let sp := nttSpec r
    if !nttHeaderOk r then d.fail e r .badDescriptor 1
    else if !(if op ≤ 0x42 then isMlkem r.param else isMldsa r.param) then d.fail e r .badDescriptor 2
    else d.rangesOk e r
      (let go (d : Die) : Die :=
         if !sp.inOk || decide (r.outLen < sp.resLen) then d.fail e r .badDescriptor 2
         else d.withDest e r (if nttCreates r then some r.destHandle else none) fun d =>
           if d.coreless .ntt then d.fail e r .faultRetry (faultDetail 0xFF none 0)
           else
             ((d.setStage rid .waiting).addNtt
               { rid, tenant := r.tenant, place := .waiting, ctx := none, signing := op == 0x44, cycles := 0,
                 input := dmaRead e d r.inAddr r.inLen, need := sp.draw, draw := 0, attempts := 0, preempted := 0, first := none,
                 relaned := false }).loadNtt e
       match nttKeyNeed r with
       | none => go d
       | some (fits, usage) => d.withKey e r r.keyHandle (fun d => d.conKey r fits usage) fun d _ => go d)

def execMlkemKeygen (rid : Nat) (s : State) : Out := s.act fun e d => d.nttRequest e rid 0x40
def execMlkemEncaps (rid : Nat) (s : State) : Out := s.act fun e d => d.nttRequest e rid 0x41
def execMlkemDecaps (rid : Nat) (s : State) : Out := s.act fun e d => d.nttRequest e rid 0x42
def execMldsaKeygen (rid : Nat) (s : State) : Out := s.act fun e d => d.nttRequest e rid 0x43
def execMldsaSign (rid : Nat) (s : State) : Out := s.act fun e d => d.nttRequest e rid 0x44
def execMldsaVerify (rid : Nat) (s : State) : Out := s.act fun e d => d.nttRequest e rid 0x45

/-! ## Results (R197 to R201) -/

/-- What a job yields, with the attempts of a signature. -/
def Die.nttResult (d : Die) (r : Req) (j : NttJob) : JobRes :=
  let p := r.param
  let l := pqLens p
  let key := ((d.usedObj r).map KeyObj.key).getD []
  let rnd (n : Nat) : Bytes := randomBytes (j.draw - 1) n
  match r.opcode with
  | 0x40 => .okObj (mlkemEk p (rnd 64)) { type := 0x20, origin := 1, param := p, len := 64, material := rnd 64 }
  | 0x41 =>
    if !Config.mlkemEkOk p j.input then .bad .operandRange 0 l.2
    else .okObj (mlkemCt p j.input (rnd 32)) { type := 0x30, origin := 6, param := 0, len := 32, material := mlkemSs p j.input (rnd 32) }
  | 0x42 => .okObj [] { type := 0x30, origin := 6, param := 0, len := 32, material := mlkemDec p key j.input }
  | 0x43 => .okObj (mldsaPk p (rnd 32)) { type := 0x21, origin := 1, param := p, len := 32, material := rnd 32 }
  | 0x44 =>
    let ctx := j.input.take r.ctxLen
    let msg := j.input.drop r.ctxLen
    { JobRes.ok (mldsaSig p key ctx msg (rnd 32)) with b12 := min (mldsaTries p key ctx msg (rnd 32)) 65535 }
  | _ =>
    let pk := j.input.take l.1
    let rest := j.input.drop (l.1 + l.2)
    if r.keyHandle != 0 && sha3 pk != key then .bad .paramRejected 0x12 0
    else if Config.mldsaVerifies p pk (rest.take r.ctxLen) (rest.drop r.ctxLen) (slice j.input l.1 l.2) then .ok []
    else .bad .authFail 4 0

/-- A job's own work on its core is over: the core goes on, and counts it (R219). -/
def Die.countNtt (d : Die) (r : Req) (core : Nat) : Die :=
  ((d.resumeNtt core).wrapAt2 .NTT_CORE_JOBS_COUNT core 0 1).count 8 1 r.tenant 1

/-- A job ends with its result (R197, R203). An object that may not be created any more leaves nothing written (log 52); while its slot
is written, the job's context stores it. -/
def Die.finishNtt (e : Env) (d : Die) (r : Req) (j : NttJob) (core : Nat) (x : JobRes) : Die :=
  let rep : Reply := { Reply.fail x.st (x.b12 + conTail core j.preempted) with length := x.len, flags := replyFlags false false false false j.relaned }
  match x.obj with
  | none =>
    let d1 := ((d.output e r r.outAddr x.out).dropNtt j.rid).countNtt r core
    (if r.opcode == 0x44 then d1.count 8 2 r.tenant x.b12 else d1).complete e r rep
  | some n =>
    match d.destCheck r.tenant r.destHandle with
    | some (st, y) => ((d.dropNtt j.rid).countNtt r core).fail e r st (y + conTail core j.preempted)
    | none =>
      let d1 := ((d.output e r r.outAddr x.out).updNtt j.rid fun y => { y with place := .storing core }).countNtt r core
      d1.createAt e r (d1.newVolatile r.tenant r.destHandle n.type r.usageByte n.origin n.param n.len n.material) rep

/-! ## Scheduling and faults (R202) -/

/-- The waiting jobs that core `core` may take: those that go first, or the others, in the order of
R276. -/
def Die.nttWaiters (d : Die) (core : Nat) (first : Bool) : List NttJob :=
  d.inPasses 2 NttJob.tenant (d.ntt.jobs.filter fun j => j.place == .waiting && j.loaded && d.nttFirst j == first && j.first != some core &&
    d.servable j.tenant 2)

/-- Core time of a job as it starts (R199, R201). -/
def Die.nttTime (d : Die) (r : Req) (j : NttJob) : Nat :=
  if j.cycles != 0 then j.cycles
  else
    let key := ((d.usedObj r).map KeyObj.key).getD []
    nttCycles r (if r.opcode == 0x44
      then mldsaTries r.param key (j.input.take r.ctxLen) (j.input.drop r.ctxLen) (randomBytes (j.draw - 1) 32) else 0)

/-- Starts a job on a core, in a context of it; its key use is counted once for all its attempts (R198, R234). -/
def Die.startNtt (e : Env) (d : Die) (j : NttJob) (core : Nat) : Die :=
  match d.req? j.rid with
  | none => d.dropNtt j.rid
  | some r =>
    let go (d : Die) : Die :=
      match d.nttCtxOn j core with
      | none => d
      | some d1 =>
        (((d1.setStage r.rid .running).updNtt j.rid fun x => { x with place := .running core }).charge j.tenant 2 (d1.nttTime r j)).count
          8 0x10 j.tenant 1
    match if j.cycles != 0 then none else nttKeyNeed r with
    | none => go d
    | some (_, usage) =>
      if r.use.isSome || (d.nttCtxOn j core).isNone then go d
      else match d.takeUse e r r.keyHandle usage with
        | .counted d1 => go d1
        | .refused d1 st x => (d1.dropNtt j.rid).fail e r st x
        | .waits => d

/-- NTT_DISPATCH: an idle core in service takes the next waiting job, ML-KEM and handshake work before the rest. -/
def execNttDispatch (core : Nat) (s : State) : Out :=
  s.act fun e d0 =>
    let d := d0.loadNtt e
    if 4 ≤ core || !d.takesWork .ntt core || !d.dispatches ||
       d.ntt.jobs.any fun j => j.place == .running core || j.place == .displaced core then d
    else match d.nttWaiters core true ++ d.nttWaiters core false with
      | j :: _ => d.startNtt e j core
      | [] => d

/-- A waiting job that goes first takes the core of a running signature, where it can start (R202). -/
def Die.preemptNtt (e : Env) (d : Die) (j : NttJob) (core : Nat) : Die :=
  match d.nttWaiters core true with
  | [] => d
  | x :: _ =>
    let d1 := d.startNtt e x core
    if d1.ntt.jobs.any fun y => y.rid == x.rid && y.place == .running core
    then d1.updNtt j.rid fun y => { y with place := .displaced core, preempted := y.preempted + 1 } else d1

/-- NTT_ATTEMPT_BOUNDARY: a signature stops where it was asked to, or gives its core to a waiting ML-KEM or handshake job;
as the die parks it pauses here (R403). -/
def execNttAttemptBoundary (rid : Nat) (s : State) : Out :=
  s.act fun e d =>
    match d.req? rid, d.ntt.jobs.find? fun j => j.rid == rid with
    | some r, some j =>
      match j.place with
      | .running core =>
        if !j.signing then d
        else
          let d0 := d.updNtt rid fun x => { x with attempts := x.attempts + 1 }
          match r.stop with
          | some st => d0.stopNtt e r j st
          | none =>
            if d0.get .PWR_STATUS_STATE == 2 then d0.updNtt rid fun y => { y with place := .displaced core }
            else if !d0.dispatches || !d0.inUse .ntt core then d0
            else d0.preemptNtt e j core
      | _ => d
    | _, _ => d

/-- A job is repeated on another core, with fresh random values (R189, R202). -/
def Die.repeatNtt (d : Die) (r : Req) (j : NttJob) (core : Nat) : Die :=
  let need := (r.work.head?.map Work.fresh).getD j.need
  (d.updNtt j.rid fun x => { x with place := .waiting, ctx := none, first := some core, relaned := true, draw := 0, need }).updReq j.rid
    fun x => { x with relaned := x.relaned || !x.work.isEmpty }

/-- Quarantines a lattice core (R190, R202): its jobs are repeated elsewhere, its contexts are zeroized, and with no core left jobs
complete FAULT_RETRY. -/
def Die.quarantineNtt (e : Env) (d : Die) (core : Nat) : Die :=
  let d1 := d.quarantine e .ntt core
  let mine := d1.ntt.jobs.filter fun j => j.place == .running core || j.place == .displaced core
  let d2 : Die := mine.foldl (fun d j => match d.req? j.rid with | some r => d.repeatNtt r j core | none => d.dropNtt j.rid) d1
  let d3 := { d2 with ntt := { d2.ntt with
    jobs := updateWhere (fun j => (j.ctx.map Prod.fst) == some core) (fun j => { j with ctx := none }) d2.ntt.jobs,
    mem := d2.ntt.mem.filter fun b => b.1 / 262144 != core } }
  let d4 := d3.loadNtt e
  if !d4.coreless .ntt then d4
  else d4.ntt.jobs.foldl (fun d j =>
    match d.req? j.rid, j.place with
    | some r, .waiting =>
      d.faultNtt e r j (j.first.getD 0xFF) none ((j.first.map fun c => d.getAt .NTT_CORE_LAST_MISMATCH_KIND c).getD 0)
        (if r.stage == .running && r.work.isEmpty then (nttSpec r).resLen else 0)
    | _, _ => d) d4

/-- A fault check of a job mismatched (R189, R190, R202). -/
def Die.nttMismatch (e : Env) (d : Die) (r : Req) (j : NttJob) (core kind : Nat) : Die :=
  let d1 := d.noteMismatch e .ntt core kind r.tenant
  let quar := decide (3 ≤ d1.recent .ntt core)
  let again := quar || r.allowRelane || d.has .NTT_CTL_RECORE_ALWAYS
  let d2 :=
    if j.relaned || !again then
      d1.faultNtt e r j (j.first.getD core) (if j.first.isSome then some core else none) kind (if r.work.isEmpty then (nttSpec r).resLen else 0)
    else ((d1.repeatNtt r j core).resumeNtt core).loadNtt e
  if quar then d2.quarantineNtt e core else d2

/-- NTT_JOB_DONE: a running job ends, with a mismatch of `kind` or 0 for none. A job of another request lets that go on. -/
def execNttJobDone (rid kind : Nat) (s : State) : Out :=
  s.act fun e d =>
    match d.req? rid, d.ntt.jobs.find? fun j => j.rid == rid with
    | some r, some j =>
      match j.place with
      | .running core =>
        if kind != 0 then d.nttMismatch e r j core kind
        else if !r.work.isEmpty then ((d.dropNtt rid).countNtt r core).workDone r
        else d.finishNtt e r j core (d.nttResult r j)
      | _ => d
    | _, _ => d

/-- Cancels one lattice job (R187, R202): a running signature stops at its next boundary, other running jobs run on. -/
def Die.cancelNtt (e : Env) (by_ : Nat) (d : Die) (j : NttJob) : Die :=
  match d.req? j.rid with
  | none => d
  | some r =>
    if r.stop.isSome then d
    else match j.place with
      | .running _ => if j.signing then d.updReq r.rid fun x => { x with stop := some .aborted, stopBy := by_ } else d
      | .storing _ => d
      | _ => d.stopNtt e r j .aborted

/-- NTT_CANCEL: as CON_CANCEL, over the tenant's lattice requests. -/
def execNttCancel (rid : Nat) (s : State) : Out :=
  s.act fun e d => d.handle e rid 0x4F fun r =>
    let names (x : Req) : Bool := x.isNttJob && x.tenant == r.tenant && leNat x.tag == r.inAddr
    let js := d.ntt.jobs.filter fun j => (d.req? j.rid).any names && (match j.place with | .storing _ => false | _ => true)
    d.cancelJobs e r false names (js.map NttJob.rid) fun d => js.foldl (Die.cancelNtt e rid) d

def execNttQuarantineCmd (core : Nat) (s : State) : Out :=
  s.act fun e d =>
    let d := d.access 0
    if core < 4 && d.getAt .NTT_CORE_STATUS_STATE core != 1 then d.quarantineNtt e core else d

def execNttReleaseCmd (core : Nat) (s : State) : Out :=
  s.act fun _ d => if core < 4 then (d.access 0).startKat .ntt core else d.access 0

def execNttKatDone (core : Nat) (pass : Bool) (s : State) : Out :=
  s.act fun _ d => if core < 4 then d.endKat .ntt core pass else d

end Sys2Proof.Machine
end

