-- ==== Sys2Proof/Machine/Image.lean ====
section
/-! DEFINITION. Tin images (R291 to R302): layout, digests, signatures, the rules of every section, and how a
configuration is put in force. -/
namespace Sys2Proof.Machine

/-! ## Layout (R291 to R293, R301) -/

/-- A catalogue entry. -/
structure CatEntry where
  type : Nat
  inst : Nat
  off : Nat
  len : Nat

def imgKind (b : Bytes) : Nat := leAt b 5 1
def imgSerial (b : Bytes) : Nat := leAt b 12 4
def imgDeltaSeq (b : Bytes) : Nat := leAt b 16 4
def imgSigOff (b : Bytes) : Nat := leAt b 24 4
def imgBase (b : Bytes) : Bytes := slice b 32 48

def catAt (b : Bytes) (k : Nat) : CatEntry :=
  let p := 128 + 16 * k
  { type := leAt b p 1, inst := leAt b (p + 2) 2, off := leAt b (p + 4) 4, len := leAt b (p + 8) 4 }

def imgCat (b : Bytes) : List CatEntry := (List.range (leAt b 6 2)).map (catAt b)

/-- The sections of an image, in catalogue order. -/
def imgSections (b : Bytes) : List Section := (imgCat b).map fun c => { type := c.type, inst := c.inst, body := slice b c.off c.len }

def allZero (b : Bytes) : Bool := b.all fun x => x == 0

/-- Types of R294 (log 22). -/
def sectionTypes : List Nat := [1, 2, 3, 4, 5, 6, 7, 8, 9, 0x81, 0x82, 0x83]
def requiredTypes : List Nat := [1, 2, 3, 6, 7, 8, 9, 0x81, 0x82, 0x83]

/-- Catalogue entry `k` follows R293, and its section lies where R291 puts it. -/
def entryOk (b : Bytes) (k : Nat) : Bool :=
  let c := catAt b k
  let q := catAt b (k - 1)
  let prev := if k = 0 then 128 + 16 * leAt b 6 2 else q.off + q.len
  sectionTypes.contains c.type && leAt b (128 + 16 * k + 1) 1 == 0 && leAt b (128 + 16 * k + 12) 4 == 0 &&
    (c.type == 4 || c.type == 5 || c.inst == 0) && decide (1 ≤ c.len) && c.off % 64 == 0 && decide (prev ≤ c.off) &&
    allZero (slice b prev (c.off - prev)) && decide (c.off + c.len ≤ imgSigOff b) &&
    (k == 0 || decide (q.type < c.type) || (q.type == c.type && decide (q.inst < c.inst)))

/-- Length of the vendor signatures of an image. -/
def vendorLen (b : Bytes) : Nat := if imgKind b = 1 then 4723 else 0

/-- The header and the signature area follow R292 and R301, and a full image holds every required type (R294). -/
def frameOk (b : Bytes) : Bool :=
  let n := leAt b 6 2
  let last := catAt b (n - 1)
  let s := imgSigOff b
  let cat := imgCat b
  let count (t : Nat) : Nat := (cat.filter fun c => c.type == t).length
  decide (1 ≤ n) && decide (n ≤ 4106) && decide (count 4 ≤ 2048) && decide (count 5 ≤ 2048) && decide (1 ≤ imgSerial b) &&
    leAt b 21 3 == 0 && leAt b 30 2 == 0 && allZero (slice b 80 48) &&
    (if imgKind b = 1 then imgDeltaSeq b == 0 && allZero (imgBase b) && requiredTypes.all fun t => count t != 0
     else decide (1 ≤ imgDeltaSeq b)) &&
    s % 64 == 0 && decide (last.off + last.len ≤ s) && allZero (slice b (last.off + last.len) (s - (last.off + last.len))) &&
    leAt b s 2 == vendorLen b && leAt b (s + 2) 2 == 4723 && b.length == s + 4 + vendorLen b + 4723

/-- The catalogue index of the first failing entry, or 0xFF for the rest of the image; none where the layout holds. -/
def layoutFault (b : Bytes) : Option Nat :=
  match (List.range (leAt b 6 2)).find? fun k => !entryOk b k with
  | some k => some (min k 0xFF)
  | none => if frameOk b then none else some 0xFF

/-! ## Digests and signatures (R301, R302) -/

def pad64 (n : Nat) : Nat := ceilDiv n 64 * 64

/-- Catalogue entries of sections placed back to back from `off`. -/
def placeSections : Nat → List Section → Bytes × Bytes
  | _, [] => ([], [])
  | off, s :: r =>
    let n := s.body.length
    let x := placeSections (off + pad64 n) r
    (leBytes 2 s.type ++ leBytes 2 s.inst ++ leBytes 4 off ++ leBytes 4 n ++ zeros 4 ++ x.1,
     s.body ++ zeros (pad64 n - n) ++ x.2)

/-- The canonical image of a configuration (R302) (log 102). -/
def canonical (secs : List Section) (serial deltaSeq : Nat) : Bytes :=
  let start := pad64 (128 + 16 * secs.length)
  let x := placeSections start secs
  let sig := start + x.2.length
  let size := ((secs.find? fun s => s.type == 1).map fun s => leAt s.body 0 1).getD 0
  let head := leBytes 4 0x4E495433 ++ leBytes 1 1 ++ leBytes 1 1 ++ leBytes 2 secs.length ++ leBytes 4 (sig + 9450) ++
    leBytes 4 serial ++ leBytes 4 deltaSeq ++ leBytes 1 size ++ zeros 3 ++ leBytes 4 sig ++ zeros 100
  head ++ x.1 ++ zeros (start - (128 + 16 * secs.length)) ++ x.2 ++ zeros 9450

/-- The configuration digest; the policy digest; the table-geometry digest (R302). -/
def configDigest (secs : List Section) (serial deltaSeq : Nat) : Bytes := sha384 (canonical secs serial deltaSeq)
def bodyOf (secs : List Section) (type inst : Nat) : Bytes :=
  ((secs.find? fun s => s.type == type && s.inst == inst).map fun s => s.body).getD []
def policyDigest (secs : List Section) : Bytes :=
  sha384 (ascii "TIN-POLICY" ++ (secs.filter fun s => s.type == 5).flatMap fun s => s.body)
def geomDigest (secs : List Section) : Bytes :=
  sha384 (ascii "TIN-GEOM" ++ bodyOf secs 2 0 ++ patch (bodyOf secs 3 0) 2 (zeros 2))

/-- Vendor digest of an image: its vendor catalogue entries with OFFSET zeroed, and their bodies. -/
def vendorDigest (b : Bytes) : Bytes :=
  let vs := (imgSections b).filter fun s => decide (0x80 ≤ s.type)
  sha384 (ascii "TIN-VENDOR" ++
    (vs.flatMap fun s => leBytes 2 s.type ++ leBytes 2 s.inst ++ zeros 4 ++ leBytes 4 s.body.length ++ zeros 4) ++
    vs.flatMap fun s => s.body)

/-- Owner digest of an image: everything below the signature area, and the vendor signatures. -/
def ownerDigest (b : Bytes) : Bytes :=
  sha384 (ascii "TIN-OWNER" ++ b.take (imgSigOff b) ++ slice b (imgSigOff b + 4) (vendorLen b))

/-- A signature pair of 4,723 bytes: ECDSA P-384 over the digest, and ML-DSA-87 over it as a message with a context. -/
def pairVerifies (ec mldsa : Bytes) (ctx : String) (digest sig : Bytes) : Bool :=
  let c := builtinCurve 2
  let q := (beAt ec 1 48, beAt ec 49 48)
  c.onCurve q.1 q.2 && c.ecdsaOk q digest (beAt sig 0 48) (beAt sig 48 48) &&
    Config.mldsaVerifies 0x13 mldsa (ascii ctx) digest (slice sig 96 4627)

/-- A key pair of the boot ROM: the P-384 point and the ML-DSA-87 key. -/
def romPair (use : Nat) : Bytes × Bytes :=
  ((List.range 97).map (Config.romKeyByte use 0), (List.range 2592).map (Config.romKeyByte use 1))

def isTestState (code : Nat) : Bool := decide (code ≤ 2)

/-- The owner key pair in force (R311): the published test key in Blank and the test states, else the registered one;
none where there is none. -/
def Die.ownerPair (d : Die) : Option (Bytes × Bytes) :=
  if isTestState (d.get .LCS_STATE_STATE) then some (romPair 3)
  else if d.key.ownerEc.isEmpty then none else some (d.key.ownerEc, d.key.ownerMldsa)

def vendorSigOk (b : Bytes) : Bool :=
  let k := romPair 1
  pairVerifies k.1 k.2 "TY8K40 Tin vendor" (vendorDigest b) (slice b (imgSigOff b + 4) 4723)
def ownerSigOk (k : Bytes × Bytes) (b : Bytes) : Bool :=
  pairVerifies k.1 k.2 "TY8K40 Tin owner" (ownerDigest b) (slice b (imgSigOff b + 4 + vendorLen b) 4723)

/-! ## The rules of the sections (check 10 of R304) -/

/-- Threshold of R227. -/
def thresholdOf (n : Nat) : Nat := match n with | 1 => 1 | 2 => 2 | 4 => 3 | _ => 5

/-- ENSEMBLE (R295, R317). -/
def ensembleOk (size lead : Nat) (b : Bytes) : Bool :=
  b.length == 16 && leAt b 0 1 == size && leAt b 1 1 == thresholdOf size && leAt b 2 1 == lead && decide (leAt b 3 1 ≤ 1) &&
    allZero (slice b 4 12)

/-- CARVE (R296). -/
def carveOk (b : Bytes) : Bool := b.length == 8 && decide (48 ≤ leAt b 0 1 ∧ leAt b 0 1 ≤ 72) && allZero (slice b 1 7)

/-- A position entry of GEOMETRY (R297, R139, R140). -/
def positionOk (b : Bytes) (p : Nat) : Bool :=
  let g := slice b (16 + 32 * p) 32
  leAt g 0 8 % 2 ^ 30 == 0 && decide (1 ≤ leAt g 8 2 ∧ leAt g 8 2 ≤ 512) && allZero (slice g 10 6) &&
    leAt g 16 8 % 512 == 0 && leAt g 24 8 % 1024 == 0

def geometryOk (size : Nat) (b : Bytes) : Bool :=
  b.length == 16 + 32 * size && decide (1 ≤ leAt b 0 2 ∧ leAt b 0 2 ≤ 16384) && decide (10 ≤ leAt b 2 2 ∧ leAt b 2 2 ≤ 1440) &&
    allZero (slice b 4 12) && (List.range size).all (positionOk b)

/-- Two windows share a byte. -/
def Window.overlaps (a b : Window) : Bool := decide (a.base < b.base + 2 ^ b.sizeLog2) && decide (b.base < a.base + 2 ^ a.sizeLog2)

/-- No two windows of a list share a byte. -/
def disjoint : List Window → Bool
  | [] => true
  | w :: r => (r.all fun x => !w.overlaps x) && disjoint r

/-- TENANT (R298). -/
def tenantOk (s : Section) : Bool :=
  let b := s.body
  let regions := leAt b 31 1
  let fl := leAt b 3 1
  b.length == 32 + 16 * regions && decide (regions ≤ 16) && leAt b 0 2 == s.inst && decide (s.inst < 2048) && decide (leAt b 2 1 ≤ 1) &&
    decide (fl ≤ 7) && (!bit fl 2 || leAt b 2 1 == 1) && decide (1 ≤ leAt b 7 1 ∧ leAt b 7 1 ≤ 16) &&
    decide (leAt b 12 4 ≤ leAt b 28 3) && decide (leAt b 28 3 ≤ 65536) && decide (1 ≤ leAt b 16 2 ∧ leAt b 16 2 ≤ 3906) &&
    decide (leAt b 18 2 ≤ 60000) && leAt b 20 8 % 512 == 0 &&
    (List.range regions).all (fun r =>
      let g := slice b (32 + 16 * r) 16
      decide (12 ≤ leAt g 8 1 ∧ leAt g 8 1 ≤ 48) && decide (leAt g 9 1 ≤ 3) && allZero (slice g 10 6) &&
        leAt g 0 8 % 2 ^ leAt g 8 1 == 0) && disjoint s.regions

/-- Fields of a policy instruction that its OP uses (R361): A and B name registers, IMM is a plain immediate, an input, a
state word, a shift or a branch. -/
inductive PolImm where
  | zero | any | input | state | shift | branch
  deriving DecidableEq, Repr

def polForm (op : Nat) : Option (Bool × Bool × PolImm) :=
  match op with
  | 0x01 | 0x02 | 0x09 => some (true, false, .any)
  | 0x03 | 0x07 | 0x08 | 0x0A | 0x0B | 0x0C | 0x0D | 0x0E | 0x11 | 0x12 => some (true, true, .zero)
  | 0x04 => some (true, false, .input)
  | 0x05 => some (true, false, .state)
  | 0x06 => some (false, true, .state)
  | 0x0F | 0x10 => some (true, false, .shift)
  | 0x13 | 0x14 | 0x15 | 0x16 => some (true, true, .branch)
  | 0x17 => some (false, false, .branch)
  | 0x18 => some (false, false, .zero)
  | 0x19 => some (false, false, .any)
  | _ => none

/-- An instruction word at index `k` of a program of `n` passes R363. -/
def polWordOk (n k w : Nat) : Bool :=
  let imm := bits w 31 16
  match polForm (bits w 7 0) with
  | none => false
  | some (a, b, f) =>
    (if a then decide (bits w 11 8 < 8) else bits w 11 8 == 0) && (if b then decide (bits w 15 12 < 8) else bits w 15 12 == 0) &&
    (match f with
     | .zero => imm == 0
     | .any => true
     | .input => decide (imm < 16)
     | .state => decide (imm < 8)
     | .shift => decide (imm < 64)
     | .branch => (decide (imm < 2 ^ 15) || decide (2 ^ 16 ≤ k + 1 + imm)) && decide (branchTo k imm < n))

/-- A program of `n` words passes R363. -/
def polProgramOk (ws : List Nat) : Bool :=
  let n := ws.length
  (List.range n).all (fun k => polWordOk n k (ws.getD k 0)) && [0x17, 0x18, 0x19].contains (bits (ws.getD (n - 1) 0) 7 0)

/-- POLICY (R360, R363). -/
def policyOk (secs : List Section) (s : Section) : Bool :=
  let b := s.body
  let n := leAt b 0 1
  let entry (k : Nat) : Nat × Nat × Nat := (leAt b (8 + 4 * k) 1, leAt b (9 + 4 * k) 1, leAt b (10 + 4 * k) 2)
  let words (k : Nat) : List Nat :=
    let start := 8 + 4 * n + 4 * ((List.range k).map fun i => (entry i).2.2).sum
    (List.range (entry k).2.2).map fun i => leAt b (start + 4 * i) 4
  decide (1 ≤ n ∧ n ≤ 63) && allZero (slice b 1 7) &&
    b.length == 8 + 4 * n + 4 * ((List.range n).map fun k => (entry k).2.2).sum &&
    (secs.any fun t => t.type == 4 && t.inst == s.inst) &&
    (List.range n).all fun k =>
      decide (1 ≤ (entry k).1 ∧ (entry k).1 ≤ 63) && (entry k).2.1 == 0 && decide (1 ≤ (entry k).2.2 ∧ (entry k).2.2 ≤ 256) &&
        (k == 0 || decide ((entry (k - 1)).1 < (entry k).1)) && polProgramOk (words k)

/-- OPPOINT (R299). -/
def oppointOk (b : Bytes) : Bool :=
  b.length == 8 && decide (leAt b 0 1 ≤ 3) && decide (leAt b 1 1 ≤ 1) && decide (80 ≤ leAt b 2 2 ∧ leAt b 2 2 ≤ 180) && allZero (slice b 4 4)

/-- A signed 16-bit field. -/
def signed16 (n : Nat) : Int := if n < 2 ^ 15 then n else (n : Int) - 2 ^ 16

/-- TAMPER_MAP and TAMPER_FLOOR (R381). -/
def tamperOk (b : Bytes) : Bool :=
  let lo := signed16 (leAt b 2 2)
  let hi := signed16 (leAt b 4 2)
  b.length == 104 && leAt b 0 1 == 1 && leAt b 1 1 == 24 && decide (-55 ≤ lo) && decide (hi ≤ 135) && decide (lo + 20 < hi) &&
    decide (leAt b 6 1 < 16) && decide (leAt b 7 1 < 8) && leAt b 100 4 == 0 &&
    (List.range 24).all fun k =>
      decide (leAt b (8 + 4 * k) 1 ≤ 4) && decide (leAt b (9 + 4 * k) 1 ≤ 3) && leAt b (10 + 4 * k) 2 == 0

/-- Trigger codes of R430. -/
def triggerDefined (t : Nat) : Bool :=
  let e := t % 256
  match t / 256 with
  | 1 | 4 => decide (1 ≤ e ∧ e ≤ 3)
  | 2 => decide (1 ≤ e ∧ e ≤ 4)
  | 3 | 0xC => decide (1 ≤ e ∧ e ≤ 5)
  | 5 | 8 | 0xB => decide (1 ≤ e ∧ e ≤ 6)
  | 6 | 0xD => decide (1 ≤ e ∧ e ≤ 2)
  | 7 => decide (1 ≤ e ∧ e ≤ 7)
  | 9 => decide (1 ≤ e ∧ e ≤ 9)
  | 0xA => decide (1 ≤ e ∧ e ≤ 0x18) || e == 0x20 || e == 0x21
  | _ => false

/-- The lists of a RECORDER section from offset `off`: each well formed, and nothing after the last. -/
def listsOk (b : Bytes) : Nat → Nat → Bool
  | 0, off => b.length == off
  | n + 1, off =>
    let c := leAt b off 1
    decide (1 ≤ c ∧ c ≤ 24) && leAt b (off + 1) 3 == 0 && (List.range c).all (fun k => leAt b (off + 4 + 4 * k) 4 % 4 == 0) &&
      decide (off + 4 + 4 * c ≤ b.length) && listsOk b n (off + 4 + 4 * c)

/-- RECORDER (R440). -/
def recorderOk (b : Bytes) : Bool :=
  let nl := leAt b 1 1
  let nt := leAt b 2 2
  let code (k : Nat) : Nat := leAt b (8 + 4 * k) 2
  leAt b 0 1 == 1 && decide (nl ≤ 8) && decide (nt ≤ 128) && leAt b 4 4 == 0 && decide (8 + 4 * nt ≤ b.length) &&
    (List.range nt).all (fun k =>
      let fl := leAt b (11 + 4 * k) 1
      triggerDefined (code k) && decide (leAt b (10 + 4 * k) 1 ≤ nl) && decide (fl ≤ 3) && (!isClassP (code k) || bit fl 0) &&
        ((List.range k).all fun j => code j != code k)) && listsOk b nl (8 + 4 * nt)

/-- Events of R441. -/
def counterDefined (block event : Nat) : Bool :=
  match block with
  | 1 | 2 => decide (1 ≤ event ∧ event ≤ 3) || event == 0x10
  | 3 => decide (1 ≤ event ∧ event ≤ 6) || event == 0x10
  | 4 => event == 1 || event == 0x10
  | 5 => decide (1 ≤ event ∧ event ≤ 5) || event == 0x10
  | 6 | 0xA => decide (1 ≤ event ∧ event ≤ 4)
  | 7 | 8 => event == 1 || event == 2 || event == 0x10
  | 9 => event == 1
  | _ => false

/-- COUNTERS (R447). -/
def countersOk (b : Bytes) : Bool :=
  let n := leAt b 1 1
  leAt b 0 1 == 1 && decide (n ≤ 52) && leAt b 2 2 == 0 && b.length == 8 + 8 * n &&
    (List.range n).all fun k =>
      let s := slice b (8 + 8 * k) 8
      counterDefined (leAt s 0 1) (leAt s 1 1) && decide (leAt s 2 1 ≤ 3) && leAt s 3 1 == 0 && leAt s 6 2 == 0

/-- DEVICE (R300): the rules that check 7 does not take. -/
def deviceOk (b : Bytes) : Bool := b.length == 16 && decide (1 ≤ leAt b 12 2 ∧ leAt b 12 2 ≤ 256) && leAt b 14 2 == 0
def deviceFits (svn : Nat) (b : Bytes) : Bool := slice b 0 8 == ascii "TY8K40" ++ zeros 2 && decide (leAt b 8 4 ≤ svn)

/-- Units of the blocks of the power model. -/
def powerUnits : List Nat := [8, 4, 24, 4, 1, 4, 4, 1, 2, 1]

/-- POWER_MODEL (R407). -/
def powerOk (b : Bytes) : Bool :=
  b.length == 176 && leAt b 0 1 == 1 && leAt b 1 1 == 10 && leAt b 2 2 == 0 && decide (leAt b 4 2 ≤ 18000) &&
    decide (leAt b 6 2 ≤ leAt b 4 2) && allZero (slice b 8 8) &&
    (List.range 10).all fun k =>
      let s := slice b (16 + 16 * k) 16
      leAt s 0 1 == k + 1 && leAt s 1 1 == 0 && leAt s 7 1 == 0 && allZero (slice s 10 6) && leAt s 8 2 == powerUnits.getD k 0 &&
        decide (5 ≤ leAt s 6 1 ∧ leAt s 6 1 ≤ 60) && leAt s 2 2 + leAt s 4 2 != 0

/-- A section follows its own rules (check 10 of R304) in an image for `size` dies with the lead at `lead`. -/
def sectionOk (size lead : Nat) (secs : List Section) (s : Section) : Bool :=
  match s.type with
  | 1 => ensembleOk size lead s.body
  | 2 => carveOk s.body
  | 3 => geometryOk size s.body
  | 4 => tenantOk s
  | 5 => policyOk secs s
  | 6 => oppointOk s.body
  | 7 | 0x82 => tamperOk s.body
  | 8 => recorderOk s.body
  | 9 => countersOk s.body
  | 0x81 => deviceOk s.body
  | 0x83 => powerOk s.body
  | _ => false

/-! ## Rules across sections (check 11 of R304) -/

/-- The map `m` is no lower than the floor `f` (R382). -/
def noLower (m f : Bytes) : Bool :=
  let sub (a b : Nat) : Bool := a &&& b == b
  decide (signed16 (leAt f 2 2) ≤ signed16 (leAt m 2 2)) && decide (signed16 (leAt m 4 2) ≤ signed16 (leAt f 4 2)) &&
    sub (leAt m 6 1) (leAt f 6 1) && sub (leAt m 7 1) (leAt f 7 1) &&
    (List.range 24).all fun k =>
      decide (leAt f (8 + 4 * k) 1 ≤ leAt m (8 + 4 * k) 1) && sub (leAt m (9 + 4 * k) 1) (leAt f (9 + 4 * k) 1)

/-- The boot ROM floor in the layout of R381 (R382). -/
def romFloor : Bytes :=
  [1, 24] ++ leBytes 2 (2 ^ 16 - 45) ++ leBytes 2 120 ++ [1, 0] ++
    mapSources.flatMap fun s =>
      let x := floorEntry s
      leBytes 1 x.1 ++ leBytes 1 (ofBool x.2.1 + 2 * ofBool x.2.2) ++ zeros 2

/-- T of R140 for a slice of `z` bytes. -/
def treeBytes (z : Nat) : Nat :=
  let n := z / 128
  2 ^ 21 * ceilDiv (64 * (ceilDiv n 32 + ceilDiv n (32 ^ 2) + ceilDiv n (32 ^ 3))) (2 ^ 21)

/-- Byte ranges that do not meet and end at or below `lim`. -/
def rangesFit (lim : Nat) : List (Nat × Nat) → Bool
  | [] => true
  | x :: r => decide (x.1 + x.2 ≤ lim) && (r.all fun y => decide (x.1 + x.2 ≤ y.1) || decide (y.1 + y.2 ≤ x.1) || x.2 == 0 || y.2 == 0) &&
      rangesFit lim r

/-- The slices do not overlap, and each holds its tables and handle regions below its tree (R139, R140, R297). -/
def slicesOk (size : Nat) (secs : List Section) : Bool :=
  let b := bodyOf secs 3 0
  let g (p : Nat) : Bytes := slice b (16 + 32 * p) 32
  let z (p : Nat) : Nat := 2 ^ 30 * leAt (g p) 8 2
  let main := 65536 * leAt b 0 2
  rangesFit (2 ^ 64) ((List.range size).map fun p => (leAt (g p) 0 8, z p)) &&
    (List.range size).all fun p => rangesFit (z p - treeBytes (z p))
      ([(leAt (g p) 16 8, main * 512), (leAt (g p) 24 8, main * 32)] ++
        (secs.filter fun s => s.type == 4 && s.inst / 256 == p).map fun s => (leAt s.body 20 8, leAt s.body 28 3 * 128))

/-- Check 11: the index of the failing section, 0xFF where none is alone at fault. -/
def acrossFault (size : Nat) (secs : List Section) : Option Nat :=
  let fns := leAt (bodyOf secs 0x81 0) 12 2
  let outside (s : Section) : Bool := s.type == 4 && (decide (size ≤ s.inst / 256) || decide (fns ≤ s.inst % 256))
  let sum (p off : Nat) : Nat := ((secs.filter fun s => s.type == 4 && s.inst / 256 == p).map fun s => leAt s.body off 1).sum
  match secs.findIdx? outside with
  | some k => some (min k 0xFF)
  | none =>
    if (List.range size).all (fun p => decide (sum p 4 ≤ 256) && decide (sum p 5 ≤ 256) && decide (sum p 6 ≤ 256)) &&
       slicesOk size secs && noLower (bodyOf secs 7 0) (bodyOf secs 0x82 0) && noLower (bodyOf secs 0x82 0) romFloor
    then none else some 0xFF

/-- The strapped size (R317); 1 before the first ensemble start. -/
def Die.strapSize (d : Die) : Nat := d.size

/-! ## A configuration in force -/

/-- Replaces the sections of the same TYPE and INSTANCE (R302). -/
def overlay (base delta : List Section) : List Section :=
  base.map fun s => (delta.find? fun x => x.type == s.type && x.inst == s.inst).getD s

/-- The configuration accepted last: the running one, or the one that the next epoch boundary applies (R308). -/
def Die.acceptedSecs (d : Die) : List Section := if d.tin.atEpoch.isEmpty then d.tin.running else d.tin.atEpoch

/-- Writes a digest to six words of 64 bits (R312). -/
def Die.setDigest (d : Die) (f : Fld) (b : Bytes) : Die :=
  (List.range 6).foldl (fun d j => d.setAt f j (leAt b (8 * j) 8)) d

/-- The digest that six words hold. -/
def Die.digestOf (d : Die) (f : Fld) : Bytes := (List.range 6).flatMap fun j => leBytes 8 (d.getAt f j)

/-- The live fields of a TENANT section on its own die (R298): shares, quotas, CAP, RNG rate and AGE_LIMIT. -/
def Die.liveTenant (d : Die) (fn : Nat) (b : Bytes) : Die :=
  (((((((((d.setAt .TEN_SHARE_LANE fn (leAt b 4 1)).setAt .TEN_SHARE_CON fn (leAt b 5 1)).setAt .TEN_SHARE_NTT fn (leAt b 6 1)).setAt
    .TEN_SHARE_PAIRS fn (leAt b 7 1)).setAt .TEN_SHARE_CAP fn (ofBool (bit (leAt b 3 1) 1))).setAt .KFT_TEN_SHARE_SLOTS fn
    (ceilDiv (leAt b 8 4) d.size)).setAt .KFT_TEN_KEYS_QUOTA fn (leAt b 12 4)).setAt .RNG_TEN_CFG_RATE fn (leAt b 16 2)).setAt
    .KFT_TEN_CFG_AGE_LIMIT fn (leAt b 18 2))

/-- TENANT sections of this die, by function. -/
def Die.tenantSections (d : Die) : List (Nat × Bytes) :=
  (d.tin.running.filter fun s => s.type == 4 && s.inst / 256 == d.pos).map fun s => (s.inst % 256, s.body)

/-- The selections of a COUNTERS section (R447). -/
def counterSelections (b : Bytes) : List Nat := (List.range (leAt b 1 1)).map fun k => leAt b (8 + 8 * k) 8

/-- Puts selections in force. -/
def Die.setSelections (d : Die) (sel : List Nat) : Die :=
  (List.range 52).foldl (fun d k => d.setAt .PMC_SEL_SELECTION k (sel.getD k 0)) d

/-- The shadow set of an MPU shows what was loaded into the active set. -/
def Die.dropShadow (d : Die) (m : Nat) : Die :=
  { d with wld := { d.wld with shadow := d.wld.shadow.filter fun x => x.1 / 16 != m } }

/-- A commit of the secure world's own that took effect (R356, R358). -/
def Die.committed (d : Die) (m : Nat) : Die :=
  ((d.dropShadow m).setAt .MPU_STATUS_LAST_RESULT m 1).wrapAt2 .MPU_STATUS_COMMIT_GEN m 0 1

/-- Loads a window of an MPU region. -/
def Die.setRegion (d : Die) (m r : Nat) (w : Window) : Die :=
  ((((d.setAt2 .MPU_RGN_BASE_BASE m r (w.base / 4096)).setAt2 .MPU_RGN_ATTR_SIZE_LOG2 m r w.sizeLog2).setAt2 .MPU_RGN_ATTR_R m r
    (ofBool w.read)).setAt2 .MPU_RGN_ATTR_W m r (ofBool w.write)).setAt2 .MPU_RGN_ATTR_ENABLE m r 1

/-- Clears the regions of an MPU. -/
def Die.clearRegions (d : Die) (m : Nat) : Die :=
  (List.range 16).foldl (fun d r => ((((d.setAt2 .MPU_RGN_BASE_BASE m r 0).setAt2 .MPU_RGN_ATTR_SIZE_LOG2 m r 0).setAt2 .MPU_RGN_ATTR_R m r 0).setAt2
    .MPU_RGN_ATTR_W m r 0).setAt2 .MPU_RGN_ATTR_ENABLE m r 0) d

/-- Loads an MPU with windows. -/
def Die.loadRegions (d : Die) (m : Nat) (ws : List Window) : Die :=
  (List.range (min 16 ws.length)).foldl (fun d r => d.setRegion m r (ws.getD r ⟨0, 12, false, false⟩)) (d.clearRegions m)

/-- The window of a slice for the walker's MPU (R356). -/
def Die.sliceWindow (d : Die) (home : Nat) : Window :=
  { base := d.sliceBase home, sizeLog2 := Nat.clog 2 (max 4096 (d.sliceSize home)), read := true, write := true }

/-- Loads a tenant section at boot (R45, R298, R356). -/
def Die.bootTenant (d : Die) (fn : Nat) (s : Section) : Die :=
  let b := s.body
  let d1 := (d.liveTenant fn b).setAt .QUE_PAGE_STATUS_ASSIGNED fn 1
  ((d1.setAt .TEN_STATE_STEWARD fn (leAt b 2 1)).setAt .RNG_TEN_CFG_FE_ALLOWED fn (ofBool (bit (leAt b 3 1) 0))).loadRegions fn s.regions

/-- What the physical function has where no TENANT section names it (R309, R356): under the default configuration every share
of the die; under an image pairs and random bytes only (log 23). -/
def Die.bootPhysical (d : Die) (default_ : Bool) : Die :=
  let sh := if default_ then 255 else 0
  let d1 := ((((d.setAt .TEN_SHARE_LANE 0 sh).setAt .TEN_SHARE_CON 0 sh).setAt .TEN_SHARE_NTT 0 sh).setAt .TEN_SHARE_PAIRS 0 16).setAt
    .RNG_TEN_CFG_RATE 0 3906
  d1.loadRegions 0 [{ base := 0, sizeLog2 := 48, read := true, write := true }]

/-- Applies a configuration at boot (R309): the sections, the tenants of this die, geometry, the tamper map, the counters, and
with `point` the operating point (R412). -/
def Die.bootConfig (d : Die) (secs : List Section) (point : Bool) : Die :=
  let d0 := { d with tin := { d.tin with running := secs, atEpoch := [] } }
  let default_ := secs.isEmpty
  let ts := d0.tin.running.filter fun s => s.type == 4 && s.inst / 256 == d0.pos
  let d1 : Die := ts.foldl (fun d s => d.bootTenant (s.inst % 256) s) d0
  let d2 := if ts.any fun s => s.inst % 256 == 0 then d1 else d1.bootPhysical default_
  let g := d2.geometry d2.pos
  let z := d2.sliceSize d2.pos
  let d3 := (((((d2.set .KFT_GEOMETRY_CACHE_UNITS (leAt (bodyOf secs 2 0) 0 1)).set .KFT_GEOMETRY_MAIN_UNITS (leAt (bodyOf secs 3 0) 0 2)).set
    .KFT_SWEEP_CTL_PASS_MIN (if default_ then 60 else leAt (bodyOf secs 3 0) 2 2)).set .MLF_SLICE_BASE_ADDR (leAt g 0 8)).set
    .MLF_SLICE_SIZE_SIZE_GIB (leAt g 8 2)).set .MLF_SLICE_SIZE_TREE_MIB (if z = 0 then 0 else treeBytes z / 2 ^ 20)
  let upper := 64 * (d3.levelBlocks d3.pos 3 + d3.levelBlocks d3.pos 4 + d3.levelBlocks d3.pos 5)
  let d4 := (d3.set .MLF_CACHE_STATUS_CAPACITY ((10 * 2 ^ 20 - upper - 776 * 1024) / 256)).set .KEY_ROOT_STATUS_THRESHOLD
    (leAt (bodyOf secs 1 0) 1 1)
  let d5 := if default_ then d4.loadRegions 257 [] else (d4.loadRegions 257 [d4.sliceWindow d4.pos]).imageMap (bodyOf secs 7 0)
  let c := bodyOf secs 9 0
  let d6 := (d5.setSelections (counterSelections c)).set .PMC_CTL_WINDOW_US (leAt c 4 4)
  let o := bodyOf secs 6 0
  let d7 := if point then
      let p := if default_ then 0 else leAt o 0 1
      let cap := if default_ then 180 else leAt o 2 2
      let x := (((d6.set .PWR_OPPOINT_POINT p).set .PWR_OPPOINT_CAP cap).set .PWR_OPPOINT_SOURCE 0).set .PWR_STATUS_POINT p
      { x with clk := { x.clk with capInForce := cap } }
    else d6
  { (d7.rehold .lane).rehold .con with evr := { d7.evr with nextSel := none } }

/-- Applies a configuration at an epoch boundary (R277, R308): only live fields differ. -/
def Die.applyLive (d : Die) (secs : List Section) : Die :=
  let old := bodyOf d.tin.running 9 0
  let c := bodyOf secs 9 0
  let d0 := { d with tin := { d.tin with running := secs, atEpoch := [] } }
  let d1 : Die := d0.tenantSections.foldl (fun d t => d.liveTenant t.1 t.2) d0
  let d2 := d1.set .KFT_SWEEP_CTL_PASS_MIN (leAt (bodyOf secs 3 0) 2 2)
  if c == old then d2
  else
    { d2 with evr := { d2.evr with nextSel := some (counterSelections c) } }

/-- The configuration digests shown for the accepted configuration (R312). -/
def Die.showDigests (d : Die) (secs : List Section) (serial deltaSeq : Nat) : Die :=
  let dg (b : Bytes) : Bytes := if secs.isEmpty then zeros 48 else b
  (((d.setDigest .TIN_DIGEST_DIGEST (dg (configDigest secs serial deltaSeq))).setDigest .TIN_POLICY_DIGEST_DIGEST
    (dg (policyDigest secs))).setDigest .TIN_GEOM_DIGEST_DIGEST (dg (geomDigest secs)))

/-! ## The mismatch map (R337) -/

/-- The four compared fields of this die's tuple: domain epoch, Tin, policy and table-geometry digests. -/
def Die.ownTuple (d : Die) : Bytes :=
  leBytes 8 (d.get .ENS_DOMAIN_EPOCH_VALUE) ++ d.digestOf .TIN_DIGEST_DIGEST ++ d.digestOf .TIN_POLICY_DIGEST_DIGEST ++ d.digestOf .TIN_GEOM_DIGEST_DIGEST

/-- An activation window is open on this die (R340). -/
def Die.windowOpen (d : Die) : Bool :=
  let now := d.get .ENS_DOMAIN_TIME_VALUE
  (decide (now ≤ d.ens.windowEnd) && d.ens.windowEnd != 0) ||
    d.ens.armed.any fun a => decide (a.actTime ≤ now ∧ now ≤ a.actTime + 1000 * a.windowS)

/-- Sets the counts of the two maps. -/
def Die.countMembers (d : Die) : Die :=
  (d.set .ENS_DOMAIN_COUNTS_PRESENT (d.ens.members.filter fun m => m.2.present).length).set .ENS_DOMAIN_COUNTS_MISMATCHED
    (d.ens.members.filter fun m => m.2.mismatch).length

def Die.setMember (d : Die) (k : Nat) (m : Member) : Die := { d with ens := { d.ens with members := tput d.ens.members k m } }.countMembers

/-- A member as this die's tuple stands: a present member's mismatch bit says whether the two differ (R337). -/
def Die.judged (d : Die) (m : Member) : Member :=
  let bad := m.present && m.tuple != d.ownTuple
  { m with mismatch := bad, mismatchSince := if m.mismatch then m.mismatchSince else d.nowMs,
           inWindow := bad && (if m.mismatch then m.inWindow else d.windowOpen) }

/-- The mismatch map after this die's own tuple has changed (R337). A quarantine ends only when a matching tuple is accepted (R340). -/
def Die.rematch (d : Die) : Die :=
  let d1 := { d with ens := { d.ens with members := d.ens.members.map fun x : Nat × Member => (x.1, d.judged x.2) } }.countMembers
  if d.ens.members.any (fun x : Nat × Member => !x.2.mismatch && (d.judged x.2).mismatch) then d1.event .ENS_EVENT_MISMATCH else d1

end Sys2Proof.Machine
end

