-- ==== Sys2Proof/Machine/Lookup.lean ====
section
/-! DEFINITION. Lookups (R120, R121, R130, R137), what table-access requests do with the session they find (R134, R135,
R138), and forwarding to the die that serves a session (R23, R79, R81, R324, R325). -/
namespace Sys2Proof.Machine

/-! ## Table access on a found session -/

/-- The 64-byte view of R135. -/
def Die.sessionView (d : Die) (s : Session) : Bytes :=
  let dtls := s.proto == 3
  leBytes 1 s.proto ++ leBytes 1 s.suite ++ leBytes 1 s.sflags ++ leBytes 1 s.slots.length ++ leBytes 2 s.lastSeen ++
    leBytes 2 (d.age s) ++ leBytes 2 (if dtls then s.rdEpoch else 0) ++ leBytes 2 (if dtls then s.wrEpoch else 0) ++
    leBytes 2 (if s.proto == 2 then 0 else s.window) ++ leBytes 1 (ofBool s.crumb) ++ leBytes 1 s.idLen ++
    leBytes 8 (if s.proto == 1 then 0 else s.seq) ++ leBytes 8 (if s.proto == 2 then 0 else s.h) ++
    leBytes 8 (if dtls then s.fails else 0) ++ slice s.ident 0 20 ++ zeros 4

/-- What a table-access request does with its session (R134, R135, R138). Its reply names the session (R91). -/
def Die.tableFound (e : Env) (d : Die) (r : Req) (s : Session) : Die :=
  let rep (d : Die) (n : Nat) : Reply := d.recordReply r s (Reply.done n)
  match r.opcode with
  | 0x82 => d.complete e r (rep d 0)
  | 0x83 => (d.output e r r.outAddr (d.sessionView s)).complete e r (rep d 64)
  | 0x84 =>
    let flags := if bit (r.byte 56) 0 then s.sflags ||| 4 else if bit (r.byte 57) 0 then putBits s.sflags 2 2 0 else s.sflags
    let seen := if bit (r.byte 58) 0 then d.get .KFT_MINUTE_MINUTE else s.lastSeen
    if flags == s.sflags && seen == s.lastSeen then d.complete e r (rep d 0)
    else
      let d1 := d.updSession s.uid fun x => { x with sflags := flags, lastSeen := seen }
      (match d1.session? s.uid with | some x => d1.writeSession e x r.rid | none => d1).completeWritten e r (rep d1 0)
  | _ => (d.updSession s.uid fun x => { x with deleting := some r.rid }).setStage r.rid .running

/-- Goes on with a found session. -/
def Die.found (e : Env) (d : Die) (r : Req) (s : Session) : Die :=
  if isRecordOp r.opcode then d.recordFound e r s else d.tableFound e r s

/-! ## The lookup -/

/-- Takes a request's lookup away. -/
def Die.dropLookup (d : Die) (rid : Nat) : Die := { d with kft := { d.kft with lookups := d.kft.lookups.filter fun l => l.rid != rid } }
def Die.putLookup (d : Die) (l : Lookup) : Die :=
  { d.dropLookup l.rid with kft := { (d.dropLookup l.rid).kft with lookups := (d.dropLookup l.rid).kft.lookups ++ [l] } }

/-- A record lookup refreshes LAST_SEEN when it differs, and the change is written through (R130; log 14). As long as the record's
status is open, so is the refresh: the record keeps the stamp it replaced, and so does one that finds it so refreshed (R71). -/
def Die.refreshStamp (e : Env) (d : Die) (r : Req) (s : Session) : Die :=
  if !isRecordOp r.opcode then d
  else if s.lastSeen == d.get .KFT_MINUTE_MINUTE then
    match d.que.reqs.find? fun x => (x.stamp.map Prod.fst) == some s.uid with
    | some x => d.updReq r.rid fun y => { y with stamp := x.stamp }
    | none => d
  else
    let d1 := (d.updReq r.rid fun y => { y with stamp := some (s.uid, s.lastSeen) }).updSession s.uid fun x =>
      { x with lastSeen := d.get .KFT_MINUTE_MINUTE }
    match d1.session? s.uid with
    | some x => d1.writeSession e x 0
    | none => d1

/-- A session is found: the stamp is refreshed and the request goes on. In a poisoned range, or one that the refresh finds so, it
completes STORE_INTEGRITY (R157, R158). -/
def Die.hit (e : Env) (d : Die) (r : Req) (s : Session) : Die :=
  let d0 := d.dropLookup r.rid
  if d0.bucketPoisoned (d0.bucketOf s) then d0.fail e r .storeIntegrity 0
  else
    let d1 := d0.refreshStamp e r s
    if d1.bucketPoisoned (d1.bucketOf s) then d1.fail e r .storeIntegrity 0 else d1.found e r ((d1.session? s.uid).getD s)

/-- A match of a bucket read is filled under the home bucket's interlock, if it still stands (R120); table-access
requests fill nothing (R122). The fill waits, as steps 5 to 8, for the interlock or for a way. -/
def Die.fillIn (e : Env) (d : Die) (r : Req) (l : Lookup) (s : Session) : Die :=
  let wait := d.putLookup { l with step := if l.step ≤ 4 then l.step + 4 else l.step, snap := [s.uid] }
  if d.held l.bucket then wait.waitInterlock l.bucket r.rid
  else if !isRecordOp r.opcode || !s.ways.isEmpty then d.hit e r s
  else match d.fillSession e s with
    | some d1 => d1.hit e r s
    | none => wait

/-- Bucket reads in flight, of the 2,048 of R29. -/
def Die.readsOut (d : Die) : Nat := (d.kft.lookups.filter fun l => decide (1 ≤ l.step ∧ l.step ≤ 4)).length

/-- Issues a bucket read of a lookup: what the bucket holds now, and its MOVE_GEN, are what the read will return. -/
def Die.issueRead (d : Die) (l : Lookup) (k : Nat) : Die :=
  let d1 := d.putLookup { l with snap := (d.sessionsIn k).map Session.uid, gen := (d.bucketMeta l.bucket).moveGen }
  if keyKind k = 1 then d1.count 5 5 (((d.req? l.rid).map Req.tenant).getD 0) 1 else d1

/-- The Crumb bucket of a lookup. -/
def Die.lookupCrumb (d : Die) (l : Lookup) : Nat := crumbKey (keyHome l.bucket) (d.crumbOf (keyHome l.bucket) (keyIdx l.bucket))

/-- The bucket that a lookup's read returns, or whose match it fills. -/
def Die.lookupBucket (d : Die) (l : Lookup) : Nat := if l.step % 2 = 1 then l.bucket else d.lookupCrumb l

/-- No die serves a position just now: between a fault and the change of the serve map, and while a handback runs (R328, R329). -/
def Die.unserved (d : Die) (home : Nat) : Bool := d.ens.declared.contains home || d.ens.declared.contains (d.serverOf home)

/-- A request for a position that no die serves is held here, not failed (R328). -/
def Die.hold (d : Die) (r : Req) (home : Nat) : Die :=
  let d1 := d.setStage r.rid .forwarded
  { d1 with ens := { d1.ens with held := d1.ens.held ++ [{ pos := home, rid := r.rid }] } }

/-- A request of a ring pair goes to die `dest`, which serves the position. -/
def Die.sendOn (e : Env) (d : Die) (r : Req) (fn dest : Nat) : Die :=
  let d1 := d.setStage r.rid .forwarded
  let input := (d1.recCfgOf fn).bytes ++ (if isRecordOp r.opcode || r.opcode == 0x82 then d1.recInput e r else [])
  let d2 := { d1 with ens := { d1.ens with awaiting := d1.ens.awaiting ++ [(d1.ens.nextMsg, r.rid, dest)] } }
  let d3 := d2.sendRing .fwdReq (some dest) (leBytes 1 d2.pos ++ leBytes 2 d2.ens.nextMsg ++ leBytes 1 1 ++
    leBytes 2 r.tenant ++ r.desc ++ input)
  if isRecordOp r.opcode then d3.count 3 5 r.tenant 1 else d3

/-- Sends a request on to the die that serves position `home` (R23, R79, R81): at most two forwards. The message keeps the position
and number of the die that received it. A record that carries a key counts the use of it here, where the key is (R75, log 158). -/
def Die.forward (e : Env) (d : Die) (r : Req) (home : Nat) : Die :=
  let dest := d.serverOf home
  match r.origin with
  | .ring src msg hops =>
    if 2 ≤ hops then d.fail e r .busy 0
    else if d.unserved home then d.hold r home
    else (d.sendRing .fwdReq (some dest) (leBytes 1 src ++ leBytes 2 msg ++ leBytes 1 (hops + 1) ++ leBytes 2 r.tenant ++
      r.desc ++ r.input)).dropReq r.rid
  | .pair fn .. =>
    if d.unserved home then d.hold r home
    else match r.contentUse with
    | none => d.sendOn e r fn dest
    | some (h, u) =>
      match d.takeUse e r h u with
      | .counted d1 => d1.sendOn e r fn dest
      | .refused d1 st x => d1.fail e r st x
      | .waits => d.setStage r.rid .fetched

/-- The lookup ends without a session. An identifier lookup that misses while a previous steering position is valid is
forwarded there once (R325). -/
def Die.lookupMiss (e : Env) (d : Die) (r : Req) : Die :=
  let d1 := d.dropLookup r.rid
  match d1.lookKey e r with
  | some (.ident _ id) =>
    let i := steerIndex id
    if d1.hasAt .ENS_STEER_PREV_VALID i && d1.serverOf (d1.getAt .REC_STEER_POSITION i) == d1.pos &&
       d1.serverOf (d1.getAt .ENS_STEER_PREV_POSITION i) != d1.pos
    then d1.forward e r (d1.getAt .ENS_STEER_PREV_POSITION i)
    else d1.fail e r .noSession 1
  | _ => d1.fail e r .noSession 1

/-- The next read of the pseudocode of R120 after `l.step` reads that found nothing, and its bucket. -/
def Die.nextRead (d : Die) (l : Lookup) : Option (Lookup × Nat) :=
  match l.step with
  | 0 => some ({ l with step := 1 }, l.bucket)
  | 1 => some ({ l with step := 2, g := l.gen }, d.lookupCrumb l)
  | 2 => some ({ l with step := 3 }, l.bucket)
  | 3 => if l.gen == l.g then none else some ({ l with step := 4 }, d.lookupCrumb l)
  | _ => none

/-- Goes on with a lookup (R120): a bucket known never to have been written is empty without a read (R144), one in a poisoned range ends
the lookup (R158), and with 2,048 reads in flight the lookup waits (R29). `n` bounds the steps. -/
def Die.lookOn (e : Env) : Nat → Die → Req → Lookup → Die
  | 0, d, r, _ => d.lookupMiss e r
  | n + 1, d, r, l =>
    match d.nextRead l with
    | none => d.lookupMiss e r
    | some (l1, k) =>
      if d.bucketPoisoned k then (d.dropLookup r.rid).fail e r .storeIntegrity 0
      else if d.knownEmpty k && (d.sessionsIn k).isEmpty then
        Die.lookOn e n d r { l1 with snap := [], gen := (d.bucketMeta l.bucket).moveGen }
      else if 2048 ≤ (d.dropLookup r.rid).readsOut then d.putLookup { l with step := 9 + l.step }
      else d.issueRead l1 k

/-- Lookups that wait for a place among the bucket reads go on, as far as places are free (R29). -/
def Die.pumpReads (e : Env) (d : Die) : Die :=
  d.kft.lookups.foldl (fun d l =>
    if l.step < 9 || decide (2048 ≤ d.readsOut) then d
    else match d.req? l.rid with
      | some r => Die.lookOn e 4 d r { l with step := l.step - 9 }
      | none => d.dropLookup l.rid) d

/-- A handle names a bucket that does not exist, or another tenant's session (R114). -/
def Die.badHandle (d : Die) (r : Req) : LookKey → Bool
  | .handle h => handleTenant h != r.tenant || decide (d.mainBuckets ≤ handleBucket h)
  | .ident .. => false

/-- A bucket's lock stops this request: records always, table access only where another tenant holds it (R134, R137). -/
def Die.lockStops (d : Die) (r : Req) (k : Nat) : Bool :=
  match d.lockOf k with
  | some l => isRecordOp r.opcode || l.tenant != r.tenant
  | none => false

/-- A request waits behind the lock of a bucket; BUCKET_WAIT_TIMEOUT ends the wait in BUSY (R137) (log 54). -/
def Die.waitLock (d : Die) (r : Req) (k : Nat) : Die :=
  let w := d.setStage r.rid .waiting
  { w with kft := { w.kft with lockWait := w.kft.lockWait ++ [(r.rid, k)] } }.count 5 0x10 r.tenant 1

/-- Starts or restarts a lookup on the die that serves position `home` (R120). -/
def Die.startLookup (e : Env) (d : Die) (r : Req) (key : LookKey) (home : Nat) : Die :=
  let m := mainKey home (d.keyBucket r.tenant home key)
  let w := d.setStage r.rid .waiting
  if d.badHandle r key || !d.servesSlice home || d.mainBuckets == 0 then d.fail e r .noSession 1
  else if d.lockStops r m then d.waitLock r m
  else if d.bucketPoisoned m then d.fail e r .storeIntegrity 0
  else if d.held m then w.waitInterlock m r.rid
  else
    let w := w.count 5 1 r.tenant 1
    match d.kft.sessions.find? fun s => s.home == home && s.matches r.tenant key && !s.ways.isEmpty && s.deleting.isNone with
    | some s => ((w.updSession s.uid fun x => { x with rrpv := 0 }).count 5 2 r.tenant 1).hit e r s
    | none => Die.lookOn e 4 w r { rid := r.rid, bucket := m, step := 0, snap := [], gen := 0, g := 0 }

/-- Starts the lookup of a request here, or forwards the request to the die that serves what it names. A request that was
forwarded because of R325 looks at the previous position. -/
def Die.steerRequest (e : Env) (d : Die) (r : Req) (key : LookKey) : Die :=
  let home := d.keyPosition key
  let prev := match key with
    | .ident _ id => if d.hasAt .ENS_STEER_PREV_VALID (steerIndex id) then some (d.getAt .ENS_STEER_PREV_POSITION (steerIndex id)) else none
    | .handle _ => none
  if d.unserved home then d.hold r home
  else if d.serverOf home == d.pos then d.startLookup e r key home
  else match prev, r.origin with
    | some a, .ring src .. =>
      if d.serverOf a == d.pos && src == d.serverOf home then d.startLookup e r key a else d.forward e r home
    | _, _ => d.forward e r home

/-- Requests that end before any work in an ensemble that lacks its store key, or a slice, still answer: a record whose
key cannot be named completes NO_SESSION (R79). -/
def Die.lookupRequest (e : Env) (d : Die) (r : Req) : Die :=
  if d.key.esk.isNone then d.fail e r .keyExpired 0
  else match d.lookKey e r with
  | none => d.fail e r .noSession 1
  | some key => d.steerRequest e r key

/-! ## Bucket locks (R136) -/

/-- A reply of TBL_LOCK or TBL_UNLOCK: DETAIL byte 12 is the number of locks the tenant holds on this die (R134). -/
def Die.lockReply (e : Env) (d : Die) (r : Req) : Die := d.complete e r { Reply.done 0 with detail := d.locksHeld r.tenant % 256 }

/-- KFT_LOCK_CTL.PER_TENANT, brought to its range. -/
def Die.locksAllowed (d : Die) : Nat := clamp 1 8 (d.get .KFT_LOCK_CTL_PER_TENANT)

/-- TBL_LOCK on the die that serves its bucket. -/
def Die.lockHere (e : Env) (d : Die) (r : Req) (k : Nat) : Die :=
  match d.lockOf k with
  | some l =>
    if l.tenant == r.tenant then d.lockReply e r else d.waitLock r k
  | none =>
    if d.locksAllowed ≤ d.locksHeld r.tenant then d.fail e r .limitReached 5
    else if 1024 ≤ d.kft.locks.length then d.fail e r .busy 0
    else { d with kft := { d.kft with locks := d.kft.locks ++ [({ bucket := k, tenant := r.tenant } : Lock)] } }.lockReply e r

/-- TBL_UNLOCK on the die that serves its bucket; `proceed` lets the waiting lookups go on. -/
def Die.unlockHere (e : Env) (d : Die) (r : Req) (k : Nat) (proceed : Die → Die) : Die :=
  if (d.lockOf k).any fun l => l.tenant == r.tenant then proceed ((d.dropLock k).lockReply e r) else d.lockReply e r

/-- A table-access request that has passed its checks, here or forwarded (R134). The bucket of a lock is that of its handle;
no session is looked up (DEDUCED, log 15). -/
def Die.tableRequest (e : Env) (d : Die) (r : Req) (proceed : Nat → Die → Die) : Die :=
  if r.opcode == 0x80 || r.opcode == 0x81 then
    let home := handleHome r.handle
    let k := mainKey home (handleBucket r.handle)
    if d.unserved home || d.serverOf home != d.pos then d.forward e r home
    else if d.badHandle r (.handle r.handle) || !d.servesSlice home then d.fail e r .noSession 1
    else if r.opcode == 0x80 then d.lockHere e r k else d.unlockHere e r k (proceed k)
  else d.lookupRequest e r

/-- Goes on with a waiting request whose interlock or lock is free again: a lookup starts again or fills, and any other
request may be handled again. -/
def Die.resume (e : Env) (d : Die) (rid : Nat) : Die :=
  match d.req? rid with
  | none => d
  | some r =>
    if r.stage != .waiting then d
    else match d.kft.lookups.find? fun l => l.rid == rid && decide (5 ≤ l.step ∧ l.step ≤ 8) with
      | some l =>
        match (d.session? (l.snap.headD 0)).filter fun s => s.deleting.isNone && d.bucketOf s == d.lookupBucket l with
        | some s => d.fillIn e r l s
        | none => Die.lookOn e 4 d r { l with step := l.step - 4 }
      | none =>
        if isRecordOp r.opcode then d.lookupRequest e r
        else if r.opcode / 16 == 8 then d.tableRequest e r fun _ d => d else d.setStage rid .fetched

/-- Fills that waited for a way try again, once a record has left the cache set (R122). -/
def Die.retryFills (e : Env) (d : Die) : Die :=
  d.kft.lookups.foldl (fun d l =>
    if decide (5 ≤ l.step ∧ l.step ≤ 8) && !(d.kft.ilWait.any fun w => w.2 == l.rid) then d.resume e l.rid else d) d

/-- A lock is released: the lookups that waited for it proceed (R136, R137), and so do relocations (R128). -/
def Die.unlock (e : Env) (d : Die) (k : Nat) : Die :=
  let ws := d.kft.lockWait.filter fun w => w.2 == k
  let d1 := { d with kft := { d.kft with locks := d.kft.locks.filter fun l => l.bucket != k,
                                         lockWait := d.kft.lockWait.filter fun w => w.2 != k } }
  ((ws.foldl (fun d w => d.resume e w.1) d1).stepMoves e).releaseWritten e

/-- Releases every lock of a tenant (R136). -/
def Die.releaseLocks (e : Env) (d : Die) (tenant : Nat) : Die :=
  (d.kft.locks.filter fun l => l.tenant == tenant).foldl (fun d l => d.unlock e l.bucket) d

/-! ## Records of one session (R58) -/

/-- The session key that a record request names, where its record may be read at all. -/
def Die.names (e : Env) (d : Die) (r : Req) : Option LookKey :=
  if !isRecordOp r.opcode || decide (16640 < r.inLen) || (r.handle == 0 && !d.dmaOk r.tenant r.inAddr r.inLen false) then none
  else d.lookKey e r

/-- The earlier record requests of a request's pair that name the same session: by the same key, or by two keys of one session that this
die holds (log 159). -/
def Die.sameSession (e : Env) (d : Die) (r : Req) : List Req :=
  match d.names e r with
  | none => []
  | some k => (d.earlier r).filter fun x =>
      match d.names e x with
      | some kx => kx == k || d.kft.sessions.any fun s => s.matches r.tenant k && (s.uid == x.sess || s.matches x.tenant kx)
      | none => false

/-- A record request notes those whose replies go before its own. -/
def Die.orderRecord (e : Env) (d : Die) (rid op : Nat) : Die :=
  match d.req? rid with
  | some r => if r.opcode != op || r.stage != .fetched then d else d.updReq rid fun x => { x with behind := (d.sameSession e r).map Req.rid }
  | none => d

/-- A record request is behind an earlier one of its session that is not past step 6 (R58). -/
def Die.behindSession (d : Die) (r : Req) : Bool :=
  (d.earlier r).any fun x => r.behind.contains x.rid && (x.stage == .fetched || x.stage == .waiting)

end Sys2Proof.Machine
end

