-- ==== Sys2Proof/Machine/HsOps.lean ====
section
/-! DEFINITION. Handshakes as an operation library (R204 to R218): context blobs, key exchange groups, the DTLS 1.3 and
IKEv2 key schedules, tickets and signatures. The published schedules (RFC 8446, 9147, 7296, 9370, 9242) stand over the
opaque HMAC and hashes. -/
namespace Sys2Proof.Machine

/-! ## Contexts and blobs (R204, R208) -/

def HsCtx.fresh (ctxId tenant protocol suite prf : Nat) (transcript : Bytes) : HsCtx :=
  { ctxId, tenant, step := 0, protocol, suite, prf, busy := 0, retained := false, peerAuth := false, resumed := false,
    helloDone := false, signed := false, finished := false, verified := false, addke := 0, secrets := [], transcript,
    shared := [], psk := [], hsClient := [], hsServer := [], master := [], appClient := [], appServer := [], spis := [],
    nonceI := [], nonceR := [], skD := [], skEi := [], skEr := [], skPi := [], skPr := [], intI := [], intR := [],
    msgId := 0, prSeq := 0, rdH := 0, rdBitmap := 0, handle := 0, half := 0, lastMs := 0, nextKe := [] }

/-- The handshake context key of this warm reset. -/
def Die.ctxKey (d : Die) : Bytes := randomBytes (d.ntt.ctxKeyGen - 1) 32

/-- The tag of a blob (log 18). -/
def Die.blobTag (d : Die) (b : Bytes) : Bytes :=
  aeadTag 1 16 d.ctxKey (leBytes 4 (leAt b 0 4) ++ leBytes 8 (leAt b 4 4)) (b.take 1008) []

/-- The 1,024 bytes of a context's blob (R204). -/
def Die.blobBytes (d : Die) (c : HsCtx) : Bytes :=
  let b := leBytes 4 c.ctxId ++ leBytes 4 c.step ++ leBytes 1 c.protocol ++ zeros 7 ++
    (List.range 992).map (Config.ctxBodyByte c.ctxId c.step d.ntt.ctxKeyGen)
  b ++ d.blobTag b

def Die.ctx? (d : Die) (id : Nat) : Option HsCtx := d.ntt.ctxs.find? fun c => c.ctxId == id

/-- Puts a context in its entry. -/
def Die.putCtx (d : Die) (c : HsCtx) : Die :=
  { d with ntt := { d.ntt with ctxs := d.ntt.ctxs.filter (fun x => x.ctxId != c.ctxId) ++ [c] } }

/-- Zeroizes every context of a tenant (R282, R412). -/
def Die.dropTenantCtxs (d : Die) (tenant : Nat) : Die :=
  { d with ntt := { d.ntt with ctxs := d.ntt.ctxs.filter fun c => c.tenant != tenant } }

/-- Entries of the context table. -/
def ctxEntries : Nat := 131072

/-- The entry that the next context takes: the first free one from the last on (log 18). -/
def Die.freeCtx (d : Die) : Option Nat :=
  if ctxEntries ≤ d.ntt.ctxs.length then none
  else ((List.range (d.ntt.ctxs.length + 1)).map fun k => (d.ntt.nextCtx + k) % ctxEntries).find? fun id => (d.ctx? id).isNone

/-- A step of the context runs: one that has taken it up and is in flight (R208). -/
def Die.ctxBusy (d : Die) (c : HsCtx) : Bool := c.busy != 0 && d.que.reqs.any fun r => r.rid == c.busy && !r.done

/-- Step `rid` takes a context up: it is busy as long as the step is in flight, and its timeout runs from now (R204, R208, R209). -/
def Die.takeUp (d : Die) (c : HsCtx) (rid : Nat) : HsCtx := { c with busy := rid, lastMs := d.nowMs }

/-! ## Steps -/

/-- The step input block (R205). -/
structure StepIn where
  t : Bytes
  data : Bytes
  deriving DecidableEq, Repr

def Req.ctxAddr (r : Req) : Nat := leAt r.desc 48 8
def Req.protocol (r : Req) : Nat := r.byte 56
def Req.suite (r : Req) : Nat := r.byte 57
def Req.group (r : Req) : Nat := r.byte 58
def Req.prf (r : Req) : Nat := r.byte 59
def Req.sigalg (r : Req) : Nat := r.byte 60
def Req.stepKey (r : Req) : Nat := leAt r.desc 62 2
def Req.wantRetain (r : Req) : Bool := bit (r.byte 61) 0
def Req.wantTicket (r : Req) : Bool := bit (r.byte 61) 1
def Req.pskDhe (r : Req) : Bool := bit (r.byte 61) 2
def Req.wantPeerAuth (r : Req) : Bool := bit (r.byte 61) 3

/-- Fields that a step does not use are zero (R205). -/
def stepHeaderOk (r : Req) : Bool :=
  let op := r.opcode
  let opens := op == 0x50 || op == 0x58
  let signs := op == 0x54 || op == 0x55
  (opens || (r.protocol == 0 && r.suite == 0)) && (op == 0x50 || op == 0x51 || (op == 0x58 && r.pskDhe) || r.group == 0) &&
    ((op == 0x50 && r.protocol == 2) || r.prf == 0) && (signs || (r.sigalg == 0 && r.stepKey == 0)) && bits (r.byte 61) 7 4 == 0

/-- The checks of a step before its context: header, CTX_ADDR, ranges, and the lengths of the input block (log 43). -/
def Die.stepInput (e : Env) (d : Die) (r : Req) (k : StepIn → Die) : Die :=
  if !stepHeaderOk r then d.fail e r .badDescriptor 1
  else if r.ctxAddr % 64 != 0 || decide (r.inLen < 8) then d.fail e r .badDescriptor 2
  else d.rangesOk e r
    (if !d.dmaOk r.tenant r.ctxAddr 1024 false || !d.dmaOk r.tenant r.ctxAddr 1024 true then
       ((d.dmaFault e r.tenant r.ctxAddr 1024 false).dmaFault e r.tenant r.ctxAddr 1024 true).fail e r .accessFault 0
     else
       let tn := leNat (dmaRead e d r.inAddr 4)
       let dn := leNat (dmaRead e d (r.inAddr + 4) 4)
       if r.inLen != 8 + tn + dn then d.fail e r .badDescriptor 2
       else k { t := dmaRead e d (r.inAddr + 8) tn, data := dmaRead e d (r.inAddr + 8 + tn) dn })

/-- A step on an open context: its blob, the entry, and the running of steps one at a time (R204, R208). `anyStep` is
HS_FREE's leave to come with any STEP. The step takes the context up. -/
def Die.withCtx (e : Env) (d : Die) (r : Req) (anyStep : Bool) (k : Die → HsCtx → Die) : Die :=
  let b := dmaRead e d r.ctxAddr 1024
  if d.ntt.ctxKeyGen == 0 || b.drop 1008 != d.blobTag b then d.fail e r .badDescriptor 8
  else match d.ctx? (leAt b 0 4) with
    | none => d.fail e r .noSession 6
    | some c =>
      if c.tenant != r.tenant then d.fail e r .badDescriptor 8
      else if c.busy != r.rid && d.ctxBusy c then d.fail e r .busy 0
      else if !anyStep && leAt b 4 4 != c.step then d.fail e r .badDescriptor 8
      else k (d.putCtx (d.takeUp c r.rid)) (d.takeUp c r.rid)

/-- DETAIL of an OK step: CTX_ID, and the attempts of its signature. -/
def stepDetail (id attempts : Nat) : Nat := id + 2 ^ 24 * min attempts 255

/-- A step is done: the blob goes out again with STEP raised, then the output; the reply waits for slot writes of it. -/
def Die.stepOk (e : Env) (d : Die) (r : Req) (c : HsCtx) (out : Bytes) (attempts : Nat) : Die :=
  let c1 := { c with step := c.step + 1 }
  let d1 := d.putCtx c1
  ((d1.output e r r.ctxAddr (d1.blobBytes c1)).output e r r.outAddr out).completeWritten e r
    { Reply.done out.length with detail := stepDetail c.ctxId attempts }

/-- Goes on once the work of a step is done (R206): `jobs`, after one message of T + D bytes under the step's hash `alg` (log 171);
`draw` random bytes are drawn for them (R179), and the key `use` names counts a use. -/
def Die.stepWork (e : Env) (d : Die) (r : Req) (alg : Nat) (jobs : Nat → List Work) (draw : Nat) (use : Option (Nat × Nat))
    (k : Die → Nat → Die) : Die :=
  d.withWork e r (fun a => (if r.inLen = 8 then [] else [.hash alg (r.inLen - 8)]) ++ jobs a) draw use (fun d st x => d.fail e r st x) k

/-- OUT_LEN holds the output of the step (R207). -/
def Die.stepRoom (e : Env) (d : Die) (r : Req) (n : Nat) (k : Die) : Die :=
  if r.outLen < n then d.complete e r (tooSmall n) else k

/-! ## Key exchange groups (R210) -/

/-- Components in order: 1 P-256, 2 P-384, 3 X25519, 0x12 and 0x13 ML-KEM-768 and ML-KEM-1024. -/
def groupParts (g : Nat) : List Nat :=
  match g with
  | 0x01 => [1] | 0x02 => [2] | 0x03 => [3] | 0x11 => [1, 0x12] | 0x12 => [0x12, 3] | 0x13 => [2, 0x13] | 0x20 => [0x12]
  | 0x21 => [0x13] | _ => []

/-- Lengths of the peer share and the server share of a component, and the random bytes it takes. -/
def partLens (p : Nat) : Nat × Nat × Nat :=
  match p with
  | 1 => (65, 65, 56) | 2 => (97, 97, 72) | 3 => (32, 32, 40) | 0x12 => (1184, 1088, 32) | _ => (1568, 1568, 32)

def peerLen (g : Nat) : Nat := ((groupParts g).map fun p => (partLens p).1).sum
def shareLen (g : Nat) : Nat := ((groupParts g).map fun p => (partLens p).2.1).sum
def groupDraw (g : Nat) : Nat := ((groupParts g).map fun p => (partLens p).2.2).sum

/-- The jobs of a component (R176, R199): the server's own share and the shared secret, or an encapsulation. -/
def partWork (draw p : Nat) : List Work :=
  match p with
  | 1 | 2 => [.con (curveRow p 0).1 draw, .con (curveRow p 0).2.1 draw]
  | 3 => [.con 15000 draw, .con 30000 draw]
  | _ => [.ntt (pqCycles (p - 0x10)).2.1 false draw]

def groupWork (g : Nat) : List Work := (groupParts g).flatMap (partWork (groupDraw g))

/-- An uncompressed point. -/
def pointBytes (c : CurveP) (x y : Nat) : Bytes := leBytes 1 4 ++ beBytes c.lp x ++ beBytes c.lp y

/-- The server's share and the shared secret of a component for a peer share, or how it fails (R210, R174, R200). -/
def sharePart (p : Nat) (peer : Bytes) (a : Nat) : Except Status (Bytes × Bytes) :=
  match p with
  | 1 | 2 =>
    let c := builtinCurve p
    let px := beAt peer 1 c.lp
    let py := beAt peer (1 + c.lp) c.lp
    let x := 1 + beNat (randomBytes a (c.ln + 8)) % (c.n - 1)
    if leAt peer 0 1 != 4 then .error .invalidPoint
    else match c.checkPoint px py true with
      | some st => .error st
      | none =>
        match c.mul x c.base, c.mul x (some (px, py)) with
        | some q, some z => .ok (pointBytes c q.1 q.2, beBytes c.lp z.1)
        | _, _ => .error .invalidPoint
  | 3 =>
    let k := randomBytes a 32
    let z := x25519 k peer
    if leNat z == 0 then .error .invalidPoint else .ok (x25519 k (leBytes 32 9), z)
  | _ =>
    let q := if p = 0x12 then 2 else 3
    let m := randomBytes a 32
    if !Config.mlkemEkOk q peer then .error .operandRange else .ok (mlkemCt q peer m, mlkemSs q peer m)

/-- All components of a group, in order. -/
def shareParts : List Nat → Bytes → Nat → Except Status (Bytes × Bytes)
  | [], _, _ => .ok ([], [])
  | p :: ps, peer, a =>
    match sharePart p (peer.take (partLens p).1) a, shareParts ps (peer.drop (partLens p).1) (a + (partLens p).2.2) with
    | .ok x, .ok y => .ok (x.1 ++ y.1, x.2 ++ y.2)
    | .error st, _ => .error st
    | _, .error st => .error st

/-! ## The DTLS 1.3 key schedule (R211, R212, R214 to R216) -/

/-- The hash of a DTLS suite. -/
def suiteHash (suite : Nat) : Nat := if suite = 0x12 then 2 else 1

/-- HKDF-Expand of RFC 5869. -/
def hkdfBlocks (alg : Nat) (prk info : Bytes) : Nat → Bytes → Nat → Bytes
  | 0, _, _ => []
  | n + 1, last, i => let t := hmac alg prk (last ++ info ++ leBytes 1 i); t ++ hkdfBlocks alg prk info n t (i + 1)

/-- HKDF-Expand-Label with the labels of RFC 9147. -/
def expandLabel (alg : Nat) (secret : Bytes) (label : String) (ctx : Bytes) (n : Nat) : Bytes :=
  let l := ascii "dtls13" ++ ascii label
  let info := beBytes 2 n ++ leBytes 1 l.length ++ l ++ leBytes 1 ctx.length ++ ctx
  (hkdfBlocks alg secret info (ceilDiv n (hashLen alg)) [] 1).take n

def deriveSecret (alg : Nat) (secret : Bytes) (label : String) (msgs : Bytes) : Bytes :=
  expandLabel alg secret label (hashBytes alg (hashLen alg) msgs) (hashLen alg)

def earlySecret (alg : Nat) (psk : Bytes) : Bytes := hmac alg (zeros (hashLen alg)) (if psk.isEmpty then zeros (hashLen alg) else psk)

/-- The ServerHello is appended: handshake secrets, and the master secret they lead to. -/
def HsCtx.hello (c : HsCtx) (sh : Bytes) : HsCtx :=
  let alg := suiteHash c.suite
  let tr := c.transcript ++ sh
  let hs := hmac alg (deriveSecret alg (earlySecret alg c.psk) "derived" []) (if c.shared.isEmpty then zeros (hashLen alg) else c.shared)
  { c with transcript := tr, helloDone := true, hsClient := deriveSecret alg hs "c hs traffic" tr,
           hsServer := deriveSecret alg hs "s hs traffic" tr,
           master := hmac alg (deriveSecret alg hs "derived" []) (zeros (hashLen alg)) }

/-- verify_data of a Finished under a traffic secret, over the transcript so far. -/
def HsCtx.verifyData (c : HsCtx) (secret : Bytes) : Bytes :=
  let alg := suiteHash c.suite
  hmac alg (expandLabel alg secret "finished" [] (hashLen alg)) (hashBytes alg (hashLen alg) c.transcript)

/-- A Finished message. -/
def finishedMsg (vd : Bytes) : Bytes := leBytes 1 0x14 ++ beBytes 3 vd.length ++ vd

/-- Key, IV and record-number key of a traffic secret. -/
def trafficKeys (suite : Nat) (secret : Bytes) : Bytes × Bytes × Bytes :=
  let alg := suiteHash suite
  let k := suiteKeyLen suite
  (expandLabel alg secret "key" [] k, expandLabel alg secret "iv" [] 12, expandLabel alg secret "sn" [] k)

/-- Length of the handshake message at the start of `t`, header included; none where it does not fit. -/
def msgLen (t : Bytes) : Option Nat := if t.length < 4 ∨ t.length < 4 + beAt t 1 3 then none else some (4 + beAt t 1 3)

/-- Appends messages: the first one after the ClientHello is the ServerHello, message type 2, and has to be whole (R211; DEDUCED, log 19).
None where there is none. -/
def HsCtx.append (c : HsCtx) (t : Bytes) : Option HsCtx :=
  if c.helloDone then some { c with transcript := c.transcript ++ t }
  else match if leAt t 0 1 == 2 then msgLen t else none with
    | some n => let c1 := c.hello (t.take n); some { c1 with transcript := c1.transcript ++ t.drop n }
    | none => none

/-! ## Epoch-2 records (R211) -/

/-- A DTLS epoch-2 record built over plaintext and content type, as DTLS_OUT builds records (log 55). -/
def HsCtx.protectDtls (c : HsCtx) (cfg : RecCfg) (inner : Bytes) : Bytes :=
  let keys := trafficKeys c.suite c.hsServer
  let tag := suiteTag c.suite
  let inner := inner ++ zeros (16 - tag - inner.length)
  let n := if cfg.seq8 then 1 else 2
  let b0 := 0x20 + ofBool (!cfg.seq8) * 8 + ofBool (!cfg.noLen) * 4 + 2
  let hdr := leBytes 1 b0 ++ beBytes n c.prSeq ++ (if cfg.noLen then [] else beBytes 2 (inner.length + tag))
  let ct := aeadText (suiteAlg c.suite) keys.1 (dtlsNonce keys.2.1 c.prSeq) inner
  let sealed := ct ++ aeadTag (suiteAlg c.suite) tag keys.1 (dtlsNonce keys.2.1 c.prSeq) hdr ct
  patch hdr 1 (xorBytes (slice hdr 1 n) (snMask c.suite keys.2.2 (slice sealed 0 16) n)) ++ sealed

/-- Number `n` is inside the 64-record window and not seen. -/
def HsCtx.recFresh (c : HsCtx) (n : Nat) : Bool := !(decide (n + 64 ≤ c.rdH) || (decide (n ≤ c.rdH) && bit c.rdBitmap (c.rdH - n)))

/-- The window after record `n`. -/
def HsCtx.recAccept (c : HsCtx) (n : Nat) : HsCtx :=
  if c.rdH < n then { c with rdH := n, rdBitmap := (c.rdBitmap * 2 ^ (n - c.rdH) + 1) % 2 ^ 64 }
  else { c with rdBitmap := c.rdBitmap ||| 2 ^ (c.rdH - n) }

/-- Opens one epoch-2 record: the context and the plaintext with its content type, or how it fails. -/
def HsCtx.openDtls (c : HsCtx) (cidLen : Nat) (rec_ : Bytes) : Except (Status × Nat) (HsCtx × Bytes) :=
  match parseDtls rec_ cidLen with
  | none => .error (.badDescriptor, 3)
  | some h =>
    let body := rec_.drop h.len
    let tag := suiteTag c.suite
    let keys := trafficKeys c.suite c.hsClient
    if h.ee != 2 then .error (.noSession, 2)
    else if body.length < 16 then .error (.authFail, 2)
    else
      let at_ := h.len - h.seqLen - (if h.hasLen then 2 else 0)
      let sq := xorBytes (slice rec_ at_ h.seqLen) (snMask c.suite keys.2.2 (slice body 0 16) h.seqLen)
      let q := dtlsReconstruct c.rdH (8 * h.seqLen) (beNat sq)
      let ct := body.take (body.length - tag)
      if !c.recFresh q then .error (.replay, 0)
      else if body.drop ct.length != aeadTag (suiteAlg c.suite) tag keys.1 (dtlsNonce keys.2.1 q) (patch (slice rec_ 0 h.len) at_ sq) ct then
        .error (.authFail, 1)
      else
        let inner := stripZeros (aeadText (suiteAlg c.suite) keys.1 (dtlsNonce keys.2.1 q) ct)
        if inner.isEmpty then .error (.authFail, 3) else .ok (c.recAccept q, inner)

/-! ## IKEv2 (R217, R218) -/

/-- prf+ of RFC 7296 section 2.13. -/
def prfPlus (alg : Nat) (key seed : Bytes) (n : Nat) : Bytes := (hkdfBlocks alg key seed (ceilDiv n (hashLen alg)) [] 1).take n

/-- The SK_ keys of a SKEYSEED. -/
def HsCtx.ikeKeys (c : HsCtx) (skeyseed : Bytes) : HsCtx :=
  let h := hashLen c.prf
  let k := suiteKeyLen c.suite + 4
  let m := prfPlus c.prf skeyseed (c.nonceI ++ c.nonceR ++ c.spis) (3 * h + 2 * k)
  { c with skD := slice m 0 h, skEi := slice m h k, skEr := slice m (h + k) k, skPi := slice m (h + 2 * k) h,
           skPr := slice m (2 * h + 2 * k) h }

/-- The keys after the first exchange, and after an additional one (RFC 9370 section 2.2.2). Those of an additional exchange come into
use with the next exchange: after the response that the next HS_PROTECT protects (DEDUCED, log 173). -/
def HsCtx.ikeFirst (c : HsCtx) (secret : Bytes) : HsCtx := c.ikeKeys (hmac c.prf (c.nonceI ++ c.nonceR) secret)
def HsCtx.ikeNext (c : HsCtx) (secret : Bytes) : HsCtx := c.ikeKeys (hmac c.prf c.skD (secret ++ c.nonceI ++ c.nonceR))
def HsCtx.endExchange (c : HsCtx) : HsCtx :=
  { c.nextKe.foldl HsCtx.ikeNext c with nextKe := [], addke := if c.retained then c.addke else 0 }

/-- The message whose header and SK header `aad` holds extends the IntAuth chain of its sender (RFC 9242); exchange type 43
is IKE_INTERMEDIATE. Lengths are as the plaintext has them (log 56). -/
def HsCtx.chain (c : HsCtx) (fromPeer : Bool) (aad plain : Bytes) : HsCtx :=
  let c0 := if fromPeer then { c with msgId := beAt aad 20 4 } else c
  if leAt aad 18 1 != 43 then c0
  else
    let a := patch (patch aad 24 (beBytes 4 (aad.length + plain.length))) (aad.length - 2) (beBytes 2 (4 + plain.length))
    if fromPeer then { c0 with intI := hmac c.prf c.skPi (c.intI ++ a ++ plain) }
    else { c0 with intR := hmac c.prf c.skPr (c.intR ++ a ++ plain) }

/-- IntAuth of the signed octets, empty where there was no IKE_INTERMEDIATE exchange. -/
def HsCtx.intAuth (c : HsCtx) : Bytes := if c.intI.isEmpty && c.intR.isEmpty then [] else c.intI ++ c.intR ++ beBytes 4 c.msgId

/-- The IKE_SA_INIT request and response of the transcript. -/
def HsCtx.initMsgs (c : HsCtx) : Bytes × Bytes := let n := beAt c.transcript 24 4; (c.transcript.take n, c.transcript.drop n)

/-- The octets that the initiator and the responder sign (RFC 7296 section 2.15). -/
def HsCtx.peerOctets (c : HsCtx) (id : Bytes) : Bytes := c.initMsgs.1 ++ c.nonceR ++ hmac c.prf c.skPi id ++ c.intAuth
def HsCtx.ownOctets (c : HsCtx) (id : Bytes) : Bytes := c.initMsgs.2 ++ c.nonceI ++ hmac c.prf c.skPr id ++ c.intAuth

/-- AEAD of an IKE SA cipher. -/
def ikeAlg (suite : Nat) : Nat := if suite = 4 then 3 else 1

/-- Protects inner payloads: IV, ciphertext and ICV (RFC 5282); a Pad Length of 0 follows the payloads. -/
def HsCtx.protectIke (c : HsCtx) (aad plain iv : Bytes) : Bytes :=
  let k := suiteKeyLen c.suite
  let nonce := c.skEr.drop k ++ iv
  let ct := aeadText (ikeAlg c.suite) (c.skEr.take k) nonce (plain ++ [0])
  iv ++ ct ++ aeadTag (ikeAlg c.suite) 16 (c.skEr.take k) nonce aad ct

/-- Opens IV, ciphertext and ICV; the padding goes. -/
def HsCtx.openIke (c : HsCtx) (aad body : Bytes) : Except (Status × Nat) Bytes :=
  let k := suiteKeyLen c.suite
  if body.length < 25 then .error (.authFail, 2)
  else
    let nonce := c.skEi.drop k ++ body.take 8
    let ct := slice body 8 (body.length - 24)
    if body.drop (body.length - 16) != aeadTag (ikeAlg c.suite) 16 (c.skEi.take k) nonce aad ct then .error (.authFail, 1)
    else
      let p := aeadText (ikeAlg c.suite) (c.skEi.take k) nonce ct
      let pad := leAt p (p.length - 1) 1
      if p.length < pad + 1 then .error (.authFail, 3) else .ok (p.take (p.length - 1 - pad))

/-! ## Signatures (R205, R207, R471) -/

/-- ASN.1 DER of a positive INTEGER, and of an ECDSA-Sig-Value. -/
def derInt (b : Bytes) : Bytes :=
  let v := b.dropWhile fun x => x == 0
  let v := if leAt v 0 1 < 128 && !v.isEmpty then v else [0] ++ v
  leBytes 1 2 ++ leBytes 1 v.length ++ v
def derSig (r s : Bytes) : Bytes := let v := derInt r ++ derInt s; leBytes 1 0x30 ++ leBytes 1 v.length ++ v

/-- r and s of an ECDSA-Sig-Value; none where it is no such encoding. -/
def parseDerSig (b : Bytes) : Option (Nat × Nat) :=
  let rl := leAt b 3 1
  let sl := leAt b (5 + rl) 1
  let r := slice b 4 rl
  let s := slice b (6 + rl) sl
  if b == derSig r s then some (beNat r, beNat s) else none

/-- TYPE and PARAM of a signing key, and of a verification key, for a SIGALG (R471). -/
def signFits (alg : Nat) (o : KeyObj) : Bool :=
  match alg with
  | 1 => curveKey 0x10 1 o | 2 => curveKey 0x10 2 o | 3 => typeIs 0x13 o | 4 | 5 => typeIs 0x18 o
  | _ => curveKey 0x21 (alg + 11) o
def verifyFits (alg : Nat) (o : KeyObj) : Bool :=
  match alg with
  | 1 => curveKey 0x11 1 o | 2 => curveKey 0x11 2 o | 3 => typeIs 0x14 o | 4 | 5 => typeIs 0x19 o
  | _ => curveKey 0x22 (alg + 11) o

/-- The hash of a SIGALG (log 63). -/
def sigHash (alg : Nat) : Nat := if alg = 2 ∨ alg = 5 then 2 else 1
def sigDigest (alg : Nat) (msg : Bytes) : Bytes := hashBytes (sigHash alg) (hashLen (sigHash alg)) msg

/-- The largest signature of a SIGALG; `k` is the modulus length of an RSA key. -/
def sigRoom (alg k : Nat) : Nat :=
  match alg with | 1 => 72 | 2 => 104 | 3 => 64 | 4 => k | 5 => k | _ => (pqLens (alg + 11)).2

/-- A signature length that fits its algorithm (R207); `k` is the modulus length of an RSA key, where the key is at hand. -/
def sigLenOk (alg n : Nat) (k : Option Nat) : Bool :=
  match alg with
  | 1 => decide (8 ≤ n ∧ n ≤ 72) | 2 => decide (8 ≤ n ∧ n ≤ 104) | 3 => n == 64
  | 4 | 5 => decide (128 ≤ n ∧ n ≤ 1024) && k.all fun k => n == k
  | 6 | 7 | 8 => n == (pqLens (alg + 11)).2 | _ => false

/-- Random bytes of a signature. -/
def sigDraw (alg : Nat) : Nat := match alg with | 1 => 40 | 2 => 40 | 3 => 8 | 4 => 1088 | 5 => 1088 | _ => 32

/-- The jobs of a signature over `n` bytes with `tries` attempts, under an RSA key of `bits_` bits (R176, R177, R199). -/
def signWork (alg bits_ n tries : Nat) : List Work :=
  match alg with
  | 1 | 2 => [.con (curveRow alg 0).1 (sigDraw alg)]
  | 3 => [.hash 3 (32 + n), .con (eddsaSignCycles n) (sigDraw alg)]
  | 4 | 5 => [.con (rsaPrivCycles bits_) (sigDraw alg)]
  | _ => [.ntt ((pqCycles (alg + 11)).2.1 + tries * (pqCycles (alg + 11)).2.2.1 + absorb n) true (sigDraw alg)]

/-- The jobs of a verification over `n` bytes; `k` is the modulus length of an RSA key. -/
def verifyWork (alg k n : Nat) : List Work :=
  match alg with
  | 1 | 2 => [.con (curveRow alg 0).2.2.1 0]
  | 3 => [.hash 3 (64 + n), .con 52000 0]
  | 4 | 5 => [.con (rsaPubCycles (8 * k)) 0]
  | _ => [.ntt ((pqCycles (alg + 11)).2.2.2 + absorb n) false 0]

/-- Attempts of an ML-DSA signature; others need none. -/
def signTries (alg : Nat) (o : KeyObj) (msg : Bytes) (a : Nat) : Nat :=
  if 6 ≤ alg then mldsaTries (alg + 11) o.key [] msg (randomBytes a 32) else 0

/-- A signature and its attempts under key object `o`; none where the key fails its check. -/
def signWith (alg : Nat) (o : KeyObj) (ext : Option Bytes) (msg : Bytes) (a : Nat) : Option (Bytes × Nat) :=
  match alg with
  | 1 | 2 =>
    let c := builtinCurve alg
    let x := ecdsaSign true c o.key (sigDigest alg msg) (randomBytes a 32)
    if x.st == .ok then some (derSig (x.out.take c.ln) (x.out.drop c.ln), x.b12) else none
  | 3 => some (ed25519Sign o.key msg, 1)
  | 4 | 5 =>
    ext.map fun b =>
      let key := RsaKey.parse (ceilDiv o.len 8) b
      (beBytes (ceilDiv o.len 8) (key.priv (beNat (pssEncode (sigHash alg) o.len (sigDigest alg msg) (randomBytes a (hashLen (sigHash alg)))))), 1)
  | _ =>
    let p := alg + 11
    some (mldsaSig p o.key [] msg (randomBytes a 32), mldsaTries p o.key [] msg (randomBytes a 32))

/-- A signature verifies under a verification key object. -/
def verifyWith (alg : Nat) (o : KeyObj) (ext : Option Bytes) (msg sig : Bytes) : Bool :=
  match alg with
  | 1 | 2 =>
    let c := builtinCurve alg
    match c.decompress (o.key.take (1 + c.lp)), parseDerSig sig with
    | some q, some rs => c.ecdsaOk q (sigDigest alg msg) rs.1 rs.2
    | _, _ => false
  | 3 => Config.ed25519Decodes (sig.take 32) && Config.ed25519ScalarOk (sig.drop 32) && Config.ed25519Verifies o.key msg sig
  | 4 | 5 =>
    match ext with
    | some b => Config.pssVerifies (sigHash alg) (beAt b 0 (ceilDiv o.len 8)) (beAt b (ceilDiv o.len 8) 8) (sigDigest alg msg) sig
    | none => false
  | _ => Config.digestVerifies (alg + 11) o.key msg sig

/-- The content of a TLS 1.3 CertificateVerify (RFC 8446 section 4.4.3). -/
def certVerifyContent (role : String) (alg : Nat) (transcript : Bytes) : Bytes :=
  List.replicate 64 0x20 ++ ascii ("TLS 1.3, " ++ role ++ " CertificateVerify") ++ [0] ++ hashBytes alg (hashLen alg) transcript

/-! ## Tickets (R215, R216) -/

/-- A ticket over a resumption PSK (log 20). -/
def Die.ticketBytes (d : Die) (tenant suite lifetime : Nat) (psk nonce addIn : Bytes) : Bytes :=
  let hdr := leBytes 1 1 ++ [0] ++ leBytes 2 tenant ++ leBytes 4 (d.get .NTT_TICKET_EPOCH_EPOCH) ++ nonce
  hdr ++ gcmSeal (d.ticketKey tenant) nonce hdr (slice psk 0 48 ++ leBytes 1 suite ++ leBytes 2 (d.get .KFT_MINUTE_MINUTE) ++
    leBytes 2 lifetime ++ addIn ++ zeros 19)

/-- Opens a ticket of the tenant: its suite and PSK; none where R216 refuses it. -/
def Die.openTicket (d : Die) (tenant : Nat) (b : Bytes) : Option (Nat × Bytes) :=
  if leAt b 0 1 != 1 || leAt b 1 1 != 0 || leAt b 2 2 != tenant || leAt b 4 4 != d.get .NTT_TICKET_EPOCH_EPOCH then none
  else
    (gcmOpen (d.ticketKey tenant) (slice b 8 12) (b.take 20) (slice b 20 92)).bind fun body =>
      let suite := leAt body 48 1
      let age := (d.get .KFT_MINUTE_MINUTE + 2 ^ 16 - leAt body 49 2) % 2 ^ 16
      if leAt body 51 2 < age then none else some (suite, body.take (hashLen (suiteHash suite)))

end Sys2Proof.Machine
end

