-- ==== Sys2Proof/Machine/ResetOps.lean ====
section
/-! DEFINITION. Resets of the die (spec/15 R408 to R413): what each class takes away, and the writing of event records to
the NVM ring (spec/17 R434, R437), part of which a reset does. -/
namespace Sys2Proof.Machine

/-! ## The NVM ring of records (R434) -/

/-- VALID of a record. -/
def recordValid : Nat := 0x56524543

/-- Writes a staged record whole to the next slot of the NVM ring; a torn slot is the next one, and is written over. -/
def Die.writeRecord (d : Die) (s : Staged) : Die :=
  let seq := (d.get .EVR_SEQ_VALUE + 1) % 2 ^ 32
  let slot := d.get .EVR_STATUS_NEXT
  let bytes := slice s.record 0 4 ++ leBytes 4 seq ++ slice s.record 8 244 ++ leBytes 4 recordValid
  let d1 := (d.set .EVR_SEQ_VALUE seq).set .EVR_STATUS_NEXT (slot + 1)
  let d2 := { d1 with evr := { d1.evr with ring := tput d1.evr.ring slot bytes, torn := none, writing := none,
                                           staging := d1.evr.staging.filter fun x => x.place != s.place } }
  if bit (triggerEntry d.recorderBody s.trigger).2 1 then d2.event .EVR_EVENT_RECORD else d2

/-- A slot whose write has begun and is cut short (R434). -/
def EvrState.tornSlot (v : EvrState) (next : Nat) : Option Nat := if v.writing.isSome then some next else v.torn

/-- At a warm reset a write in progress is cut, and the entries in reserved places are written; the rest are lost and
counted (R434, R437). -/
def Die.flushRecorder (d0 : Die) : Die :=
  let d := { d0 with evr := { d0.evr with torn := d0.evr.tornSlot (d0.get .EVR_STATUS_NEXT), writing := none } }
  let d1 : Die := (d.evr.staging.filter fun s => decide (28 ≤ s.place)).foldl Die.writeRecord d
  (d1.add .EVR_LOST_VALUE d1.evr.staging.length)

/-! ## Classes (R408, R412) -/

def ResetClass.rank : ResetClass → Nat | .tenant => 1 | .warm => 2 | .ensemble => 3 | .cold => 4

/-- A reset of rank `c` takes the field back to its reset value; fields loaded by the boot ROM hold it until then. -/
def FldInfo.restored (i : FldInfo) (c : Nat) : Bool :=
  match i.src with
  | .value | .tin | .map | .boot => decide (i.cls.rank ≤ c)
  | _ => false

/-- The fields that RST_CAUSE sets at each reset. -/
def causeFlds : List Fld :=
  [.RST_CAUSE_ENSEMBLE, .RST_CAUSE_MANAGER, .RST_CAUSE_DECLARED, .RST_CAUSE_TAMPER, .RST_CAUSE_SUPPLY, .RST_CAUSE_WATCHDOG,
   .RST_CAUSE_PORST, .RST_CAUSE_POWER_ON]

/-- RST_CAUSE names one cause (R414). -/
def Die.setCause (d : Die) (cause : Fld) : Die := causeFlds.foldl (fun d f => d.set f (ofBool (f == cause))) d

/-- The ring link as a reset leaves it: down, its epoch kept (R315). -/
def RingLink.dropped (l : RingLink) : RingLink := { (default : RingLink) with epoch := l.epoch }

/-- Block state that no register shows, as a reset of rank `c` (2 warm, 3 ensemble) leaves it (R412): NVM, DRK, NK, BBK, the
backup domain and the lockdown stay; the rotation map of steward tenants and the window of the last activation stay (log 75). -/
def Die.resetBlocks (d : Die) (c : Nat) : Die :=
  let keepArmed := decide (c ≤ 2)
  { d with
    que := { QueState.reset with nextRid := d.que.nextRid }
    rcp := .reset
    kft := { KftState.reset with nextUid := d.kft.nextUid }
    mlf := { MlfState.reset with nextWid := d.mlf.nextWid }
    con := .reset
    ntt := .reset
    key := { d.key with esk := none, share := none, nextShare := none, measLocked := false, objs := [], ceremony := none,
                            dealing := none, policyState := [] }
    rng := { d.rng with drbgBytes := 0, feBytes := 0, insts := [], turn := 0, waits := [], units := [], startupDone := false }
    ten := { TenState.reset with steward := d.ten.steward }
    tin := { d.tin with atEpoch := [], op := none }
    ens := { EnsState.reset with
      leadStrap := d.ens.leadStrap, linkA := d.ens.linkA.dropped, linkB := d.ens.linkB.dropped, founded := d.ens.founded,
      nextMsg := d.ens.nextMsg, domainTag := d.ens.domainTag, slot := d.ens.slot, joinSerial := d.ens.joinSerial,
      armed := if keepArmed then d.ens.armed else none, windowEnd := d.ens.windowEnd, gens := d.ens.gens,
      vgens := if keepArmed then d.ens.vgens else [] }
    wld := .reset
    tmp := { TmpState.reset with
      clearing := if d.tmp.clearing == 4 then 4 else 0, outAck := d.tmp.outAck, outLog := d.tmp.outLog, lockdown := d.tmp.lockdown, backup := d.tmp.backup }
    clk := { d.clk with booted := false, powerSum := 0, powerCount := 0, thermalCap := 180, rates := [256, 256, 256], idle := [] }
    lcs := { d.lcs with challenge := [], auth := false, halted := [], mailbox := none }
    evr := { EvrState.reset with ring := d.evr.ring, torn := d.evr.tornSlot (d.get .EVR_STATUS_NEXT), hoursMs := d.evr.hoursMs } }

/-- Volatile objects of the tenants of a position expire: its die resets, or is declared failed (R237) (log 71). -/
def Die.raiseVgens (d : Die) (pos : Nat) : Die :=
  (((List.range 256).map fun k => pos * 256 + k).filter fun t => t % 256 == 0 || (d.section? 4 t).isSome).foldl (fun d t => d.raiseVgen t) d

/-- Fresh scramble keys (R376, R409); in lockdown the root-class key stays zeroized. -/
def Die.drawScramble (d : Die) : Die :=
  let n := d.rng.draws + 1
  { d.draw 64 with tmp := { d.tmp with scrambleSession := n, scrambleRoot := if d.tmp.lockdown || d.tmp.clearing == 4 then 0 else n + 32 } }

/-- Registers and blocks after the clearing of a reset of rank `c`. TAMPER_OUT_N stays as it is (R370); the boot ROM floor is
the map again (R383). The PLL stays locked and its monitor armed; after a failover the die waits for an arming check
(R397, R409) (log 76, 77). -/
def Die.cleared (d : Die) (c : Nat) : Die :=
  let out := d.get .TMP_STATUS_OUT
  let d1 := (d.resetFlds fun f _ => f.info.restored c).resetBlocks c
  let d2 := ((d1.set .TMP_STATUS_OUT out).floorMap.drawScramble).showRank
  if d2.clk.phase == .armed then d2.set .CLK_STATUS_SOURCE 0
  else if d2.clk.phase == .failedOver then
    ((d2.set .CLK_STATUS_ARMED 0).set .CLK_STATUS_SETTLE_TRIES 0) |> fun x => { x with clk := { x.clk with phase := .settle } }
  else d2

/-- FAILING on both ring links, with its DISCARD mark (R327, R378). -/
def Die.sendFailing (d : Die) (discard : Bool) : Die :=
  if d.size == 1 then d else d.sendRing .failing none (leBytes 1 d.pos ++ leBytes 1 (ofBool discard))

/-- A die that performs lead duties and resets alone is declared failed: its mirror holder performs them from then on (R322, R327)
(DEDUCED, log 192). -/
def Die.leaveLead (d : Die) (c : Nat) : Die :=
  if c == 2 && d.get .ENS_STATUS_ACTING_LEAD == d.pos then d.set .ENS_STATUS_ACTING_LEAD ((d.pos + 1) % d.size) else d

/-- A warm (2) or ensemble (3) reset of this die begins, for the cause named (R408, R409): FAILING first, all work stopped
without a reply, the recorder's reserved places written, and the clearing. Absorbed by a reset of at least its class that
runs; in lockdown and with the clocks stopped only a cold reset acts. FAILING carries DISCARD while zeroized secrets are being cleared
(R378), and a clearing of Zeroize-all goes on to its lockdown (log 205). A warm reset of a 1-die ensemble takes
away what an ensemble reset does (R409). -/
def Die.startReset (e : Env) (d : Die) (class_ : Nat) (cause : Fld) (discard : Bool) : Die :=
  if class_ ≤ d.clk.resetClass || d.tmp.lockdown || d.clk.phase == .stopped then d
  else
    let c := if class_ == 2 && d.size == 1 then 3 else class_
    let d1 := (((d.sendFailing (discard || d.tmp.clearing != 0)).endDebug e).flushRecorder).raiseVgens d.pos
    let d2 := (((d1.cleared c).setCause cause).add (if class_ == 2 then .RST_COUNT_WARM else .RST_COUNT_ENSEMBLE) 1).leaveLead c
    { d2 with clk := { d2.clk with resetClass := c } }

/-! ## Cold reset (R412) -/

/-- The die as a cold reset leaves it before its clocks start: NVM, OTP, straps and the backup domain kept, all else at
its reset value. -/
def Die.coldDie (d : Die) : Die :=
  let d1 := d.resetFlds fun f _ => f.info.restored 4
  { d1.resetBlocks 3 with
    nowMs := 0
    key := { (d1.resetBlocks 3).key with drk := none, nk := none, statements := 0 }
    rng := { (d1.resetBlocks 3).rng with instantiations := 0 }
    evr := { (d1.resetBlocks 3).evr with hoursMs := 0 }
    tmp := { TmpState.reset with backup := d.tmp.backup }
    clk := ClkState.reset }

end Sys2Proof.Machine
end

