-- ==== Sys2Proof/Machine/Fondant.lean ====
section
/-! DEFINITION. Fondant: the monitors, the responses and their ends, the backup domain and the built-in test
(spec/14 R367 to R388). -/
namespace Sys2Proof.Machine

/-! ## Monitors -/

/-- The kind a built-in stimulus shows: OPEN on mesh pairs and inputs, one kind elsewhere (R388). -/
def stimulusKind (src : Nat) : Nat := if src ≤ 7 then 1 else 0

/-- The running test suppresses this kind on this source: the monitor has seen it, and nothing else happens (R388). -/
def Die.suppressed (d : Die) (src kind : Nat) : Option Die :=
  match d.tmp.bist with
  | some b =>
    if b.source == src && b.kind == kind && d.hasAt .TMP_MAP_ENABLED src
    then some { d with tmp := { d.tmp with bist := some { b with detected := true } } } else none
  | none => none

/-- A monitor finds its condition (R367): suppressed by a test, or an alarm. -/
def Die.monitor (e : Env) (d : Die) (src kind : Nat) : Die := (d.suppressed src kind).getD (d.alarm e src kind)

/-- The status field of a mesh pair or an input. -/
def pinField : Nat → Option Fld
  | 1 => some .TMP_MESH_STATUS_MESH_A
  | 2 => some .TMP_MESH_STATUS_MESH_B
  | 3 => some .TMP_MESH_STATUS_MESH_C
  | 4 => some .TMP_MESH_STATUS_MESH_D
  | 5 => some .TMP_PIN_STATUS_LID
  | 6 => some .TMP_PIN_STATUS_IN0
  | 7 => some .TMP_PIN_STATUS_IN1
  | _ => none

/-- What a mesh pair or an input shows. -/
def Die.showPin (d : Die) (src kind : Nat) : Die := match pinField src with | some f => d.set f kind | none => d

/-- A mesh pair or input in an alarm class: a disabled one is not watched (R368, R369). -/
def Die.pinAlarm (e : Env) (d : Die) (src kind : Nat) : Die :=
  if d.hasAt .TMP_MAP_ENABLED src then (d.showPin src kind).monitor e src kind else d

/-- MESH_ALARM (R368): pair 0 to 3, KIND 1 to 4. -/
def execMeshAlarm (pair kind : Nat) (s : State) : Out :=
  s.act fun e d => if 4 ≤ pair || kind == 0 || 5 ≤ kind then d else d.pinAlarm e (pair + 1) kind

/-- TAMPER_PIN_ALARM (R369): LID_SW, TAMPER_IN0 or TAMPER_IN1, OPEN (1) or SHORT_LOW (2). -/
def execTamperPinAlarm (pin kind : Nat) (s : State) : Out :=
  s.act fun e d => if 3 ≤ pin || !(kind == 1 || kind == 2) then d else d.pinAlarm e (5 + pin) kind

/-- MESH_RESEED (R368): every second, once the generator is READY. -/
def execMeshReseed (s : State) : Out :=
  s.act fun _ d =>
    if d.get .RNG_STATUS_STATE == 1 && decide (16 ≤ d.rng.drbgBytes) then
      { d with tmp := { d.tmp with meshSeed := d.rng.draws + 1 },
               rng := { d.rng with draws := d.rng.draws + 16, drbgBytes := d.rng.drbgBytes - 16 } }
    else d

/-- A signed value in a 16-bit field. -/
def int16 (x : Int) : Nat := (x % 65536).toNat

/-- The hotter sensor's term of R406, in 0.1 W, from a sample in 0.25 °C. -/
def thermalTerm (h : Int) : Nat := if h ≤ 420 then 180 else if 440 ≤ h then 80 else 180 - 5 * (h - 420).toNat

/-- TEMP_SAMPLE (R371, R372, R406): both sensors in 0.25 °C and both supplies in mV. A limit counts on two consecutive
samples beyond it, and clears on two 2 °C inside it. -/
def execTempSample (sensor0 sensor1 : Int) (aux core : Nat) (s : State) : Out :=
  s.act fun e d =>
    let hi := 4 * signed16 (d.get .TMP_TEMP_LIMITS_HIGH)
    let lo := 4 * signed16 (d.get .TMP_TEMP_LIMITS_LOW)
    let hot := max sensor0 sensor1
    let cold := min sensor0 sensor1
    let t := d.tmp
    let d1 := (((d.set .TMP_TEMP_SENSOR0 (int16 sensor0)).set .TMP_TEMP_SENSOR1 (int16 sensor1)).set .TMP_SUPPLY_AUX_MV
      aux).set .TMP_SUPPLY_CORE_MV core
    let d2 := { d1 with
      tmp := { t with overHigh := decide (hi < hot), underLow := decide (cold < lo), inHigh := decide (hot ≤ hi - 8),
                      inLow := decide (lo + 8 ≤ cold) }
      clk := { d1.clk with thermalCap := thermalTerm hot } }
    let d3 := if hi < hot then (if t.overHigh then d2.monitor e 8 0 else d2)
      else if t.inHigh && decide (hot ≤ hi - 8) then d2.condEnds 8 else d2
    let d4 := if cold < lo then (if t.underLow then d3.monitor e 9 0 else d3)
      else if t.inLow && decide (lo + 8 ≤ cold) then d3.condEnds 9 else d3
    if 40 < hot - cold then d4.monitor e 0x0A 0 else d4.condEnds 0x0A

/-! ## Supplies, glitches and the cell (R372 to R375) -/

/-- SUPPLY_HIGH (R372): VDD_AUX or VDD_CORE above its high level. -/
def execSupplyHigh (aux : Bool) (s : State) : Out := s.act fun e d => d.monitor e (if aux then 0x0E else 0x0C) 0

/-- A supply at its reset level (R374): the mapped response, then a warm reset, in which the die is held until the supply has
recovered. -/
def Die.supplyReset (e : Env) (d : Die) (src : Nat) : Die :=
  if d.tmp.lockdown then d
  else
    let d1 := ((d.alarm e src 0).startReset e 2 .RST_CAUSE_SUPPLY false).setCond src true
    { d1 with clk := { d1.clk with supplyHold := true } }

/-- PWR_REQ_N is held low until VDD_AUX falls below its reset level (R404). -/
def Die.pwrReqEnd (d : Die) : Die :=
  if d.has .RST_PWR_REQ_ASSERTED then (d.set .RST_PWR_REQ_ASSERTED 0).emit (.pin .pwrReqN true) else d

/-- SUPPLY_RESET_LEVEL (R374). -/
def execSupplyResetLevel (aux : Bool) (s : State) : Out :=
  s.act fun e d =>
    let src := if aux then 0x0D else 0x0B
    (d.suppressed src 0).getD ((if aux then d.pwrReqEnd else d).supplyReset e src)

/-- BROWNOUT_WARN (R373): the warning holds for either supply; it counts and is recorded as it begins (log 78). Before the clocks are
stable after a cold reset the comparators raise and record nothing (R467). -/
def execBrownoutWarn (aux : Bool) (s : State) : Out :=
  s.act fun e d =>
    let d1 := { d with tmp := if aux then { d.tmp with brownAux := true } else { d.tmp with brownCore := true } }
    if !d.clk.stable then d
    else if d.has .TMP_STATUS_BROWNOUT then d1
    else
      let d2 := (((d1.set .TMP_STATUS_BROWNOUT 1).setCond 0x18 true).latchAlarm 0x18).add .TMP_BROWNOUT_COUNT_COUNT 1
      d2.report e { Report.of 0x0A18 with unit := 0x18 }

/-- BROWNOUT_END (R373): the supply has stayed above its warning level for 10 µs; with neither warning left normal issue
resumes at once. -/
def execBrownoutEnd (aux : Bool) (s : State) : Out :=
  s.act fun e d =>
    let d1 := { d with tmp := if aux then { d.tmp with brownAux := false } else { d.tmp with brownCore := false } }
    if d1.tmp.brownAux || d1.tmp.brownCore || !d1.has .TMP_STATUS_BROWNOUT then d1
    else ((d1.set .TMP_STATUS_BROWNOUT 0).setCond 0x18 false).placeJobs e

/-- GLITCH (R375): 0 GLITCH_CORE, 1 GLITCH_AUX, 2 GLITCH_TIMING. -/
def execGlitch (kind : Nat) (s : State) : Out := s.act fun e d => if 3 ≤ kind then d else d.monitor e (0x12 + kind) 0

/-- VBAT_SAMPLE (R367): every 1 ms, in mV. -/
def execVbatSample (mv : Int) (s : State) : Out :=
  s.act fun e d =>
    let d1 := (d.set .TMP_VBAT_VBAT_MV mv.toNat).set .TMP_VBAT_REVERSED (ofBool (decide (mv < -300)))
    let d2 := { d1 with tmp := { d1.tmp with backup := { d1.tmp.backup with vbatGood := decide (1600 ≤ mv) } } }
    let d3 := if mv < 2200 then d2.monitor e 0x0F 0 else d2.condEnds 0x0F
    if mv < -300 then d3.monitor e 0x10 0 else d3.condEnds 0x10

/-- Sources whose condition ends by itself: mesh pairs, inputs, supplies and glitches. Temperature and VBAT end at their samples, the poison
list at a reformatting, the others at a reset (log 79). -/
def clearSources : List Nat := [1, 2, 3, 4, 5, 6, 7, 0x0B, 0x0C, 0x0D, 0x0E, 0x12, 0x13, 0x14]

/-- ALARM_CONDITION_CLEAR (R370, R374, R380): the condition of a source has gone; a supply that has recovered lets its reset
go on. -/
def execAlarmConditionClear (source : Nat) (s : State) : Out :=
  s.act fun _ d =>
    if !clearSources.contains source then d
    else
      let d1 := (d.condEnds source).showPin source 0
      if (source == 0x0B || source == 0x0D) && !d1.cond 0x0B && !d1.cond 0x0D
      then { d1 with clk := { d1.clk with supplyHold := false } } else d1

/-! ## Responses (R376 to R380) -/

/-- TAMPER_MESSAGE_RECEIVED (R379): the rank is performed as if an own source had fired; it does not propagate again (log 80). -/
def execTamperMessageReceived (pos source rank : Nat) (s : State) : Out :=
  s.act fun e d =>
    if d.tmp.lockdown || source == 0 || 0x17 < source || 4 < rank then d
    else
      let d1 := (d.latchAlarm source).report e { Report.of (0x0A00 + source) with unit := source, rank, origin := some pos }
      let d2 := if d1.hasAt .TMP_MAP_OUT source then { d1.outLow with tmp := { d1.outLow.tmp with outAck := false } } else d1
      d2.performRank e rank

/-- Zeroize-all after its physical clearing (R378): FAILING with DISCARD, the staged class P records written to NVM, then
lockdown. -/
def Die.lockDown (e : Env) (d : Die) : Die :=
  let d1 : Die := (d.evr.staging.filter fun s => isClassP s.trigger).foldl Die.writeRecord (d.sendFailing true)
  let d2 := ((d1.discardWhere e fun _ => true).set .HLK_STATUS_LINK_UP 0).set .HLK_STATUS_RATE 0
  { d2.outLow with tmp := { d2.outLow.tmp with lockdown := true, clearing := 0, bist := none } }.showRank

/-- ZEROIZE_CLEAR_DONE (R376, R378): Zeroize-sessions ends in a warm reset with DISCARD, Zeroize-all in lockdown. -/
def execZeroizeClearDone (s : State) : Out :=
  s.act fun e d =>
    if d.tmp.clearing == 3 then
      { d with tmp := { d.tmp with clearing := 0 } }.showRank.startReset e 2 .RST_CAUSE_TAMPER true
    else if d.tmp.clearing == 4 then d.lockDown e
    else d

/-- THROTTLE_END (R376): 10 ms after the condition has cleared. -/
def execThrottleEnd (s : State) : Out :=
  s.act fun _ d => if d.rankedCondition 1 || d.nowMs < d.tmp.throttleMs + 10 then d else (d.set .TMP_STATUS_THROTTLED 0).showRank

/-- A Halt ends when both parts of R377 hold; fetching resumes at the next DESCRIPTOR_FETCH. -/
def Die.endHalt (d : Die) : Die :=
  if d.has .TMP_STATUS_HALTED && d.tmp.released && d.tmp.quiet && !d.rankedCondition 2 && d.tmp.clearing == 0
  then (d.set .TMP_STATUS_HALTED 0).showRank else d

/-- HALT_RELEASE (R377): a write of TMP_CTL.RELEASE; with a Halt condition present it has no effect. -/
def execHaltRelease (s : State) : Out :=
  s.act fun _ d0 =>
    let d := d0.access 0
    if d.rankedCondition 2 then d else { d with tmp := { d.tmp with released := true } }.endHalt

/-- HALT_QUIET_TIMER (R377): every Halt-ranked condition has been absent for 1 ms. -/
def execHaltQuietTimer (s : State) : Out :=
  s.act fun _ d =>
    if d.rankedCondition 2 || d.nowMs < d.tmp.haltMs + 1 then d else { d with tmp := { d.tmp with quiet := true } }.endHalt

/-- OUT_ACK (R370). -/
def execOutAck (s : State) : Out :=
  s.act fun _ d => { d.access 0 with tmp := { d.tmp with outAck := true } }.outRelease

/-! ## On the backup cell (R384 to R387) -/

/-- The main supplies are gone: the backup domain alone goes on (R384, R401) (log 81). -/
def Die.powerOff (d : Die) : Die :=
  let d1 := d.coldDie
  { d1 with clk := { d1.clk with phase := .stopped } }

/-- BACKUP_TAKEOVER (R384). -/
def execBackupTakeover (s : State) : Out :=
  s.act fun _ d =>
    let d1 := d.pwrReqEnd.powerOff
    { d1 with tmp := { d1.tmp with backup := { d1.tmp.backup with active := true, resample := none } } }

/-- BACKUP_SAMPLE (R384): a sample on the cell that finds an alarm class on an enabled pin. -/
def execBackupSample (source kind : Nat) (s : State) : Out :=
  s.act fun _ d =>
    let b := d.tmp.backup
    if b.active && source != 0 && decide (source ≤ 7) && bit b.enables (source - 1) && kind != 0 && b.resample.isNone
    then { d with tmp := { d.tmp with backup := { b with resample := some (source, kind) } } } else d

/-- BACKUP_RESAMPLE (R385): 50 µs later; a confirmed alarm zeroizes BBK and is logged. -/
def execBackupResample (alarm : Bool) (s : State) : Out :=
  s.act fun _ d =>
    match d.tmp.backup.resample with
    | none => d
    | some (src, kind) =>
      let d1 := { d with tmp := { d.tmp with backup := { d.tmp.backup with resample := none } } }
      if !alarm then d1
      else
        let d2 := { d1 with key := { d1.key with bbk := none } }
        let d3 := ((d2.set .KEY_ROOT_STATUS_BBK_VALID 0).set .TMP_BACKUP_STATUS_BBK_ZEROIZED 1).set
          .TMP_BACKUP_STATUS_BACKUP_ALARM 1
        d3.backupLog src kind true

/-- BACKUP_TIME_SET (R386): accepted once, while the timestamp does not run. -/
def execBackupTimeSet (value : Nat) (s : State) : Out :=
  s.act fun _ d0 =>
    let d := d0.access 0
    if d.has .TMP_BACKUP_STATUS_RUNNING then d
    else ((d.set .TMP_BACKUP_TIME_SECONDS (value / 65536)).set .TMP_BACKUP_TIME_FRACTION value).set .TMP_BACKUP_STATUS_RUNNING 1

/-- BLOG_ACK (R387). -/
def execBlogAck (s : State) : Out :=
  s.act fun _ d0 =>
    let d := (((d0.access 0).set .TMP_BACKUP_STATUS_NEW 0).set .TMP_BACKUP_STATUS_BACKUP_ALARM 0).set .TMP_BACKUP_STATUS_BBK_ZEROIZED 0
    { d with tmp := { d.tmp with outLog := false } }.outRelease

/-! ## Built-in test (R388) -/

/-- BIST_START: a write of TMP_BIST_CTL with START set; ignored while a test runs, during a Halt, in lockdown, and with an
invalid source or window. -/
def execBistStart (source window : Nat) (s : State) : Out :=
  s.act fun _ d0 =>
    let d := d0.access 0
    if d.tmp.bist.isSome || d.has .TMP_STATUS_HALTED || d.tmp.lockdown || source == 0 || 0x14 < source || window == 0 ||
       100 < window then d
    else
      let d1 := (d.set .TMP_BIST_CTL_SOURCE source).set .TMP_BIST_CTL_WINDOW_US window
      { d1 with tmp := { d1.tmp with bist := some { source, kind := stimulusKind source, detected := false } } }

/-- BIST_WINDOW_END: PASS or FAIL; then the monitor is evaluated without the stimulus, and a condition that is present fires
with `kind`. -/
def execBistWindowEnd (present : Bool) (kind : Nat) (s : State) : Out :=
  s.act fun e d =>
    match d.tmp.bist with
    | none => d
    | some b =>
      let d1 := { d with tmp := { d.tmp with bist := none } }.set .TMP_BIST_STATUS_LAST_SOURCE b.source
      let fires := present && !d.cond b.source && d.hasAt .TMP_MAP_ENABLED b.source
      let d2 :=
        if b.detected then ((d1.set .TMP_BIST_STATUS_RESULT (if fires then 3 else 1)).wrap .TMP_BIST_STATUS_PASSES 1)
        else ((d1.set .TMP_BIST_STATUS_RESULT 2).alarmEvent e 0x17 0).report e { Report.of 0x0A21 with unit := b.source }
      if !present then d2.showPin b.source 0
      else if b.source == 0x0B || b.source == 0x0D then d2.supplyReset e b.source
      else if d2.hasAt .TMP_MAP_ENABLED b.source then (d2.showPin b.source kind).alarm e b.source kind
      else d2

end Sys2Proof.Machine
end

