-- ==== Sys2Proof/Machine/Keys.lean ====
section
/-! DEFINITION. Key-management requests on key objects (R241 to R246, R161). -/
namespace Sys2Proof.Machine

/-! ## Descriptors (R241) -/

def Req.objType (r : Req) : Nat := r.byte 56
def Req.aflags (r : Req) : Nat := r.byte 57
def Req.usage (r : Req) : Nat := r.byte 58
def Req.policyId (r : Req) : Nat := r.byte 59
def Req.uses (r : Req) : Nat := leAt r.desc 60 4

/-- Reserved fields: handles that the request does not use, bytes 52 to 55 but for LEN of a generated secret, and the
attributes of a request that creates nothing. -/
def keyHeaderOk (r : Req) (key dest len attrs : Bool) : Bool :=
  (key || r.keyHandle == 0) && (dest || r.destHandle == 0) && r.zeroBytes (if len then 54 else 52) 56 && (attrs || r.zeroBytes 56 64) &&
    bits r.aflags 7 3 == 0 && (bit r.aflags 2 || r.policyId == 0)

/-- The frame of a key-management request: header, exact input length, ranges, and space for the output (log 49). -/
def Die.keyRequest (e : Env) (d : Die) (rid op : Nat) (header : Req → Bool) (inOk : Nat → Bool) (k : Req → Die) : Die :=
  d.handle e rid op fun r =>
    if !header r then d.fail e r .badDescriptor 1
    else if !inOk r.inLen then d.fail e r .badDescriptor 2
    else d.rangesOk e r (k r)

/-! ## Types and lengths (R231) -/

/-- Key length of a symmetric type; `len` for a secret. -/
def symLen (type len : Nat) : Option Nat :=
  match type with
  | 1 => some 16 | 2 => some 24 | 3 => some 32 | 4 => some 32
  | 8 => if 16 ≤ len ∧ len ≤ 64 then some len else none
  | _ => none

/-- Bytes of an RSA extension by its type and modulus bits (R236). -/
def extContentLen (type bits_ : Nat) : Nat :=
  let k := ceilDiv bits_ 8
  if type = 0x18 then k + 8 + 5 * ceilDiv k 2 else k + 8

def isExtType (type : Nat) : Bool := type == 0x18 || type == 0x19

/-- Bytes of material that follow the header where an object travels: CURVE_FP goes with an object of a loaded curve (R232). -/
def travelLen (type param len : Nat) : Nat :=
  if isExtType type then extContentLen type len
  else if (type == 0x10 || type == 0x11) && decide (0x80 ≤ param) then len + 12 else len

/-- The material of an object as it travels. -/
def KeyObj.travel (o : KeyObj) : Bytes :=
  if (o.type == 0x10 || o.type == 0x11) && decide (0x80 ≤ o.param) then o.key ++ slice o.material 84 12 else o.key

/-- Slot material from the material as it travels. -/
def landed (type param len : Nat) (b : Bytes) : Bytes :=
  if (type == 0x10 || type == 0x11) && decide (0x80 ≤ param) then slice (b.take len) 0 84 ++ slice b len 12 else b

/-- A new object with the attributes of the descriptor. -/
def Die.newObj (d : Die) (r : Req) (origin param len : Nat) (material : Bytes) : KeyObj :=
  { tombstone r.tenant r.destHandle r.objType with
      usage := r.usage, aflags := r.aflags, origin, policyId := r.policyId, param, len, uses := r.uses, hostUses := r.uses,
      vgen := if bit r.aflags 0 then d.vgen r.tenant else 0, material := slice material 0 96 }

/-- Length of the material of a TYPE, as its LEN (R231): `bound` is the curve of an EC key, where the die knows it. -/
def typeLenOk (type len : Nat) (bound : Option CurveP) : Bool :=
  match type with
  | 1 => len == 16 | 2 => len == 24 | 3 | 4 | 0x12 | 0x13 | 0x14 | 0x21 | 0x22 => len == 32 | 0x20 => len == 64
  | 8 => decide (16 ≤ len ∧ len ≤ 64)
  | 0x30 => decide (32 ≤ len ∧ len ≤ 80)
  | 0x10 => match bound with | some c => len == c.ln | none => decide (len ≤ 81)
  | 0x11 => match bound with | some c => len == 1 + c.lp | none => decide (len ≤ 81)
  | _ => true

/-! ## KEY_GENERATE and KEY_DERIVE (R241, R243) -/

def execKeyGenerate (rid : Nat) (s : State) : Out :=
  s.act fun e d => d.keyRequest e rid 0x60 (fun r => keyHeaderOk r false true (r.objType == 8) true) (· == 0) fun r =>
    match symLen r.objType (leAt r.desc 52 2) with
    | none => d.fail e r .badDescriptor 2
    | some n =>
      if r.uses == 0 then d.fail e r .badDescriptor 2
      else d.withDest e r (some r.destHandle) fun d => d.withDraw e r n fun d1 a =>
        d1.createAt e r (d1.newObj r 1 0 n (randomBytes a n)) (Reply.done 0)

/-- The fields of a derivation block. -/
structure DeriveBlock where
  fn : Nat
  mask : Nat
  salt : Bytes
  info : Bytes
  out : Nat
  deriving DecidableEq, Repr

def deriveBlock (b : Bytes) : DeriveBlock :=
  { fn := leAt b 0 1, mask := leAt b 1 1, salt := slice b 8 (leAt b 2 1), info := slice b (8 + leAt b 2 1) (leAt b 4 2), out := leAt b 6 2 }

/-- The block is as R243 lays it out, but for OUT_LEN (log 65). -/
def deriveBlockOk (b : Bytes) : Bool :=
  let k := leAt b 0 1
  decide (1 ≤ k ∧ k ≤ 5) && decide (leAt b 2 1 ≤ 64) && (k == 2 || k == 3 || leAt b 2 1 == 0) && leAt b 3 1 == 0 &&
    decide (leAt b 4 2 ≤ 256)

/-- The hash of a KDF. -/
def DeriveBlock.alg (b : DeriveBlock) : Nat := if b.fn = 2 ∨ b.fn = 4 then 1 else 2

/-- The derived material. -/
def DeriveBlock.derive (b : DeriveBlock) (parent meas : Bytes) : Bytes :=
  let alg := b.alg
  if b.fn = 1 then
    let label := b.info.takeWhile fun x => x != 0
    kdf parent label (b.info.drop (label.length + 1) ++ meas) b.out
  else
    let prk := if b.fn ≤ 3 then hmac alg (if b.salt.isEmpty then zeros (hashLen alg) else b.salt) parent else parent
    prfPlusLike alg prk (b.info ++ meas) b.out
where
  /-- HKDF-Expand. -/
  prfPlusLike (alg : Nat) (prk info : Bytes) (n : Nat) : Bytes := (hkdfBlocks alg prk info (ceilDiv n (hashLen alg)) [] 1).take n

def execKeyDerive (rid : Nat) (s : State) : Out :=
  s.act fun e d => d.keyRequest e rid 0x61 (fun r => keyHeaderOk r true true false true) (fun n => decide (8 ≤ n ∧ n ≤ 328)) fun r =>
    let b := dmaRead e d r.inAddr r.inLen
    let p := deriveBlock b
    if r.inLen != 8 + p.salt.length + p.info.length then d.fail e r .badDescriptor 2
    else if !deriveBlockOk b then d.fail e r .badDescriptor 5
    else if r.uses == 0 || (symLen r.objType 16).isNone || (r.objType == 8 && (symLen 8 p.out).isNone) then d.fail e r .badDescriptor 2
    else if symLen r.objType p.out != some p.out then d.fail e r .badDescriptor 5
    else if bit r.aflags 1 then d.fail e r .policyDeny 0
    else
      let parent (d : Die) : KeyCheck := d.workKey r fun d => d.checkKey r.tenant r.keyHandle (fun o => o.type == 8 || o.type == 0x30) useDerive
      d.withKey e r r.keyHandle parent fun d o => d.withDest e r (some r.destHandle) fun d =>
        d.withWork e r (fun _ => [.hash p.alg (o.len + p.salt.length + p.info.length)]) 0 (some (r.keyHandle, useDerive))
          (fun d st x => d.fail e r st x) fun d _ =>
            if d.writesPending rid then d
            else d.createAt e r (d.newObj r 2 0 p.out (p.derive o.key (d.measMasked p.mask))) (Reply.done 0)

/-! ## KEY_ATTR_SET and KEY_DELETE (R241, R242) -/

/-- The change only narrows (R242, R238). -/
def narrows (o : KeyObj) (r : Req) : Bool :=
  let hook := bit o.aflags 2
  r.objType == o.type && (r.usage &&& (255 - o.usage)) == 0 && decide (r.uses ≤ o.uses) &&
    (if hook then bit r.aflags 2 && r.policyId == o.policyId else true) &&
    (!bit r.aflags 0 || o.volatile) && (!bit r.aflags 1 || o.exportable || (o.volatile && (o.origin == 1 || o.origin == 6)))

/-- The object after the change. -/
def KeyObj.narrowed (o : KeyObj) (r : Req) : KeyObj :=
  { o with usage := r.usage, aflags := r.aflags + (if o.extended then 8 else 0), policyId := r.policyId, uses := r.uses,
           hostUses := min o.hostUses r.uses, vgen := if bit r.aflags 0 then o.vgen else 0 }

/-- Writes the extension of an object again where its header has changed (R236). -/
def Die.rewriteExt (e : Env) (d : Die) (r : Req) (o n : KeyObj) (k : Die → KeyObj → Die) : Die :=
  if !o.extended || o.extAad == n.extAad then k d n
  else match d.readExt e o with
    | none => d.fail e r .paramRejected 0x10
    | some c =>
      if !d.dmaOk r.tenant o.extAddr o.extLen true then (d.dmaFault e r.tenant o.extAddr o.extLen true).fail e r .accessFault 0
      else d.withDraw e r 44 fun d1 a =>
        let x := sealExt n c o.extAddr a
        k (d1.output e r o.extAddr x.2) { n with material := x.1 }

def execKeyAttrSet (rid : Nat) (s : State) : Out :=
  s.act fun e d => d.keyRequest e rid 0x62 (fun r => keyHeaderOk r true false false true) (· == 0) fun r =>
    d.withKey e r r.keyHandle (fun d => d.readKey r.tenant r.keyHandle) fun d o =>
      if !narrows o r then d.fail e r .policyDeny 0
      else d.rewriteExt e r o (o.narrowed r) fun d1 n =>
        ((d1.mapObjs (fun x => x.id == o.id) fun _ => n).writeHandle e r.tenant r.keyHandle rid |>.retire e r.tenant r.keyHandle).completeWritten e r
          (Reply.done 0)

/-- An object or a tombstone to delete (R241): an empty handle has none. -/
def Die.deletable (d : Die) (tenant handle : Nat) : KeyCheck :=
  match d.readKey tenant handle with
  | .bad .keyExpired x | .bad .keyExhausted x => if d.key.esk.isNone then .bad .keyExpired x else
    match d.obj? tenant handle with
    | some o => .ok o
    | none => .bad .noSession 4
  | c => c

/-- KEY_DELETE: from now on the handle is empty. Uses in flight keep the object outside its handle, and the request waits for the last of
them. -/
def execKeyDelete (rid : Nat) (s : State) : Out :=
  s.act fun e d => d.keyRequest e rid 0x63 (fun r => keyHeaderOk r true false false false) (· == 0) fun r =>
    d.withKey e r r.keyHandle (fun d => d.deletable r.tenant r.keyHandle) fun d o =>
      if o.inFlight != 0 then (d.beginDelete o rid).setStage rid .running
      else ((d.dropObj r.tenant r.keyHandle).writeHandle e r.tenant r.keyHandle rid).completeWritten e r (Reply.done 0)

/-! ## KEY_INFO (R245) -/

/-- The public key of an asymmetric object in the encoding of R169 with BE = 1; none for a symmetric one. -/
def Die.publicKey (e : Env) (d : Die) (o : KeyObj) : Option Bytes :=
  let point (c : CurveP) (q : Option (Nat × Nat)) : Bytes := match q with
    | some p => beBytes c.lp p.1 ++ beBytes c.lp p.2
    | none => []
  match o.type with
  | 0x10 => (d.curve? o.tenant o.param).map fun c => point c (c.mul (beNat o.key) c.base)
  | 0x11 => (d.curve? o.tenant o.param).map fun c => point c (c.decompress o.key)
  | 0x12 => some (x25519 o.key (leBytes 32 9))
  | 0x13 => some (ed25519Pub o.key)
  | 0x14 => some o.key
  | 0x18 | 0x19 => (d.readExt e o).map fun b => b.take (ceilDiv o.len 8 + 8)
  | 0x20 => some (mlkemEk o.param o.key)
  | 0x21 => some (mldsaPk o.param o.key)
  | _ => none

/-- The 16-byte fingerprint of an object. -/
def Die.fingerprint (e : Env) (d : Die) (o : KeyObj) : Bytes :=
  if o.type == 0x22 then (List.range 16).map (Config.digestFingerprintByte o.key)
  else match d.publicKey e o with
    | some p => (sha384 p).take 16
    | none => (hmac 2 o.key (ascii "TY8K40 KCV")).take 16

/-- Slot bytes 0 to 15 with VGEN zeroed, USES as it stands. -/
def KeyObj.header (o : KeyObj) : Bytes := o.payload.take 8 ++ leBytes 4 o.uses ++ zeros 4

/-- An object whose fingerprint cannot be formed: an unloaded curve, or an extension that fails its check. -/
def Die.unreadable (e : Env) (d : Die) (o : KeyObj) : Option Nat :=
  if !d.curveBound o then some 0x11 else if o.extended && (d.readExt e o).isNone then some 0x10 else none

def execKeyInfo (rid : Nat) (s : State) : Out :=
  s.act fun e d => d.keyRequest e rid 0x64 (fun r => keyHeaderOk r true false false false) (· == 0) fun r =>
    d.withKey e r r.keyHandle (fun d => d.readKey r.tenant r.keyHandle) fun d o =>
      if r.outLen < 64 then d.complete e r (tooSmall 64)
      else match d.unreadable e o with
        | some x => d.fail e r .paramRejected x
        | none => d.finishOut e r (o.header ++ d.fingerprint e o ++ zeros 32)

/-! ## Archive blobs (R161, R244) -/

def archiveMagic : Nat := 0x42464C4D

/-- The tag of an ensemble in its blobs. -/
def Die.ensembleTag (d : Die) : Bytes := d.ensembleIdentity.take 16

def execKeyExport (rid : Nat) (s : State) : Out :=
  s.act fun e d => d.keyRequest e rid 0x65 (fun r => keyHeaderOk r true false false false) (· == 0) fun r =>
    d.withKey e r r.keyHandle (fun d => d.readKey r.tenant r.keyHandle) fun d o =>
      if d.get .LCS_STATE_STATE != 4 then d.fail e r .policyDeny 0x0F
      else if o.volatile || o.uses != uncounted then d.fail e r .policyDeny 0
      else if r.outLen < 176 then d.complete e r (tooSmall 176)
      else d.withDraw e r 12 fun d1 a =>
        let nonce := randomBytes a 12
        let hdr := leBytes 4 archiveMagic ++ [1, 0] ++ leBytes 2 r.tenant ++ leBytes 2 r.keyHandle ++ leBytes 2 112 ++
          leBytes 4 (d1.get .MLF_ARCHIVE_EPOCH_EPOCH) ++ d1.ensembleTag ++ nonce ++ zeros 4
        d1.finishOut e r (hdr ++ gcmSeal (d1.archiveKey r.tenant) nonce hdr o.payload)

/-- The payload of an archive blob that this tenant may restore. -/
def Die.openArchive (d : Die) (tenant : Nat) (b : Bytes) : Option Bytes :=
  if leAt b 0 4 != archiveMagic || leAt b 4 1 != 1 || leAt b 5 1 != 0 || leAt b 6 2 != tenant || leAt b 10 2 != 112 ||
     leAt b 12 4 != d.get .MLF_ARCHIVE_EPOCH_EPOCH || slice b 16 16 != d.ensembleTag || leAt b 44 4 != 0 then none
  else gcmOpen (d.archiveKey tenant) (slice b 32 12) (b.take 48) (slice b 48 128)

def execKeyRestore (rid : Nat) (s : State) : Out :=
  s.act fun e d => d.keyRequest e rid 0x66 (fun r => keyHeaderOk r false false false false) (· == 176) fun r =>
    let b := dmaRead e d r.inAddr 176
    if d.get .LCS_STATE_STATE != 4 then d.fail e r .policyDeny 0x0F
    else if d.key.esk.isNone then d.fail e r .keyExpired 0
    else match d.openArchive r.tenant b with
    | none => d.fail e r .paramRejected 0x14
    | some p => d.withDest e r (some (leAt b 8 2)) fun d =>
      let o := parseObj r.tenant (leAt b 8 2) p
      let move := o.extended && r.outAddr != 0
      let n := if move then { o with material := patch o.material 0 (leBytes 8 r.outAddr) } else o
      if move && r.outAddr % 64 != 0 then d.fail e r .badDescriptor 2
      else if move && !d.dmaOk r.tenant r.outAddr o.extLen false then
        (d.dmaFault e r.tenant r.outAddr o.extLen false).fail e r .accessFault 0
      else d.createAt e r n { Reply.done 0 with detail := ofBool move }

/-! ## KEY_WRAP and KEY_UNWRAP (R244) -/

/-- AES-KWP of a content. -/
def kwp (key content : Bytes) : Bytes := (List.range (ceilDiv content.length 8 * 8 + 8)).map (Config.kwpByte key content)

/-- Opens an AES-KWP string. -/
def kwpOpen (key wrapped : Bytes) : Option Bytes :=
  let c := Config.kwpContent key wrapped
  if kwp key c = wrapped then some c else none

/-- TYPE of a wrap key. -/
def wrapFits (o : KeyObj) : Bool := o.type == 1 || o.type == 2 || o.type == 3

/-- The wrap key of KEY_WRAP or KEY_UNWRAP. -/
def Die.wrapKey (d : Die) (r : Req) (usage : Nat) : KeyCheck := d.workKey r fun d => d.checkKey r.tenant r.keyHandle wrapFits usage

def execKeyWrap (rid : Nat) (s : State) : Out :=
  s.act fun e d => d.keyRequest e rid 0x67 (fun r => keyHeaderOk r true true false false) (· == 0) fun r =>
    d.withKey e r r.keyHandle (fun d => d.wrapKey r useWrap) fun d w =>
    d.withKey e r r.destHandle (fun d => d.readKey r.tenant r.destHandle) fun d o =>
      if !o.exportable then d.fail e r .policyDeny 0
      else
        let n := ceilDiv (16 + travelLen o.type o.param o.len) 8 * 8 + 8
        if r.outLen < n then d.complete e r (tooSmall n)
        else d.withUse e r r.keyHandle useWrap fun d1 =>
          match if o.extended then d1.readExt e o else some o.travel with
          | none => d1.fail e r .paramRejected 0x10
          | some m => d1.finishOut e r (kwp w.key (o.payload.take 8 ++ zeros 8 ++ m))

/-- Installs an object that came with its material: in its slot, or in a fresh extension at `addr` (R236). -/
def Die.installObj (e : Env) (d : Die) (r : Req) (o : KeyObj) (m : Bytes) (addr : Nat) (rep : Reply) : Die :=
  if !isExtType o.type then d.createAt e r { o with material := slice (landed o.type o.param o.len m) 0 96 } rep
  else if addr % 64 != 0 then d.fail e r .badDescriptor 2
  else if !d.dmaOk o.tenant addr m.length true || !d.dmaOk o.tenant addr m.length false then
    ((d.dmaFault e o.tenant addr m.length true).dmaFault e o.tenant addr m.length false).fail e r .accessFault 0
  else d.withDraw e r 44 fun d1 a =>
    let n := { o with aflags := o.aflags + 8 }
    let x := sealExt n m addr a
    (d1.tenantWrite e o.tenant addr x.2).createAt e r { n with material := x.1 } rep

/-- A TYPE of R231 that an object may have. -/
def typeDefined (t : Nat) : Bool := [1, 2, 3, 4, 8, 0x10, 0x11, 0x12, 0x13, 0x14, 0x18, 0x19, 0x20, 0x21, 0x22, 0x30].contains t

def execKeyUnwrap (rid : Nat) (s : State) : Out :=
  s.act fun e d => d.keyRequest e rid 0x68 (fun r => keyHeaderOk r true true false true) (fun n => n % 8 == 0 && decide (24 ≤ n ∧ n ≤ 8192)) fun r =>
    if r.uses == 0 || !typeDefined r.objType then d.fail e r .badDescriptor 2
    else d.withKey e r r.keyHandle (fun d => d.wrapKey r useUnwrap) fun d w => d.withDest e r (some r.destHandle) fun d =>
      d.withUse e r r.keyHandle useUnwrap fun d1 =>
        match kwpOpen w.key (dmaRead e d1 r.inAddr r.inLen) with
        | none => d1.fail e r .authFail 8
        | some c =>
          let param := leAt c 5 1
          let len := leAt c 6 2
          if leAt c 0 1 != r.objType || c.length != 16 + travelLen r.objType param len then d1.fail e r .paramRejected 0x10
          else d1.installObj e r (d1.newObj r 3 param len []) (c.drop 16) r.outAddr (Reply.done 0)

end Sys2Proof.Machine
end

