-- ==== Sys2Proof/Machine/Identity.lean ====
section
/-! DEFINITION. The die identity keys (spec/08 R220, R224, R254, R255), signatures with them, and threshold shares of the domain
root (R227, R228). -/
namespace Sys2Proof.Machine

/-! ## Identity keys -/

/-- The uncompressed P-384 point of a private scalar, as SEC 1 writes it: 97 bytes. -/
def p384Point (x : Nat) : Bytes :=
  match (builtinCurve 2).mul x (builtinCurve 2).base with
  | some (a, b) => [4] ++ beBytes 48 a ++ beBytes 48 b
  | none => zeros 97

/-- A private scalar from 64 bytes, reduced as FIPS 186-5 A.4.1: c mod (n − 1) + 1. -/
def p384Scalar (b : Bytes) : Nat := beNat b % ((builtinCurve 2).n - 1) + 1

/-- The die identity keys rest on the DRK; in Blank and the test states the published test keys stand in (R220, R254). -/
def Die.identScalar (d : Die) : Nat :=
  p384Scalar (if isTestState (d.get .LCS_STATE_STATE) then (List.range 64).map (Config.romKeyByte 6 0)
    else kdf (d.key.drk.getD []) (ascii "ID-EC") [] 64)
def Die.identSeed (d : Die) : Bytes :=
  if isTestState (d.get .LCS_STATE_STATE) then (List.range 32).map (Config.romKeyByte 6 1)
  else kdf (d.key.drk.getD []) (ascii "ID-MLDSA") [] 32

/-- The P-384 point and the ML-DSA-65 public key of a die. -/
def Die.identKeys (d : Die) : Bytes := p384Point d.identScalar ++ mldsaPk 0x12 d.identSeed

/-- The die identity: claim 2 of R255. -/
def Die.dieIdentity (d : Die) : Bytes := sha384 d.identKeys

/-! ## Shares of the domain root over GF(2^8) (R227, R228) -/

/-- Product in GF(2^8) with the AES polynomial, bit by bit of the second factor. -/
def gfMulLoop : Nat → Nat → Nat → Nat
  | 0, _, _ => 0
  | f + 1, a, b =>
    let a2 := if 128 ≤ a then (2 * a) ^^^ 0x11B else 2 * a
    (if b % 2 = 1 then a else 0) ^^^ gfMulLoop f a2 (b / 2)
def gfMul (a b : Nat) : Nat := gfMulLoop 8 a b

/-- Inverse in GF(2^8): the 254th power. -/
def gfInv (a : Nat) : Nat :=
  let a2 := gfMul a a
  let a4 := gfMul a2 a2
  let a8 := gfMul a4 a4
  let a16 := gfMul a8 a8
  let a32 := gfMul a16 a16
  let a64 := gfMul a32 a32
  gfMul (gfMul (gfMul a2 a4) (gfMul a8 a16)) (gfMul (gfMul a32 a64) (gfMul a64 a64))

/-- The Lagrange coefficient at 0 of the share at `x` among the shares at `xs`. -/
def gfCoeff (x : Nat) (xs : List Nat) : Nat :=
  xs.foldl (fun c y => if y = x then c else gfMul c (gfMul y (gfInv (x ^^^ y)))) 1

/-- The secret that shares combine to, byte by byte. -/
def gfCombine (ss : List Share) : Bytes :=
  let xs := ss.map Share.x
  (List.range 32).map fun i => BitVec.ofNat 8 (ss.foldl (fun a s => a ^^^ gfMul (gfCoeff s.x xs) (leAt s.share i 1)) 0)

/-- The value at `x` of the polynomial whose coefficients are given, constant first. -/
def gfEval (cs : List Nat) (x : Nat) : Nat := cs.reverse.foldl (fun a c => gfMul a x ^^^ c) 0

/-- The share at `x` of a secret, under coefficient bytes: byte i of coefficient j is `coef j i`. -/
def gfDeal (secret : Bytes) (threshold x : Nat) (coef : Nat → Nat → Nat) : Bytes :=
  (List.range 32).map fun i =>
    BitVec.ofNat 8 (gfEval (leAt secret i 1 :: (List.range (threshold - 1)).map fun j => coef j i) x)

/-- The check value of a root (R227). -/
def shareCheck (dr : Bytes) : Bytes := (hmac 2 dr (ascii "DR-CHECK")).take 16

/-- The sublists of length `k`, in position order. -/
def subsets {α : Type} : Nat → List α → List (List α)
  | 0, _ => [[]]
  | _ + 1, [] => []
  | k + 1, x :: xs => (subsets k xs).map (x :: ·) ++ subsets (k + 1) xs

/-- The shares of the highest generation that enough dies hold. -/
def bestShares (threshold : Nat) (ss : List Share) : List Share :=
  let enough (g : Nat) : Bool := decide (threshold ≤ (ss.filter fun s => s.gen == g).length)
  let g := ss.foldl (fun m s => if enough s.gen then max m s.gen else m) 0
  ss.filter fun s => s.gen == g && enough g

/-- The root that the first matching threshold subset combines to (R228). -/
def combineShares (threshold : Nat) (ss : List Share) : Option Bytes :=
  ((subsets threshold (bestShares threshold ss)).map fun l => (gfCombine l, (l.head?.map Share.check).getD [])).findSome? fun x =>
    if shareCheck x.1 == x.2 then some x.1 else none

end Sys2Proof.Machine
end

