-- ==== Sys2Proof/Machine/Attest.lean ====
section
/-! DEFINITION. Attestation statements (spec/08 R254 to R257): their deterministic CBOR, their two signatures, and ATTEST. -/
namespace Sys2Proof.Machine

/-! ## CBOR (RFC 8949, deterministic) -/

/-- The head of an item: major type and argument in the shortest form. -/
def cborHead (major n : Nat) : Bytes :=
  if n < 24 then leBytes 1 (major * 32 + n)
  else if n < 256 then leBytes 1 (major * 32 + 24) ++ beBytes 1 n
  else if n < 65536 then leBytes 1 (major * 32 + 25) ++ beBytes 2 n
  else if n < 2 ^ 32 then leBytes 1 (major * 32 + 26) ++ beBytes 4 n
  else leBytes 1 (major * 32 + 27) ++ beBytes 8 n

def cborUint (n : Nat) : Bytes := cborHead 0 n
/-- The negative integer −1 − n. -/
def cborNeg (n : Nat) : Bytes := cborHead 1 n
def cborBytes (b : Bytes) : Bytes := cborHead 2 b.length ++ b
def cborText (s : String) : Bytes := cborHead 3 s.length ++ ascii s
def cborArray (xs : List Bytes) : Bytes := cborHead 4 xs.length ++ xs.flatMap fun x => x
/-- A map with unsigned keys, given in rising order. -/
def cborMap (kv : List (Nat × Bytes)) : Bytes := cborHead 5 kv.length ++ kv.flatMap fun x => cborUint x.1 ++ x.2

/-! ## The statement -/

/-- What a statement is asked to hold: nonce, chains, tenant (claim 9), key claim (slot bytes 0 to 15 with VGEN zeroed, and
fingerprint), import keys. -/
structure AttestAsk where
  nonce : Bytes
  chain : Bool
  tenant : Option Nat
  key : Option (Bytes × Bytes)
  imports : Bool

/-- The import keys of the ensemble (R224, R257): private scalar, ML-KEM-1024 seed, and the public pair. -/
def Die.importScalar (d : Die) : Nat := p384Scalar (kdf d.eskBytes (ascii "IMPORT-EC") [] 64)
def Die.importSeed (d : Die) : Bytes := kdf d.eskBytes (ascii "IMPORT-KEM") [] 64

/-- The payload claims (R255), the statement being the n-th of its die (log 114). -/
def Die.claims (d : Die) (a : AttestAsk) (n : Nat) : Bytes :=
  cborMap ([(1, cborBytes a.nonce), (2, cborBytes d.dieIdentity), (3, cborBytes (d.digestOf .ENS_IDENTITY_DIGEST)),
    (4, cborUint d.pos), (5, cborUint (d.get .LCS_STATE_STATE)),
    (6, cborArray ((List.range 8).map fun i => cborBytes (d.meas i))), (7, cborBytes (d.digestOf .TIN_DIGEST_DIGEST)),
    (8, cborUint (d.get .MLF_ARCHIVE_EPOCH_EPOCH))] ++
    (match a.tenant with | some t => [(9, cborUint t)] | none => []) ++
    (match a.key with | some k => [(10, cborMap [(1, cborBytes k.1), (2, cborBytes k.2)])] | none => []) ++
    (if a.imports then [(11, cborMap [(1, cborBytes (p384Point d.importScalar)), (2, cborBytes (mlkemEk 3 d.importSeed))])] else []) ++
    [(12, cborUint n)])

/-- The protected header: alg −35 (ES384) or −49 (ML-DSA-65). -/
def coseProtected (pq : Bool) : Bytes := cborHead 5 1 ++ cborUint 1 ++ cborNeg (if pq then 48 else 34)

/-- What a COSE_Sign1 signature covers (RFC 9052). -/
def coseToSign (pq : Bool) (payload : Bytes) : Bytes :=
  cborArray [cborText "Signature1", cborBytes (coseProtected pq), cborBytes [], cborBytes payload]

/-- One COSE_Sign1 structure (log 115). -/
def coseSign1 (pq : Bool) (chain : Option Bytes) (payload sig : Bytes) : Bytes :=
  cborArray [cborBytes (coseProtected pq), cborMap (match chain with | some c => [(33, c)] | none => []), cborBytes payload, cborBytes sig]

/-- Random bytes of a statement: additional data of the ECDSA signature, from byte 0, and the ML-DSA hedge, from byte 40 (R179). -/
def statementDraw : Nat := sigDraw 2 + sigDraw 7

/-- The longest chain of a statement, with which the whole stays within the 16,384 bytes of R256: a statement without chains is under
5,400 (DESIGN CHOICE, log 194). -/
def chainBound : Nat := (16384 - 5400) / 2

/-- The statement, signed with the random bytes from `draw` on, and the number of attempts of its ML-DSA signature. -/
def Die.statement (d : Die) (a : AttestAsk) (draw : Nat) : Bytes × Nat :=
  let payload := d.claims a (d.key.statements + 1)
  let ch (alg : Nat) : Option Bytes := if a.chain then some ((Config.x5chain alg d.dieIdentity).take chainBound) else none
  let s1 := (ecdsaSign true (builtinCurve 2) (beBytes 48 d.identScalar) (sha384 (coseToSign false payload)) (randomBytes draw 32)).out
  let s2 := mldsaSig 0x12 d.identSeed [] (coseToSign true payload) (randomBytes (draw + 40) 32)
  (cborArray [coseSign1 false (ch 4) payload s1, coseSign1 true (ch 5) payload s2],
    mldsaTries 0x12 d.identSeed [] (coseToSign true payload) (randomBytes (draw + 40) 32))

/-- The jobs of a statement: a P-384 signature on Constantan and an ML-DSA-65 signature on a lattice core (R256). -/
def Die.statementWork (d : Die) (a : AttestAsk) (draw : Nat) : List Work :=
  signWork 2 0 0 0 ++ signWork 7 0 (coseToSign true (d.claims a (d.key.statements + 1))).length (d.statement a draw).2

/-- A statement has been made. -/
def Die.countStatement (d : Die) : Die := { d with key := { d.key with statements := d.key.statements + 1 } }

/-! ## ATTEST (R256, R257) -/

/-- ATTEST once its asked claims are known (log 117). -/
def Die.attest (e : Env) (d : Die) (r : Req) (a : AttestAsk) : Die :=
  let size := (d.statement a r.drawn).1.length
  if r.outLen < size then d.complete e r (tooSmall size)
  else d.withWork e r (d.statementWork a) statementDraw none (fun d st x => d.fail e r st x) fun d1 n =>
    let st := d1.statement a n
    (d1.countStatement.output e r r.outAddr st.1).complete e r { Reply.done st.1.length with detail := min st.2 65535 }

def execAttest (rid : Nat) (s : State) : Out :=
  s.act fun e d => d.keyRequest e rid 0x69 (fun r => keyHeaderOk r false false false false) (fun n => decide (12 ≤ n ∧ n ≤ 68)) fun r =>
    let b := dmaRead e d r.inAddr r.inLen
    let flags := leAt b 0 1
    let n := leAt b 1 1
    if flags / 8 != 0 then d.fail e r .badDescriptor 1
    else if n < 8 || 64 < n || r.inLen != 4 + n then d.fail e r .badDescriptor 2
    else if bit flags 2 && !(r.fn? == some 0 && d.isLead) then d.fail e r .policyDeny 0
    else if bit flags 2 && d.key.esk.isNone then d.fail e r .keyExpired 0
    else
      let ask : AttestAsk := { nonce := b.drop 4, chain := bit flags 0, tenant := if r.fn? == some 0 then none else some r.tenant, key := none,
                               imports := bit flags 2 }
      if !bit flags 1 then d.attest e r ask
      else d.withKey e r (leAt b 2 2) (fun d => d.readKey r.tenant (leAt b 2 2)) fun d o =>
        match d.unreadable e o with
        | some x => d.fail e r .paramRejected x
        | none => d.attest e r { ask with key := some (o.header, d.fingerprint e o) }

end Sys2Proof.Machine
end

