-- ==== Sys2Proof/Machine/Custody.lean ====
section
/-! DEFINITION. The key manager's NVM: NK and what it wraps, which is the share of the domain root, in the current bank and in the
pending bank of a migration (spec/08 R224, R226, R227, R229, R248, R253; spec/15 R411). Owner key, custodian set and Tin bank, which R422
seals under NK, stand under the NVM integrity key, as R247 and R309 say (log 189). -/
namespace Sys2Proof.Machine

/-! ## NK (R224, R226) -/

/-- NK under a BBK, a seal mask and the measurements that the mask selects. -/
def Die.nkOf (d : Die) (bbk : Bytes) (mask : Nat) (meas : Bytes) : Option Bytes :=
  d.key.drk.map fun drk => kdf drk (ascii "NVM") (bbk ++ leBytes 1 mask ++ meas) 32

/-- NK of the present measurements under the seal mask. -/
def Die.deriveNk (d : Die) (bbk : Bytes) : Option Bytes :=
  d.nkOf bbk (d.get .KEY_SEAL_MASK_MASK) (d.measMasked (d.get .KEY_SEAL_MASK_MASK))

/-- NK′ of the pending bank, where a migration is pending (R253). -/
def Die.pendingNk (d : Die) : Option Bytes :=
  if d.has .KEY_SEAL_MASK_PENDING then d.key.bbk.bind fun b => d.nkOf b (d.get .KEY_SEAL_MASK_PENDING_MASK) d.key.pendingMeas else none

/-! ## Share records (R227) -/

/-- A share record: x, threshold, SHARE_GEN, check value, share. -/
def Share.bytes (s : Share) : Bytes := leBytes 1 s.x ++ leBytes 1 s.threshold ++ leBytes 4 s.gen ++ slice s.check 0 16 ++ slice s.share 0 32

/-- The share record that 54 bytes hold. -/
def parseShare (b : Bytes) : Share :=
  { x := leAt b 0 1, threshold := leAt b 1 1, gen := leAt b 2 4, check := slice b 6 16, share := slice b 22 32 }

/-- A record as a bank holds it, wrapped with AES-256-GCM under NK; nothing without a key. The nonce, which R227 does not give, comes from
the generator and stands before the ciphertext, and there is no associated data (DESIGN CHOICE, log 189). -/
def wrapRecord (key : Option Bytes) (nonce : Bytes) (s : Share) : Bytes :=
  match key with
  | some k => nonce ++ gcmSeal k nonce [] s.bytes
  | none => []

/-- What a bank's record opens to under a key. -/
def openRecord (key : Option Bytes) (b : Bytes) : Option Share :=
  match key with
  | some k => if b.isEmpty then none else (gcmOpen k (b.take 12) [] (b.drop 12)).map parseShare
  | none => none

/-- Both share records that are open, wrapped again for the current bank; one that did not open stays as it is (R411). -/
def Die.rewrapBank (d : Die) : Die :=
  let n := d.rng.draws
  let put (s : Option Share) (old : Bytes) (a : Nat) : Bytes := (s.map (wrapRecord d.key.nk (randomBytes a 12))).getD old
  { d.draw 24 with key := { d.key with bank := put d.key.share d.key.bank n, nextBank := put d.key.nextShare d.key.nextBank (n + 12) } }

/-- Both share records wrapped for the pending bank under NK′ (R253). -/
def Die.wrapPending (d : Die) : Die :=
  let n := d.rng.draws
  let put (s : Option Share) (a : Nat) : Bytes := (s.map (wrapRecord d.pendingNk (randomBytes a 12))).getD []
  { d.draw 24 with key := { d.key with pendBank := put d.key.share n, pendNext := put d.key.nextShare (n + 12) } }

/-- A share of a generation not yet committed is written beside the one that counts (R248), and into a pending bank as well, so that this
opens the shares of its time (DESIGN CHOICE, log 190). -/
def Die.putNext (d : Die) (s : Share) : Die :=
  let n := d.rng.draws
  { d.draw 24 with key := { d.key with nextShare := some s, nextBank := wrapRecord d.key.nk (randomBytes n 12) s,
                                       pendNext := wrapRecord d.pendingNk (randomBytes (n + 12) 12) s } }

/-- The commit of the new generation: one pointer write (R248). -/
def Die.commitShare (d : Die) : Die :=
  match d.key.nextShare with
  | none => d
  | some s =>
    ({ d with key := { d.key with share := some s, nextShare := none, bank := d.key.nextBank, nextBank := [], pendBank := d.key.pendNext,
                                  pendNext := [] } }.set .KEY_ROOT_STATUS_SHARE_HELD 1).set .KEY_ROOT_STATUS_SHARE_LOST 0

/-- Every share record of the die is erased. -/
def Die.eraseShares (d : Die) : Die :=
  { d with key := { d.key with share := none, nextShare := none, bank := [], nextBank := [], pendBank := [], pendNext := [] } }.set
    .KEY_ROOT_STATUS_SHARE_HELD 0

/-- The share records opened at a boot (R229, R387): one that is there and does not open is lost. -/
def Die.openBanks (e : Env) (d : Die) : Die :=
  let s := openRecord d.key.nk d.key.bank
  let n := openRecord d.key.nk d.key.nextBank
  let d1 := { d with key := { d.key with share := s, nextShare := n } }.set .KEY_ROOT_STATUS_SHARE_HELD (ofBool (s.isSome || n.isSome))
  if !d.key.bank.isEmpty && s.isNone then ((d1.set .KEY_ROOT_STATUS_SHARE_LOST 1).event .KEY_EVENT_SHARE_LOST).reportOf e 0x0504 else d1

/-- A pending bank becomes current when the measurements under its mask are the expected ones; the old bank is erased (R253). -/
def Die.migrate (e : Env) (d : Die) : Die :=
  let mask := d.get .KEY_SEAL_MASK_PENDING_MASK
  if d.has .KEY_SEAL_MASK_PENDING && d.measMasked mask == d.key.pendingMeas then
    let d1 := ((d.set .KEY_SEAL_MASK_MASK mask).set .KEY_SEAL_MASK_PENDING 0).set .KEY_SEAL_MASK_PENDING_MASK 0
    ({ d1 with key := { d1.key with pendingMeas := [], bank := d1.key.pendBank, nextBank := d1.key.pendNext, pendBank := [],
                                    pendNext := [] } }.event .KEY_EVENT_MIGRATION_DONE).reportOf e 0x0506
  else d

/-- MEAS_MIGRATE on one die: the pending bank under the requested mask and the expected values (R253). -/
def Die.setMigration (d : Die) (mask : Nat) (meas : Bytes) : Die :=
  (({ d with key := { d.key with pendingMeas := meas } }.set .KEY_SEAL_MASK_PENDING 1).set .KEY_SEAL_MASK_PENDING_MASK mask).wrapPending

/-- A fresh BBK from the full-entropy queue, and under the NK that it makes every secret that is open (R387, R411). -/
def Die.freshBbk (d : Die) : Die :=
  let b := randomBytes d.rng.draws 32
  let d1 := { d with rng := { d.rng with draws := d.rng.draws + 32, feBytes := d.rng.feBytes - 32 } }
  let d2 := { d1 with key := { d1.key with bbk := some b, nk := d1.deriveNk b } }.rewrapBank
  (if d2.has .KEY_SEAL_MASK_PENDING then d2.wrapPending else d2).set .KEY_ROOT_STATUS_BBK_VALID 1

/-! ## The end of a ceremony (R250, R252) -/

/-- The ceremony closes: its nonce is zeroized. -/
def Die.closeCeremony (d : Die) : Die :=
  (((({ d with key := { d.key with ceremony := none } }.set .KEY_CEREMONY_STATUS_STATE 0).set .KEY_CEREMONY_STATUS_KIND 0).set
    .KEY_CEREMONY_STATUS_APPROVALS 0).set .KEY_CEREMONY_STATUS_REMAINING_S 0)

end Sys2Proof.Machine
end

