-- ==== Sys2Proof/Machine/Store.lean ====
section
/-! DEFINITION. Millefeuille commands (spec/05): slot writes complete, mirroring, re-sealing, reformatting, the archive
epoch. -/
namespace Sys2Proof.Machine

/-! ## Slot writes and the mirror (R147 to R149, R152) -/

/-- What waits in the store, in its buckets and at its requests goes on. -/
def Die.storeOn (e : Env) (d : Die) : Die := ((d.kickStore e).stepMoves e).releaseWritten e

/-- SLOT_WRITE_COMPLETE: the flush read after a slot write and its block returns; a write under a block that is being re-sealed is
complete only once the block itself is written, with the last step of its re-seal (R150). -/
def execSlotWriteComplete (wid : Nat) (s : State) : Out :=
  s.act fun e d =>
    match d.mlf.writes.find? fun w => w.wid == wid && w.stage == .flushing with
    | none => d
    | some w =>
      let d1 := { d with mlf := { d.mlf with writes := d.mlf.writes.filter fun v => v.wid != wid } }
      let d2 := d1.mirror 2 w.home (treeKeyOf w.home 1 w.block) (leBytes 4 wid)
      (match if w.ends then d2.reseal? w.home 1 w.block else none with
       | some r => d2.doneReseal r
       | none => d2).storeOn e

/-- A MIRROR message applied to the mirror area (R152, log 11). The pending entry of a write replaces an earlier one of the same write
(R148), and brings the version of its level-1 block in the dirty level-2 block up to date. -/
def MirrorArea.apply (m : MirrorArea) (body : Bytes) : MirrorArea :=
  let home := leAt body 1 1
  let key := leAt body 2 8
  let j := treeIndex key
  match leAt body 0 1 with
  | 1 =>
    let k2 := treeKeyOf home 2 (j / 32)
    let u := leNat (body.drop (body.length - 8))
    let b := tget m.blocks k2
    { m with pendings := (m.pendings.filter fun p => !(leAt p 0 1 == 1 && leAt p 14 4 == leAt body 14 4)) ++ [body],
             blocks := tput m.blocks k2 (b.setMinor (j % 32) (u % 128)) }
  | 2 => { m with pendings := m.pendings.filter fun p => !(leAt p 0 1 == 1 && leAt p 14 4 == leAt body 14 4) }
  | 3 => { m with pendings := m.pendings ++ [body],
                  blocks := if treeLevel key = 2 ∨ 4 ≤ treeLevel key then tput m.blocks key { major := leAt body 14 8 + 1, minors := 0 }
                            else m.blocks }
  | 4 => { m with blocks := tput (tput m.blocks (treeKeyOf home 4 (j / 32)) (countersAt body 14)) (treeKeyOf home 5 (j / 1024)) (countersAt body 50) }
  | 5 => { m with blocks := tput m.blocks key (countersAt body 14) }
  | 6 => { m with blocks := tput m.blocks key default }
  | 7 => { MirrorArea.empty with nonce := leAt body 14 8 }
  | 8 => { m with pendings := m.pendings.filter fun p => !(leAt p 0 1 == 3 && leAt p 2 8 == key) }
  | _ => m

/-- MIRROR_RECEIVED: the previous die along ring A sends a change of its own slice, or of one it has adopted; it is applied and
acknowledged by its number. -/
def execMirrorReceived (src : Nat) (body : Bytes) (s : State) : Out :=
  s.act fun _ d =>
    if (src + 1) % d.size != d.pos || src == d.pos then d
    else
      let d1 : Die :=
        if leAt body 1 1 = src then { d with mlf := { d.mlf with mirror := d.mlf.mirror.apply body } }
        else { d with mlf := { d.mlf with mirrorToo := d.mlf.mirrorToo.apply body } }
      (d1.ringIn src body.length).sendRing .mirrorAck (some src) (slice body 10 4)

/-- A write-back is over: its dirty entry is released, and a re-seal that it ends is done (R149, R150). -/
def Die.endBack (d : Die) (b : BackWrite) : Die :=
  let d1 := ({ d with mlf := { d.mlf with backs := d.mlf.backs.filter fun x => x != b } } : Die).releaseDirty b.home b.index
  match if b.ends then d1.reseal? b.home 2 b.index else none with
  | some r => d1.doneReseal r
  | none => d1

/-- Writes and write-backs that await no acknowledgement any more go on. -/
def Die.acknowledged (e : Env) (d : Die) : Die :=
  let d1 : Die := (d.mlf.writes.filter fun w => w.stage == .mirroring && w.awaits.isEmpty).foldl (Die.issueWrite e) d
  ((d1.mlf.backs.filter fun b => !d1.mlf.unacked.contains b.ack).foldl Die.endBack d1).storeOn e

/-- MIRROR_ACK: change `n` stands in the mirror; what waited for it goes on. -/
def execMirrorAck (n : Nat) (s : State) : Out :=
  s.act fun e d =>
    if !d.mlf.unacked.contains n then d
    else Die.acknowledged e { d with mlf := { d.mlf with
      unacked := d.mlf.unacked.filter (· != n), writes := d.mlf.writes.map fun w => { w with awaits := w.awaits.filter (· != n) } } }

/-- MIRROR_ACK_TIMEOUT: 20 µs after change `n` without its acknowledgement; the die goes on without a mirror, and nothing waits for it
any more. -/
def execMirrorAckTimeout (n : Nat) (s : State) : Out :=
  s.act fun e d =>
    if !d.mlf.unacked.contains n then d
    else
      let d1 := (((d.set .MLF_EVENT_MIRROR_LOST 1).set .MLF_STATUS_MIRROR_OK 0).signal 0 27).reportOf e 0x0302
      Die.acknowledged e { d1 with mlf := { d1.mlf with unacked := [], writes := d1.mlf.writes.map fun w => { w with awaits := [] } } }

/-! ## Re-sealing (R150) -/

/-- The host does not have a child of a block under re-seal as its old version says yet: a write of it, or of the level-1 block,
awaits the mirror. -/
def Die.childOnWay (d : Die) (r : Reseal) (i : Nat) : Bool :=
  d.mlf.writes.any fun w => w.stage == .mirroring && w.home == r.home &&
    ((r.level == 1 && w.slots.any fun s => s.index == i) || (r.level == 2 && w.block == i))

/-- Child `i` of a block of level `level` has been read: it is verified under an old version and written again under its version now. -/
def Die.resealChild (e : Env) (d : Die) (home level i old : Nat) : Die × Option StoreFault :=
  let new := d.versionOf home (level - 1) i
  if level = 1 then
    match if old = 0 then (d, some (zeros 128)) else d.storeData e home (i * 128) 128 with
    | (d1, none) => (d1, some .refused)
    | (d1, some _) =>
      match d1.openSlot e home i old with
      | some p => (d1.storeWrite e home (i * 128) (d1.slotBytes home i new p), none)
      | none => (d1, some (.item 0 i 1))
  else
    let put (d : Die) (b : VBlock) : Die :=
      d.storeWrite e home (d.blockOffset home (level - 1) i) (d.blockBytes home (level - 1) i b new)
    if old = 0 then (put d default, none)
    else match d.readBlock e home (level - 1) i old with
      | (d1, .ok b) => (put d1 b, none)
      | (d1, .error f) => (d1, some f)

/-- A child of a re-seal is done with, and after the last of the 31 the re-seal ends. -/
def Die.childDone (d : Die) (r : Reseal) (c : Nat) : Die :=
  { d with mlf := { d.mlf with reseals := updateWhere (fun x => x == r) (fun x => { x with left := x.left.filter (· != c) }) d.mlf.reseals } }

/-- RESEAL_CHILD_DONE: the read of a child returns, or `failed` in the host and comes again later. A child that fails its check is
poisoned and not tried again. DESIGN CHOICE (log 178): the TENANT recorded for such a failure is 0, since no request asked for the read. -/
def execResealChildDone (level index child : Nat) (failed : Bool) (s : State) : Out :=
  s.act fun e d =>
    match d.mlf.reseals.find? fun r => r.level == level && r.index == index && r.left.contains child with
    | none => d
    | some r =>
      let i := index * 32 + child
      if failed then d.storeRead (if level = 1 then 128 else 64)
      else if d.childOnWay r i then d
      else if d.poisoned r.home (i * 32 ^ (level - 1)) then (d.childDone r child).storeOn e
      else match d.resealChild e r.home level i (r.old.version child) with
        | (d1, some .refused) => d1
        | (d1, some f) => ((d1.storeFault e 0 r.home f).childDone r child).storeOn e
        | (d1, none) => (d1.childDone r child).storeOn e

/-! ## Poisoned ranges (R158, R159) -/

/-- POISON_REFORMAT: a write of MLF_POISON_CTL with REFORMAT set. DESIGN CHOICE (log 180): one written while another reformat runs has
no effect. -/
def execPoisonReformat (index : Nat) (s : State) : Out :=
  s.act fun _ d0 =>
    let d := (d0.access 0).set .MLF_POISON_CTL_INDEX index
    if d.mlf.reformat.isNone && d.mlf.poison.any fun p => p.1 == index % 256
    then { d with mlf := { d.mlf with reformat := some (index % 256) } } else d

/-- The counters that a reformatted block restarts with under version `v` of its parent: every child at minor 1, and a MAJOR that it has
not had before (DESIGN CHOICE, log 181). -/
def Die.freshBlock (d : Die) (home level j v : Nat) : VBlock :=
  let known := if d.onDie home level j then (d.vblock home level j).major + 1 else 0
  { major := if majorLimit < known then v else max known v, minors := (List.range 32).foldl (fun m c => m + 2 ^ (7 * c)) 0 }

/-- The slots of level-1 block `x` written empty, but for those of the tree region, then the block under version `v`; it
leaves the cache. -/
def Die.emptyL1 (e : Env) (d : Die) (home x v : Nat) : Die :=
  let b := d.freshBlock home 1 x v
  let mine := (List.range 32).filter fun c => decide ((x * 32 + c) * 128 < d.treeStart home)
  let d1 : Die := mine.foldl (fun d c => d.storeWrite e home ((x * 32 + c) * 128) (d.slotBytes home (x * 32 + c) (b.version c) (zeros 112))) d
  (d1.storeWrite e home (d1.blockOffset home 1 x) (d1.blockBytes home 1 x b v)).uncacheBlock (treeKeyOf home 1 x)

/-- The level-1 blocks under level-2 block `y` written empty, then the block under version `v`; its dirty entry is released. -/
def Die.emptyL2 (e : Env) (d : Die) (home y v : Nat) : Die :=
  let b := d.freshBlock home 2 y v
  let kids := (List.range 32).filter fun c => decide (y * 32 + c < d.levelBlocks home 1)
  let d1 : Die := kids.foldl (fun d c => d.emptyL1 e home (y * 32 + c) (b.version c)) d
  let d2 := (d1.storeWrite e home (d1.blockOffset home 2 y) (d1.blockBytes home 2 y b v)).uncacheBlock (treeKeyOf home 2 y)
  if d2.mlf.dirty.contains (treeKeyOf home 2 y) then (d2.releaseDirty home y).mirror 6 home (treeKeyOf home 2 y) [] else d2

/-- The range of a poison entry written empty under raised parents (R159 step 3); a parent that cannot be read is an integrity failure of
its own. -/
def Die.emptyRange (e : Env) (d : Die) (p : Poison) : Die :=
  let j := p.offset / 128 / poisonSpan p.level
  if p.level ≤ 1 then
    match (match d.fetch3 e p.home (j / 1024) with | (d1, none) => d1.fetchBlock e p.home 2 (j / 32) | x => x) with
    | (d1, some f) => d1.storeFault e 0 p.home f
    | (d1, none) =>
      let d2 := (d1.raiseChild p.home 2 (j / 32) (j % 32)).markL2 p.home (j / 32)
      (d2.mirrorBlock p.home 2 (j / 32)).emptyL1 e p.home j (d2.versionOf p.home 1 j)
  else if p.level = 2 then
    match d.fetch3 e p.home (j / 32) with
    | (d1, some f) => d1.storeFault e 0 p.home f
    | (d1, none) =>
      let d2 := d1.raiseChild p.home 3 (j / 32) (j % 32)
      ((d2.emptyL2 e p.home j (d2.versionOf p.home 2 j)).writeL3 e p.home (j / 32)).1
  else
    let v := d.versionOf p.home 3 j + 1
    let b := d.freshBlock p.home 3 j v
    let kids := (List.range 32).filter fun c => decide (j * 32 + c < d.levelBlocks p.home 2)
    let d1 : Die := kids.foldl (fun d c => d.emptyL2 e p.home (j * 32 + c) (b.version c)) d
    let d2 := d1.setVblock p.home 3 j b
    let d3 := { d2 with mlf := { d2.mlf with upper := if d2.onDie p.home 3 j then d2.mlf.upper else d2.mlf.upper ++ [treeKeyOf p.home 3 j] } }
    (d3.writeL3 e p.home j).1

/-- A slot of a bucket lies in a range. -/
def Die.inRange (d : Die) (p : Poison) (k s : Nat) : Bool :=
  keyHome k == p.home && decide (p.offset ≤ d.slotIndex k s * 128) && decide (d.slotIndex k s * 128 < p.offset + poisonSpan p.level * 128)

/-- A block of level `level` covers slots of a range only. -/
def rangeCovers (p : Poison) (home level j : Nat) : Bool :=
  home == p.home && decide (p.offset ≤ j * 32 ^ level * 128) && decide ((j + 1) * 32 ^ level * 128 ≤ p.offset + poisonSpan p.level * 128)

/-- Writes, write-backs and re-seals inside a range end before it is written empty. -/
def Die.endInside (d : Die) (p : Poison) : Die :=
  let rs := d.mlf.reseals.filter fun r => rangeCovers p r.home r.level r.index
  let d1 : Die := rs.foldl Die.doneReseal d
  let d2 : Die := (d1.mlf.writes.filter fun w => rangeCovers p w.home 1 w.block).foldl (fun d w =>
    (d.dropWrite w .storeIntegrity).mirror 2 w.home (treeKeyOf w.home 1 w.block) (leBytes 4 w.wid)) d1
  { d2 with mlf := { d2.mlf with backs := d2.mlf.backs.filter fun b => !rangeCovers p b.home 2 b.index } }

/-- Sessions and handle slots of a range are gone, and the owners' shares are credited (R159 steps 1 and 2). -/
def Die.clearInside (d : Die) (p : Poison) : Die :=
  let gone := d.kft.sessions.filter fun s => s.slots.any fun x => d.inRange p (d.bucketOf s) x
  let d1 := { d with kft := { d.kft with sessions := d.kft.sessions.filter fun s => !gone.contains s,
                                         metas := d.kft.metas.filter fun m => !d.inRange p m.1 0 },
                     key := { d.key with objs := d.key.objs.filter fun o => !d.inRange p (handleKey (o.tenant / 256) o.tenant o.handle) 0 } }
  gone.foldl (fun d s => d.countOut s) d1

/-- POISON_REFORMAT_DONE: sessions and handle slots of the range are gone, the range is written empty, and the entry's
index is free. -/
def execPoisonReformatDone (s : State) : Out :=
  s.act fun e d =>
    match d.mlf.reformat, d.mlf.poison.find? fun p => some p.1 == d.mlf.reformat with
    | some i, some (_, p) =>
      let d1 := (((d.endInside p).clearInside p).emptyRange e p).condEnds 0x15
      Die.storeOn e { d1 with mlf := { d1.mlf with reformat := none, poison := d1.mlf.poison.filter fun x => x.1 != i } }
    | _, _ => { d with mlf := { d.mlf with reformat := none } }

/-! ## The archive epoch (R162) -/

/-- The other dies of the ensemble that take part in it: not absent, and not declared failed. -/
def Die.otherDies (d : Die) : List Nat :=
  (List.range d.size).filter fun p => p != d.pos && !d.ens.declared.contains p && d.serverOf p == p

/-- The lead raises the epoch to a value here and on every die (R162). -/
def Die.bumpTo (d : Die) (v : Nat) : Die :=
  let d1 := (d.set .MLF_ARCHIVE_EPOCH_EPOCH v).sendRing .archiveBump none (leBytes 4 v)
  { d1 with mlf := { d1.mlf with bumpWait := d1.otherDies } }

/-- The ring message of a bump: the lead's value, which a die takes and confirms with its position; it never falls (R162, log 182). -/
def Die.bumpReceived (d : Die) (b : Bytes) : Die :=
  if d.isLead then { d with mlf := { d.mlf with bumpWait := d.mlf.bumpWait.filter (· != leAt b 0 1) } }
  else (d.set .MLF_ARCHIVE_EPOCH_EPOCH (max (d.get .MLF_ARCHIVE_EPOCH_EPOCH) (leAt b 0 4))).sendRing .archiveBump
    (some (d.get .ENS_STATUS_ACTING_LEAD)) (leBytes 1 d.pos)

/-- ARCHIVE_BUMP: a write of MLF_ARCHIVE_CTL. Only on the lead die, with CONFIRM 0xA5, below the last value; anything else
with BUMP set is ignored and recorded. One written while BUMP still reads 1 has no effect (DESIGN CHOICE, log 179). `received` is the ring
message of a bump. -/
def execArchiveBump (confirm : Nat) (bump : Bool) (received : Option Bytes) (s : State) : Out :=
  s.act fun e d0 =>
    match received with
    | some b => d0.bumpReceived b
    | none =>
      let d := d0.access 0
      if !bump then d
      else if !d.isLead || confirm != 0xA5 || d.get .MLF_ARCHIVE_EPOCH_EPOCH == 2 ^ 32 - 1 then d.reportOf e 0x0304
      else if !d.mlf.bumpWait.isEmpty then d
      else ((d.bumpTo (d.get .MLF_ARCHIVE_EPOCH_EPOCH + 1)).event .MLF_EVENT_EPOCH_BUMPED).reportOf e 0x0304

end Sys2Proof.Machine
end

