-- ==== Sys2Proof/Machine/HostLink.lean ====
section
/-! DEFINITION. The host link, register writes, functions, doorbells and rings (spec/02), and the rules of the register
map (spec/18). -/
namespace Sys2Proof.Machine

/-! ## Register writes (R9 to R12, R46, R47, R399, R451 to R457) -/

/-- Registers of ensemble-level state, writable only on the die that performs lead duties (R456). -/
def Fld.leadOnly : Fld → Bool
  | .ENS_CTL_POS | .ENS_CTL_LINK_GRACE | .ENS_DOMAIN_TIME_VALUE => true
  | _ => false

/-- The rule of a field that makes a write to it ignored, as its table says; `v` is the value written. -/
def Die.writeIgnored (d : Die) (f : Fld) (i j v : Nat) : Bool :=
  match f with
  | .QUE_PAIR_CTL_SIZE_LOG2 | .QUE_PAIR_CTL_IN_ORDER | .QUE_REQ_BASE_ADDR | .QUE_RPL_BASE_ADDR =>
    d.getAt2 .QUE_PAIR_STATUS_STATE i j != 0
  | .QUE_NTF_CTL_SIZE_LOG2 | .QUE_NTF_BASE_ADDR => d.hasAt .QUE_NTF_CTL_ENABLE i
  | .REC_TEN_CFG0_CID_LEN => decide (20 < v) || allPairs.any fun p => d.getAt2 .QUE_PAIR_STATUS_STATE i p != 0
  | .PMC_RING_CTL_SIZE_LOG2 => d.has .PMC_CTL_ENABLE
  | .RNG_TEST_RAW_EN | .RNG_TEST_INJECT_SRC => !d.rngTestOpen
  | .ENS_ENV_OUT_CTL_SIZE_LOG2 => d.has .ENS_ENV_OUT_CTL_ENABLE
  | f => f.leadOnly && !d.isLead

/-- The writer reaches the field: host writes to SO fields are ignored (R457), and no write sets RO fields. -/
def writerReaches (w : Writer) (a : Access) : Bool :=
  match a, w with
  | .ro, _ => false
  | .wo, _ => false
  | .so, .secure => true
  | .so, .host _ => false
  | _, _ => true

/-- What a field holds after a write of `v` to the bits `m` of it (R11). -/
def written (a : Access) (old v m : Nat) : Nat :=
  match a with
  | .w1c => old - (old &&& (v &&& m))
  | .w1s => old ||| (v &&& m)
  | _ => (old - (old &&& m)) + (v &&& m)

/-- What follows from a write beside the field's new value: enabling the counter reader or the envelope ring sets its
indices to 0 (R49, R443), clearing IDLE_EN wakes the blocks (R402), and the other dies learn what the lead die's registers of
ensemble-level state hold (R18; the messages: log 195). -/
def Die.afterWrite (d : Die) (f : Fld) (old : Nat) : Die :=
  match f with
  | .PMC_CTL_ENABLE =>
    if old == 0 && d.has .PMC_CTL_ENABLE then
      let d1 := (d.set .PMC_RING_TAIL_INDEX 0).set .PMC_RING_HEAD_INDEX 0
      { d1 with evr := { d1.evr with windowSeq := 0, counts := [], ports := [], droppedNow := 0, sinceMsg := 0,
                                     windowUs := clamp 1 1000000 (d.get .PMC_CTL_WINDOW_US) } }
    else d
  | .ENS_ENV_OUT_CTL_ENABLE =>
    if old == 0 && d.has .ENS_ENV_OUT_CTL_ENABLE
    then (d.set .ENS_ENV_OUT_TAIL_INDEX 0).set .ENS_ENV_OUT_HEAD_INDEX 0 else d
  | .ENS_DOMAIN_TIME_VALUE => if d.size == 1 then d else d.sendRing .domain none ([3] ++ leBytes 8 (d.get .ENS_DOMAIN_TIME_VALUE))
  | .ENS_CTL_LINK_GRACE => if d.size == 1 then d else d.sendRing .domain none ([4] ++ leBytes 2 (d.get .ENS_CTL_LINK_GRACE))
  | .PWR_CTL_IDLE_EN => if d.has .PWR_CTL_IDLE_EN then d else { d with clk := { d.clk with idle := [] } }
  | _ => d

/-- A shadow region of an MPU as the secure world last wrote it; before any write, the active region (R357). -/
def Die.shadowRegion (d : Die) (m r : Nat) : Region :=
  ((d.wld.shadow.find? fun x => x.1 == m * 16 + r).map Prod.snd).getD (d.activeRegion m r)

def Die.setShadow (d : Die) (m r : Nat) (x : Region) : Die :=
  { d with wld := { d.wld with shadow :=
      (d.wld.shadow.filter fun y => y.1 != m * 16 + r) ++ [(m * 16 + r, x)] } }

/-- A secure-world write of a region register goes to the shadow set (R357). -/
def Die.writeShadow (d : Die) (f : Fld) (m r v mask : Nat) : Option Die :=
  let x := d.shadowRegion m r
  match f with
  | .MPU_RGN_BASE_BASE => some (d.setShadow m r { x with base := written .rw (x.base / 4096) v mask * 4096 })
  | .MPU_RGN_ATTR_ENABLE => some (d.setShadow m r { x with enable := v != 0 })
  | .MPU_RGN_ATTR_SIZE_LOG2 => some (d.setShadow m r { x with sizeLog2 := v })
  | .MPU_RGN_ATTR_X => some (d.setShadow m r { x with x := v != 0 })
  | .MPU_RGN_ATTR_W => some (d.setShadow m r { x with w := v != 0 })
  | .MPU_RGN_ATTR_R => some (d.setShadow m r { x with r := v != 0 })
  | _ => none

/-- The secure world releases blocks; deferred gating requests of these apply. The generator, the key manager and the NVM stay held. -/
def Die.releaseHolds (d : Die) (blocks : Nat) : Die :=
  let rel := (List.range 11).filter fun b => bit blocks b && b != 6 && b != 7 && b != 10
  let d1 : Die := rel.foldl (fun d b =>
    (d.set .WLD_HOLD_BLOCKS (putBits (d.get .WLD_HOLD_BLOCKS) b b 0)).set .WLD_GATE_PENDING_BLOCKS
      (putBits (d.get .WLD_GATE_PENDING_BLOCKS) b b 0)) d
  let left : List (Nat × Bool) := d.wld.deferred.filter fun x => !rel.contains x.1
  let d2 := { d1 with wld := { d1.wld with deferred := left } }
  if d2.has .PWR_STATUS_DEFERRED then d2.set .PWR_STATUS_DEFERRED (ofBool (!left.isEmpty)) else d2

/-- A write to element (i, j) of one field: `v` for the bits `m` of it. Fields whose write is a command of its own are
left alone. Bits that the secure world clears in WLD_HOLD release their blocks (R353). -/
def Die.writeField (d : Die) (w : Writer) (f : Fld) (i j v m : Nat) : Die :=
  if m == 0 || f.info.own || !writerReaches w f.info.acc || d.writeIgnored f i j v then d
  else
    match d.writeShadow f i j v m with
    | some d1 => d1
    | none =>
      match f with
      | .WLD_HOLD_BLOCKS => (d.set f (d.get f ||| (v &&& m))).releaseHolds (m - (v &&& m))
      | .WLD_POT_KIND | .WLD_POT_PENDING | .WLD_POT_TENANT => d
      | .KEY_MEAS_DIGEST => d.writeMeas i v m
      | _ =>
        let old := d.getAt2 f i j
        (d.setAt2 f i j (written f.info.acc old v m)).afterWrite f old

/-- A 4-byte write: every field of the word takes its part of the value (R11, R399). -/
def Die.writeWord (d : Die) (w : Writer) (page : Bool) (n off v : Nat) : Die :=
  allFlds.foldl (fun d f =>
    match f.locate page n off with
    | some (i, j, high) =>
      let sh := if high then 32 else 0
      let x := (v % 2 ^ 32) * 2 ^ sh
      let m := (2 ^ 32 - 1) * 2 ^ sh
      d.writeField w f i j ((x / 2 ^ f.info.lo) % 2 ^ f.width) ((m / 2 ^ f.info.lo) % 2 ^ f.width)
    | none => d) d

/-- Unmasks a vector: a pending message is sent (R68). -/
def Die.unmask (d : Die) (fn vec : Nat) : Die :=
  let v := { d.msixVec fn vec with masked := false }
  let d1 := d.setMsix fn vec v
  if v.pending then d1.signal fn vec else d1

/-- A 4-byte write to the MSI-X table of a function (R67). The pending bits are read-only. -/
def Die.writeMsix (d : Die) (fn off v : Nat) : Die :=
  if 0x9000 ≤ off then d
  else
    let vec := (off - 0x8000) / 16
    let x := d.msixVec fn vec
    match (off - 0x8000) % 16 / 4 with
    | 0 => d.setMsix fn vec { x with addr := 2 ^ 32 * (x.addr / 2 ^ 32) + v % 2 ^ 32 / 4 * 4 }
    | 1 => d.setMsix fn vec { x with addr := x.addr % 2 ^ 32 + 2 ^ 32 * (v % 2 ^ 32) }
    | 2 => d.setMsix fn vec { x with data := v % 2 ^ 32 }
    | _ => if bit v 0 then d.setMsix fn vec { x with masked := true } else d.unmask fn vec

/-- A 4-byte write to a tenant page (R45, R454). -/
def Die.writePage (d : Die) (w : Writer) (n off v : Nat) : Die :=
  if isMsixOff n off then d.writeMsix n off v
  else if d.hasAt .QUE_PAGE_STATUS_READY n then d.writeWord w true n off v
  else d

/-- A 4-byte write to BAR0 of a function: pages 1 to 255 of the mirror are read-only (R46, R455). The secure world
reaches the registers of the physical function's BAR0. -/
def Die.write4 (d : Die) (w : Writer) (off v : Nat) : Die :=
  match w with
  | .secure => if off < 0x1000000 then d.writeWord w false 0 off v else d
  | .host fn =>
    if fn = 0 then
      if off < 0x1000000 then d.writeWord w false 0 off v
      else if off < 0x1010000 then d.writePage w 0 (off - 0x1000000) v
      else d
    else if off < 0x10000 then d.writePage w fn off v
    else d

/-- The virtual functions that the SR-IOV capability offers (R45): TotalVFs. -/
def Die.totalVfs (d : Die) : Nat := if d.get .LCS_STATE_STATE == 4 then 255 else 0

/-- Function `fn` is there for the host: the physical function, or a virtual function that VF Enable presents (R45). -/
def Die.present (d : Die) (fn : Nat) : Bool := fn == 0 || (d.que.vfEnable && decide (fn ≤ d.totalVfs))

/-- BAR0 of function `fn` answers: the link is up, the physical function ready, and the function there (R43, R45). -/
def Die.barOpen (d : Die) (fn : Nat) : Bool := d.canSend && d.present fn

/-- The writer reaches the die's registers: firmware always, a function through its BAR0. -/
def Die.reached (d : Die) : Writer → Bool
  | .secure => true
  | .host fn => d.barOpen fn

/-- REGISTER_WRITE (R11, R47, R451): an aligned write of 4 or 8 bytes; 8 bytes write a 64-bit register at once, or two
32-bit registers one after the other. Other accesses are MMIO_BAD_ACCESS. A BAR that is disabled takes nothing (R43). -/
def Die.registerWrite (d : Die) (w : Writer) (off size v : Nat) : Die :=
  if !d.reached w then d
  else
    let d0 := match w with | .host fn => d.access fn | .secure => d
    if size == 4 && off % 4 == 0 then d0.write4 w off v
    else if size == 8 && off % 8 == 0 then (d0.write4 w off v).write4 w (off + 4) (v / 2 ^ 32)
    else d0

def execRegisterWrite (w : Writer) (off size value : Nat) (s : State) : Out :=
  s.act fun _ d => d.registerWrite w off size value

/-- The class of an error (R69): correctable, or as the AER severity register has it. -/
def Die.aerClass (d : Die) (kind : AerKind) : AerClass :=
  if kind == .correctable then .correctable else if d.que.aerFatal.contains kind then .fatal else .nonFatal

/-- Logs an error through AER with its class, unless the AER mask register names it (R69) (log 151). -/
def Die.logAer (d : Die) (kind : AerKind) (header : Bytes) : Die :=
  if d.que.aerMask.contains kind then d
  else { d with que := { d.que with aer := d.que.aer ++ [{ kind, cls := d.aerClass kind, header }] } }

/-- MMIO_BAD_ACCESS (R47): Completer Abort, logged through AER. The header logged is the offset and size. -/
def execMmioBadAccess (fn off size : Nat) (write : Bool) (s : State) : Out :=
  s.act fun _ d =>
    if !d.barOpen fn || (size == 4 || size == 8) && off % size == 0 then d
    else ((d.access fn).emit (.completerAbort fn off)).logAer .completerAbort
      (leBytes 8 off ++ leBytes 4 size ++ leBytes 1 (ofBool write))

/-- What a 4-byte read returns: the held high word where the access before it was the read of the low word, else the
current word (R400). -/
def Die.readAfter (e : Env) (d : Die) (fn off : Nat) : Nat :=
  match d.que.heldHigh.find? fun h => h.1 == fn && h.2.1 == off with
  | some h => h.2.2
  | none => d.readWord e fn off

/-- LOW_WORD_READ (R400): a 4-byte read of the low word of a 64-bit register holds its high word for the next access
of the same function. A read of the high word that follows at once is the same command at the offset of that word, and
returns what is held; any other offset is an ordinary read. -/
def execLowWordRead (fn off : Nat) (s : State) : Out :=
  s.act fun e d =>
    if !d.barOpen fn then d
    else
      let d1 := (d.access fn).emit (.readData fn off (d.readAfter e fn off))
      if isWide fn off then
        { d1 with que := { d1.que with heldHigh := d1.que.heldHigh ++ [(fn, (off + 4, d.readWord e fn (off + 4)))] } }
      else d1

/-! ## The link (R38 to R44, R69, R70) -/

/-- What a training that succeeds leaves in the registers: rate, repairs, and the events of new ones (R39, R40). -/
def Die.trained (d : Die) (rate tx rx : Nat) : Die :=
  let newRepair := decide (d.get .HLK_STATUS_REPAIRED_TX < tx) || decide (d.get .HLK_STATUS_REPAIRED_RX < rx)
  let d1 := (((d.set .HLK_STATUS_RATE rate).set .HLK_STATUS_REPAIRED_TX tx).set .HLK_STATUS_REPAIRED_RX rx).set
    .HLK_STATUS_TRAIN_FAIL 0
  let d2 := if newRepair then d1.event .HLK_EVENT_REPAIRED else d1
  let d3 := if d.que.lastRate != 0 && d.que.lastRate != rate then d2.event .HLK_EVENT_RATE_CHANGED else d2
  { d3 with que := { d3.que with lastRate := rate, trainRetry := false } }

/-- The highest rate the next training may use: HLK_CTL.MAX_RATE, 0 taken as 1 (R39). -/
def Die.maxRate (d : Die) : Nat := max 1 (d.get .HLK_CTL_MAX_RATE)

/-- A rate that a training can end at. -/
def Die.rateOk (d : Die) (rate : Nat) : Bool := decide (1 ≤ rate) && decide (rate ≤ d.maxRate)

/-- Lane repair covers the failed data lanes (R40): up to two in each 32-lane half, so at most 4 in each direction. The
operands of a training count the lanes that it remaps; a number above 4 stands for a fault beyond repair. -/
def repairable (tx rx : Nat) : Bool := decide (tx ≤ 4) && decide (rx ≤ 4)

/-- This die tells the lead die, where it is another, of one of its links (log 74). -/
def Die.tellLead (d : Die) (what : Bytes) : Die :=
  if d.isLead || d.size == 1 then d else d.sendRing .report (some (d.get .ENS_STATUS_ACTING_LEAD)) (leBytes 1 d.pos ++ what)

/-- The lead die hears of a position's host link, its own among them: it goes down, or is up again (R70, R327). -/
def Die.hostLinkOf (d : Die) (pos : Nat) (up : Bool) : Die :=
  if !d.isLead then d
  else
    let others := d.ens.hostDown.filter fun x => x.1 != pos
    if up then { d with ens := { d.ens with hostDown := others } }
    else { d with ens := { d.ens with hostDown := others ++ [(pos, d.nowMs)] } }.signal 0 21

/-- The lead die hears of this die's host link; where this is the lead die, at once (log 74). -/
def Die.alertLead (d : Die) (up : Bool) : Die := if d.isLead then d.hostLinkOf d.pos up else d.tellLead (if up then [3] else [])

/-- LINK_UP (R42): the Data Link Layer comes up at a rate the limit allows, where repair covers the lanes that fail (R40);
configuration requests get Request Retry Status until the physical function is ready (R44). Messages that waited for the link
are sent (R396). `received` is the position of another die that tells this one, the lead, of its link (R327). -/
def execLinkUp (rate tx rx : Nat) (received : Option Nat) (s : State) : Out :=
  s.act fun _ d =>
    match received with
    | some p => if p == d.pos then d else d.hostLinkOf p true
    | none =>
      if d.clk.phase != .armed || d.has .HLK_STATUS_LINK_UP || !d.rateOk rate || !repairable tx rx then d
      else
        let d1 := (d.trained rate tx rx).set .HLK_STATUS_LINK_UP 1
        (({ d1 with que := { d1.que with crs := !d1.clk.booted } }.flushMsix).count 1 0x10 0 1).alertLead true

/-- LINK_TRAIN_FAIL (R39): at 24 or 32 GT/s the die tries the next lower rate; at 16 GT/s it sets TRAIN_FAIL, records
the event and will retry in 10 ms. -/
def execLinkTrainFail (rate : Nat) (s : State) : Out :=
  s.act fun e d =>
    if d.clk.phase != .armed || d.has .HLK_STATUS_LINK_UP || rate != 1 then d
    else
      let d1 := (d.set .HLK_STATUS_TRAIN_FAIL 1).reportOf e 0x0101
      { d1 with que := { d1.que with trainRetry := true } }

/-- LINK_TRAIN_RETRY (R39): the 10 ms are over and training starts again. -/
def execLinkTrainRetry (s : State) : Out :=
  s.act fun _ d => { d with que := { d.que with trainRetry := false } }


/-- CORRECTABLE_ERROR (R69): counted. -/
def execCorrectableError (s : State) : Out :=
  s.act fun _ d => (d.add .HLK_CORR_COUNT_COUNT 1).count 1 3 0 1

/-- UNSUPPORTED_REQUEST (R69): logged with its header. -/
def execUnsupportedRequest (header : Bytes) (s : State) : Out :=
  s.act fun _ d => d.logAer .unsupportedRequest header

/-- MALFORMED_TLP (R69): logged as fatal; the link is retrained. -/
def execMalformedTlp (header : Bytes) (flow : Bool) (s : State) : Out :=
  s.act fun _ d =>
    let d1 := d.logAer (if flow then .flowControl else .malformedTlp) header
    if d1.has .HLK_STATUS_LINK_UP then d1.event .HLK_EVENT_RETRAINED else d1

/-- A failed descriptor read (R64): the pair enters ERROR with ERR_CODE 0x03. -/
def Die.descriptorReadError (e : Env) (d : Die) (fn pair : Nat) : Die :=
  if d.getAt2 .QUE_PAIR_STATUS_STATE fn pair == 1 then d.pairError e fn pair 3 else d

/-- The reply of the request is not decided yet. -/
def Req.open? (r : Req) : Bool := match r.stage with | .fetched | .waiting | .running => true | _ => false

/-- A failed buffer read (R64): ACCESS_FAULT; the request leaves nothing behind (R71). DESIGN CHOICE (log 170): of a stream that has
written output, that output is overwritten with zeros and LENGTH is its length, since R17 lets none of it stand. -/
def Die.bufferReadError (e : Env) (d : Die) (rid : Nat) : Die :=
  match d.req? rid with
  | none => d
  | some r =>
    if !r.open? then d
    else
      let rep := Reply.fail .accessFault (d.jobTail rid)
      match d.rcp.jobs.find? fun j => j.rid == rid, d.rcp.streams.find? fun j => j.rid == rid with
      | some j, _ => (d.forget rid).endJob e r j rep
      | none, some j => ((d.forget rid).output e r r.outAddr (zeros j.off)).complete e r { rep with length := j.off }
      | none, none =>
        let d1 := if r.sess != 0 && r.stage == .running then d.leaveSession r.sess else d
        ((d1.forget rid).settleStamp e r .accessFault).complete e r rep

/-- A failed read of a bucket, handle slot or version block (R64): BUSY. It can meet a request that is not dispatched. -/
def Die.storeReadError (e : Env) (d : Die) (rid : Nat) : Die :=
  match d.req? rid with
  | none => d
  | some r =>
    match r.stage with
    | .fetched | .waiting => (d.forget rid).fail e r .busy 0
    | _ => d

/-- COMPLETION_TIMEOUT (R69): logged, and handled as the failed read it was. -/
def execCompletionTimeout (header : Bytes) (what : HostRead) (s : State) : Out :=
  s.act fun e d =>
    match what with
    | .unexpected => d.logAer .unexpectedCompletion header
    | .descriptor fn pair => (d.logAer .completionTimeout header).descriptorReadError e fn pair
    | .buffer rid => (d.logAer .completionTimeout header).bufferReadError e rid
    | .store rid => (d.logAer .completionTimeout header).storeReadError e rid

/-- A read that came back with poisoned data is logged with its header (R69); other errors of the read are not. -/
def Die.logPoison (d : Die) : Option Bytes → Die
  | some h => d.logAer .poisonedTlp h
  | none => d

/-- DESCRIPTOR_READ_ERROR, BUFFER_READ_ERROR, STORE_READ_ERROR (R64, R69): `poison` is the header of the completion where
its data were poisoned. -/
def execDescriptorReadError (fn pair : Nat) (poison : Option Bytes) (s : State) : Out :=
  s.act fun e d => (d.logPoison poison).descriptorReadError e fn pair
def execBufferReadError (rid : Nat) (poison : Option Bytes) (s : State) : Out :=
  s.act fun e d => (d.logPoison poison).bufferReadError e rid
def execStoreReadError (rid : Nat) (poison : Option Bytes) (s : State) : Out :=
  s.act fun e d => (d.logPoison poison).storeReadError e rid

/-- VF_ENABLE (R45): the virtual functions that TotalVFs offers appear, and each enable of an unassigned one records an
event. Before the physical function is ready the configuration write is answered with Request Retry Status (R44). -/
def execVfEnable (s : State) : Out :=
  s.act fun e d =>
    if d.que.crs || d.totalVfs == 0 then d
    else
      let d1 := { d with que := { d.que with vfEnable := true } }
      ((List.range d.totalVfs).map fun k => k + 1).foldl (fun d fn =>
        if d.hasAt .QUE_PAGE_STATUS_ASSIGNED fn then d
        else d.report e { Report.of 0x0103 with tenant := d.tenantOf fn }) d1

/-- MSIX_VECTOR_UNMASK (R68). -/
def execMsixVectorUnmask (fn vec : Nat) (s : State) : Out :=
  s.act fun _ d => if d.barOpen fn then (d.access fn).unmask fn vec else d

/-! ## Doorbells (R50, R51, R60) -/

/-- The page of a function answers (R43, R45, R454). -/
def Die.ready (d : Die) (fn : Nat) : Bool := d.hasAt .QUE_PAGE_STATUS_READY fn && d.barOpen fn

/-- QUE_REQ_TAIL_DB (R51): checked against the request head and the last accepted tail, modulo 2^32. Ignored while the
pair is not RUNNING (R54). -/
def execQueReqTailDb (fn pair tail : Nat) (s : State) : Out :=
  s.act fun e d0 =>
    let d := d0.access fn
    let p := d.pairState fn pair
    let size := 2 ^ d.getAt2 .QUE_PAIR_CTL_SIZE_LOG2 fn pair
    if !d.ready fn || d.getAt2 .QUE_PAIR_STATUS_STATE fn pair != 1 || tail % 2 ^ 32 == p.lastTail then d
    else if size < idxSub tail (d.getAt2 .QUE_REQ_HEAD_INDEX fn pair) then d.pairError e fn pair 1
    else if size < idxSub tail p.lastTail then d.pairError e fn pair 2
    else d.setPair fn pair { p with lastTail := tail % 2 ^ 32 }

/-- QUE_RPL_HEAD_DB (R50): returns reply space. -/
def execQueRplHeadDb (fn pair head : Nat) (s : State) : Out :=
  s.act fun _ d0 =>
    let d := d0.access fn
    if !d.ready fn || d.getAt2 .QUE_PAIR_STATUS_STATE fn pair != 1 then d
    else d.setPair fn pair { d.pairState fn pair with replyHead := head % 2 ^ 32 }

/-- QUE_NTF_HEAD_DB (R60): returns notification space; a pending NOTIFY_LOST entry is written. -/
def execQueNtfHeadDb (fn head : Nat) (s : State) : Out :=
  s.act fun e d0 =>
    let d := d0.access fn
    if !d.ready fn || !d.hasAt .QUE_NTF_CTL_ENABLE fn then d
    else (d.setNtf fn { d.ntfState fn with head := head % 2 ^ 32 }).ntfReportLost e fn

/-! ## Fetching (R49, R50, R54) -/

/-- The die fetches for function `fn`: booted, link up, tenant ACTIVE, no Halt (R43, R272, R376). -/
def Die.fetches (d : Die) (fn : Nat) : Bool :=
  d.canSend && d.getAt .TEN_STATE_STATE fn == 2 && !d.has .TMP_STATUS_HALTED && !d.tmp.lockdown

/-- DESCRIPTOR_FETCH (R50): the next descriptor of a RUNNING pair, when the request ring holds one and the request
owns a reply entry. A descriptor outside the tenant's regions is a failed fetch (R53, DEDUCED, log 9). A Constantan descriptor is left
on the ring while 4,096 Constantan jobs wait for dispatch, a lattice descriptor while 1,024 lattice jobs do (R186, R202). -/
def execDescriptorFetch (fn pair : Nat) (s : State) : Out :=
  s.act fun e d =>
    let p := d.pairState fn pair
    let size := 2 ^ d.getAt2 .QUE_PAIR_CTL_SIZE_LOG2 fn pair
    let h := d.getAt2 .QUE_REQ_HEAD_INDEX fn pair
    if d.getAt2 .QUE_PAIR_STATUS_STATE fn pair != 1 || !d.fetches fn || h == p.lastTail ||
       !decide (idxSub h p.replyHead < size) then d
    else
      let a := d.getAt2 .QUE_REQ_BASE_ADDR fn pair / 4096 * 4096 + h % size * 64
      if !d.dmaOk (d.tenantOf fn) a 64 false then
        (d.dmaFault e (d.tenantOf fn) a 64 false).pairError e fn pair 3
      else
        let t := d.tenantFor fn
        let r : Req := { rid := d.que.nextRid, tenant := t, origin := .pair fn pair h, desc := dmaRead e d a 64,
                         stage := .fetched, stop := none, stopBy := 0, input := [], use := none, allowed := false, sess := 0,
                         behind := [], stamp := none, spoiled := none, work := [], worked := false, drawn := 0, relaned := false,
                         orig := [], rest := [], fetchMs := d.nowMs }
        if !d.untranslated r && ((r.isConJob && decide (4096 ≤ d.conWaiting e false + d.conWaiting e true)) ||
            (r.isNttJob && decide (1024 ≤ d.nttWaiting))) then d
        else
        let d1 := d.setAt2 .QUE_REQ_HEAD_INDEX fn pair (h + 1)
        ({ d1 with que := { d1.que with reqs := d1.que.reqs ++ [r], nextRid := d1.que.nextRid + 1 } }.count 2 1 t 1 |>.count 2 0x10 t 1).port
          0 64

/-- Every range that R53 checks at enable is permitted. -/
def Die.pairChecks (d : Die) (fn pair : Nat) : Bool :=
  let k := d.getAt2 .QUE_PAIR_CTL_SIZE_LOG2 fn pair
  let t := d.tenantOf fn
  decide (6 ≤ k) && decide (k ≤ 16) &&
    d.dmaOk t (d.getAt2 .QUE_REQ_BASE_ADDR fn pair / 4096 * 4096) (2 ^ k * 64) false &&
    d.dmaOk t (d.getAt2 .QUE_RPL_BASE_ADDR fn pair / 4096 * 4096) (2 ^ k * 32) true &&
    (!d.hasAt2 .QUE_PAIR_CTL_WB_EN fn pair || d.dmaOk t (d.getAt2 .QUE_RPL_WB_ADDR fn pair / 4 * 4) 4 true)

/-- Ring pairs of a function that are enabled. -/
def Die.pairsEnabled (d : Die) (fn : Nat) : Nat := (allPairs.filter fun p => d.hasAt2 .QUE_PAIR_CTL_ENABLE fn p).length

/-- PAIR_ENABLE (R53, R274, R275): a write of QUE_PAIR_CTL with ENABLE set. Both indices return to 0 and ERR_CODE to
0x00; the pair runs, or enters ERROR with ERR_CODE 0x05. Ignored unless the tenant is ACTIVE, the pair DISABLED and
the tenant's number of pairs allows it. -/
def execPairEnable (fn pair value : Nat) (s : State) : Out :=
  s.act fun e d0 =>
    let d := if d0.barOpen fn then (d0.access fn).writePage (.host fn) fn (0x1000 + 0x100 * pair) value else d0
    if !d.ready fn || d.getAt .TEN_STATE_STATE fn != 2 || d.getAt2 .QUE_PAIR_STATUS_STATE fn pair != 0 ||
       !decide (d.pairsEnabled fn < d.getAt .TEN_SHARE_PAIRS fn) then d
    else
      let d1 := ((((d.setAt2 .QUE_PAIR_CTL_ENABLE fn pair 1).setAt2 .QUE_REQ_HEAD_INDEX fn pair 0).setAt2
        .QUE_RPL_TAIL_INDEX fn pair 0).setAt2 .QUE_PAIR_STATUS_ERR_CODE fn pair 0).setPair fn pair default
      if d1.pairChecks fn pair then d1.setAt2 .QUE_PAIR_STATUS_STATE fn pair 1 else d1.pairError e fn pair 5

/-- PAIR_DISABLE (R54, R52): a write of QUE_PAIR_CTL with ENABLE clear drains a RUNNING pair or a pair in ERROR. -/
def execPairDisable (fn pair : Nat) (s : State) : Out :=
  s.act fun e d0 =>
    let d := d0.access fn
    if !d.ready fn || !d.hasAt2 .QUE_PAIR_CTL_ENABLE fn pair then d
    else if d.getAt2 .QUE_PAIR_STATUS_STATE fn pair == 1 || d.getAt2 .QUE_PAIR_STATUS_STATE fn pair == 3
    then d.drainPair e fn pair
    else d.setAt2 .QUE_PAIR_CTL_ENABLE fn pair 0

/-- PAIR_DRAIN_DONE (R54): nothing of the draining pair is in flight; it reaches DISABLED. -/
def execPairDrainDone (fn pair : Nat) (s : State) : Out :=
  s.act fun _ d =>
    if d.getAt2 .QUE_PAIR_STATUS_STATE fn pair == 2 && !(d.que.reqs.any fun r => r.ofPair fn pair)
    then d.setAt2 .QUE_PAIR_STATUS_STATE fn pair 0 else d

/-- Every range that R60 checks at enable is permitted. -/
def Die.ntfChecks (d : Die) (fn : Nat) : Bool :=
  let k := d.getAt .QUE_NTF_CTL_SIZE_LOG2 fn
  let t := d.tenantOf fn
  decide (6 ≤ k) && decide (k ≤ 16) && d.dmaOk t (d.getAt .QUE_NTF_BASE_ADDR fn / 4096 * 4096) (2 ^ k * 32) true &&
    (!d.hasAt .QUE_NTF_CTL_WB_EN fn || d.dmaOk t (d.getAt .QUE_NTF_WB_ADDR fn / 4 * 4) 4 true)

/-- NTF_ENABLE (R60): a write of QUE_NTF_CTL with ENABLE set; a ring that fails the checks leaves ENABLE 0 and raises
the tenant's error vector. Entries lost while the ring was stopped are reported now that it has space. -/
def execNtfEnable (fn value : Nat) (s : State) : Out :=
  s.act fun e d0 =>
    let d := if d0.barOpen fn then (d0.access fn).writePage (.host fn) fn 0x2000 value else d0
    if !d.ready fn || d.hasAt .QUE_NTF_CTL_ENABLE fn then d
    else if d.ntfChecks fn then
      (((d.setAt .QUE_NTF_CTL_ENABLE fn 1).setAt .QUE_NTF_TAIL_INDEX fn 0).setNtf fn default).ntfReportLost e fn
    else d.errorVector fn

/-- NTF_DISABLE (R60): later entries are counted in QUE_NTF_LOST. -/
def execNtfDisable (fn : Nat) (s : State) : Out :=
  s.act fun _ d0 =>
    let d := d0.access fn
    if d.ready fn then d.setAt .QUE_NTF_CTL_ENABLE fn 0 else d

/-- RPL_IRQ_TIMER (R68): QUE_RPL_IRQ.TIME has elapsed since the first reply no message covers. -/
def execRplIrqTimer (fn pair : Nat) (s : State) : Out :=
  s.act fun _ d =>
    let p := d.pairState fn pair
    if d.getAt2 .QUE_RPL_IRQ_TIME fn pair == 0 || p.sinceMsg == 0 then d
    else (d.setPair fn pair { p with sinceMsg := 0 }).signal fn pair

/-- NTF_IRQ_TIMER (R68): QUE_NTF_CTL.IRQ_TIME has elapsed since the first entry no message covers. -/
def execNtfIrqTimer (fn : Nat) (s : State) : Out :=
  s.act fun _ d =>
    let n := d.ntfState fn
    if d.getAt .QUE_NTF_CTL_IRQ_TIME fn == 0 || n.sinceMsg == 0 then d
    else (d.setNtf fn { n with sinceMsg := 0 }).signal fn 16

/-- The opcode is defined (R13, and the opcode tables of spec/03 to spec/16). -/
def opcodeDefined (op : Nat) : Bool :=
  [0x10, 0x11, 0x12, 0x13, 0x20, 0x21, 0x24, 0x25, 0x26, 0x2F].contains op ||
    (decide (0x30 ≤ op) && decide (op ≤ 0x3C)) || op == 0x3F || (decide (0x40 ≤ op) && decide (op ≤ 0x45)) ||
    op == 0x4F || (decide (0x50 ≤ op) && decide (op ≤ 0x59)) || op == 0x5F ||
    (decide (0x60 ≤ op) && decide (op ≤ 0x6C)) || op == 0x70 || op == 0x71 ||
    (decide (0x80 ≤ op) && decide (op ≤ 0x85)) || (decide (0xF0 ≤ op) && decide (op ≤ 0xF2)) ||
    (decide (0xF8 ≤ op) && decide (op ≤ 0xFF))

/-- BAD_DESCRIPTOR_OPCODE (R14): a reserved family, an undefined operation, or a management opcode on a virtual
function completes BAD_DESCRIPTOR with REASON 0x01 (R77). Requests of a steward-mode tenant have another layout (R288) (log 144). -/
def execBadDescriptorOpcode (rid : Nat) (s : State) : Out :=
  s.act fun e d =>
    match d.req? rid with
    | none => d
    | some r =>
      let managed := decide (0xF0 ≤ r.opcode) && decide (r.fn? ≠ some 0)
      if r.stage != .fetched || !d.startable r || d.untranslated r || (opcodeDefined r.opcode && !managed) then d
      else d.fail e r .badDescriptor 1

end Sys2Proof.Machine
end

