-- ==== Sys2Proof/Machine/Table.lean ====
section
/-! DEFINITION. Bucket reads and interlocks, table access, locks, relocation, the table minute and the sweep (spec/04). -/
namespace Sys2Proof.Machine

/-! ## Bucket reads and interlocks (R120, R121, R137, R145) -/

/-- The match of a bucket read that still stands (R120). -/
def Die.standing (e : Env) (d : Die) (r : Req) (l : Lookup) : Option Session :=
  match d.lookKey e r with
  | none => none
  | some key => d.kft.sessions.find? fun s => l.snap.contains s.uid && d.bucketOf s == d.lookupBucket l &&
      s.matches r.tenant key && s.deleting.isNone

/-- A bucket read of a lookup has come back intact. What the bucket held when the read was issued counts, and so does what this read
itself has taken in (R120, R153). -/
def Die.bucketRead (e : Env) (d : Die) (r : Req) (l : Lookup) (before : Nat) : Die :=
  let new := (d.kft.sessions.filter fun s => decide (before ≤ s.uid)).map Session.uid
  let gen := if new.isEmpty || keyKind (d.lookupBucket l) != 0 then l.gen else (d.bucketMeta l.bucket).moveGen
  let l1 := { l with snap := l.snap ++ new, gen }
  match d.standing e r l1 with
  | some x => d.fillIn e r l1 x
  | none => Die.lookOn e 4 d r l1

/-- BUCKET_READ_COMPLETE: a read of a lookup returns from host memory. It is checked from the top of the tree down (R145); an item that
fails completes the request STORE_INTEGRITY (R157). -/
def execBucketReadComplete (rid : Nat) (s : State) : Out :=
  s.act fun e d =>
    match d.req? rid, d.kft.lookups.find? fun l => l.rid == rid && decide (1 ≤ l.step ∧ l.step ≤ 4) with
    | some r, some l =>
      let d1 := d.dropLookup rid
      match d1.readBucket e r.tenant (d1.lookupBucket l) with
      | (d2, some f) => ((d2.forget rid).fail e r f.status 0).pumpReads e
      | (d2, none) => (d2.bucketRead e r l d.kft.nextUid).pumpReads e
    | _, _ => d.pumpReads e

/-- Writes a bucket through when its interlock is granted: every session of a session bucket, or the handle slot (log 30). -/
def Die.writeThrough (e : Env) (d : Die) (k rid : Nat) : Die :=
  if keyKind k = 2 then d.beginWrite e k [(0, d.handlePayload (keyIdx k / 65536) (keyIdx k % 65536))] rid
  else d.writeSlots e k ((d.sessionsIn k).flatMap fun s => s.slots) rid

/-- What waits for an interlock when it is granted to request `rid`: a lookup goes on; a learning is handled again and passes the
interlock itself; any other change is the write of the bucket. -/
def Die.granted (e : Env) (d : Die) (bucket rid : Nat) : Die :=
  match d.req? rid with
  | some r => if r.stage == .waiting then d.resume e rid else (d.writeThrough e bucket rid).releaseWritten e
  | none => (d.writeThrough e bucket 0).releaseWritten e

/-- The interlock of a bucket is granted to the one that waits first, before those that wait behind it and those that come while it
has it (R121). -/
def Die.grant (e : Env) (d : Die) (bucket rid : Nat) : Die :=
  let learns := keyKind bucket != 2 && (d.req? rid).any fun r =>
    (r.stage == .fetched || r.stage == .waiting) && !(isRecordOp r.opcode || r.opcode / 16 == 8)
  if learns then (if (d.req? rid).any fun r => r.stage == .waiting then d.setStage rid .fetched else d)
  else
    let behind := (d.kft.ilWait.filter fun w => w.1 == bucket).tail
    let d1 : Die := { d with kft := { d.kft with ilWait := d.kft.ilWait.filter fun w => w.1 != bucket } }
    let d2 := d1.granted e bucket rid
    { d2 with kft := { d2.kft with ilWait := behind ++ d2.kft.ilWait } }

/-- INTERLOCK_GRANTED: the interlock of a bucket goes to the first change or lookup that waits for it (R121), unless a change still
holds it. -/
def execInterlockGranted (bucket : Nat) (s : State) : Out :=
  s.act fun e d =>
    match d.kft.ilWait.find? fun w => w.1 == bucket with
    | none => d
    | some w => if d.inWrite bucket then d else d.grant e bucket w.2

/-- BUCKET_WAIT_TIMEOUT: 2 µs behind a bucket lock end in BUSY (R136, R137). -/
def execBucketWaitTimeout (rid : Nat) (s : State) : Out :=
  s.act fun e d =>
    match d.req? rid with
    | some r => if d.kft.lockWait.any fun w => w.1 == rid then (d.forget rid).fail e r .busy 0 else d
    | none => d

/-! ## Table access (R134 to R138) -/

/-- A table-access request: its checks, then its work here or on its home die. -/
def Die.tableCommand (e : Env) (d : Die) (rid op : Nat) (checks : Req → Die → Die) : Die :=
  d.handle e rid op fun r => checks r (d.tableRequest e r fun k d => d.unlock e k)

def execTblLock (rid : Nat) (s : State) : Out :=
  s.act fun e d => d.tableCommand e rid 0x80 fun r k =>
    if r.zeroBytes 56 64 then d.rangesOk e r k else d.fail e r .badDescriptor 1

/-- TBL_UNLOCK: the waiting lookups proceed once the lock is gone. -/
def Die.unlockCommand (e : Env) (d : Die) (r : Req) : Die :=
  let home := handleHome r.handle
  let k := mainKey home (handleBucket r.handle)
  if d.unserved home || d.serverOf home != d.pos then d.forward e r home
  else if d.badHandle r (.handle r.handle) || !d.servesSlice home then d.fail e r .noSession 1
  else if (d.lockOf k).any fun l => l.tenant == r.tenant then ((d.dropLock k).lockReply e r).unlock e k
  else d.lockReply e r

def execTblUnlock (rid : Nat) (s : State) : Out :=
  s.act fun e d => d.handle e rid 0x81 fun r =>
    if r.zeroBytes 56 64 then d.rangesOk e r (d.unlockCommand e r) else d.fail e r .badDescriptor 1

def execTblFind (rid : Nat) (s : State) : Out :=
  s.act fun e d => d.tableCommand e rid 0x82 fun r k =>
    if !r.zeroBytes 57 64 then d.fail e r .badDescriptor 1
    else if !decide (1 ≤ r.inLen ∧ r.inLen ≤ 20) || !(r.byte 56 == 1 || r.byte 56 == 3) then d.fail e r .badDescriptor 2
    else d.rangesOk e r k

def execTblRead (rid : Nat) (s : State) : Out :=
  s.act fun e d => d.tableCommand e rid 0x83 fun r k =>
    if !r.zeroBytes 56 64 then d.fail e r .badDescriptor 1
    else d.rangesOk e r (if r.outLen < 64 then d.complete e r (tooSmall 64) else k)

def execTblUpdate (rid : Nat) (s : State) : Out :=
  s.act fun e d => d.tableCommand e rid 0x84 fun r k =>
    if bits (r.byte 56) 7 1 != 0 || bits (r.byte 57) 7 1 != 0 || bits (r.byte 58) 7 1 != 0 || !r.zeroBytes 59 64
    then d.fail e r .badDescriptor 1
    else if bit (r.byte 56) 0 && bit (r.byte 57) 0 then d.fail e r .badDescriptor 2
    else d.rangesOk e r k

def execTblDelete (rid : Nat) (s : State) : Out :=
  s.act fun e d => d.tableCommand e rid 0x85 fun r k =>
    if r.zeroBytes 56 64 then d.rangesOk e r k else d.fail e r .badDescriptor 1

/-- The slots of a session marked deleted are zeroized and its share is credited; relocation into the slots it frees in its main bucket
follows the write (R128, R138). -/
def Die.deleteSession (e : Env) (d : Die) (x : Session) (rid : Nat) : Die :=
  let d1 := d.removeSession e x rid
  if x.crumb then d1
  else { d1 with kft := { d1.kft with relocDue := d1.kft.relocDue ++ [(mainKey x.home x.bucket, rid)] } }.stepMoves e

/-- TBL_DELETE_COMPLETE (R138): the last record of a session marked deleted is over; the delete completes when its slots are written
empty and what can be relocated is relocated. A session that a handshake step learned and did not install goes the same way once that
step has ended (R209, R218). -/
def execTblDeleteComplete (rid : Nat) (s : State) : Out :=
  s.act fun e d =>
    match d.kft.sessions.find? fun x => x.deleting == some rid with
    | none => d
    | some x =>
      if x.inFlight != 0 || d.held (d.bucketOf x) then d
      else match d.req? rid with
        | some r =>
          if r.opcode / 16 == 8 then (d.deleteSession e x rid).completeWritten e r (d.recordReply r x (Reply.done 0))
          else if r.done then d.deleteSession e x rid else d
        | none => d.deleteSession e x rid

/-- LOCK_TIMEOUT (R136): the die releases a lock held too long. -/
def execLockTimeout (bucket : Nat) (s : State) : Out :=
  s.act fun e d => if d.locked bucket then (d.unlock e bucket).event .KFT_EVENT_LOCK_TIMEOUT else d

/-- RELOCATE (R128): a session of main bucket `bucket` returns from its Crumb bucket. -/
def execRelocate (bucket : Nat) (s : State) : Out :=
  s.act fun e d => if keyKind bucket = 0 then (d.relocate e bucket 0).1 else d

/-- TABLE_MINUTE_TICK (R129): the lead die advances the minute and broadcasts it; on another die this is the broadcast's
arrival (log 51). -/
def execTableMinuteTick (s : State) : Out :=
  s.act fun _ d =>
    let d1 := d.wrap .KFT_MINUTE_MINUTE 1
    if d1.isLead then d1.sendRing .minute none (leBytes 2 (d1.get .KFT_MINUTE_MINUTE)) else d1

/-! ## The sweep (R131 to R133, R283) -/

/-- Positions whose slices this die sweeps. -/
def Die.sweepHomes (d : Die) : List Nat :=
  (if d.get .MLF_STATUS_STATE == 1 then [d.pos] else []) ++
    (if d.has .MLF_STATUS_ADOPTED then [d.get .MLF_STATUS_ADOPTED_POS] else [])

/-- Buckets of one slice: main buckets, then Crumb buckets. -/
def Die.sliceBuckets (d : Die) : Nat := d.mainBuckets + d.mainBuckets / 32

/-- The bucket that the sweep visits at a position of its pass. -/
def Die.sweepBucket (d : Die) (p : Nat) : Option Nat :=
  if d.sliceBuckets = 0 then none
  else match d.sweepHomes[p / d.sliceBuckets]? with
    | none => none
    | some h =>
      let i := p % d.sliceBuckets
      some (if i < d.mainBuckets then mainKey h i else crumbKey h (i - d.mainBuckets))

/-- The tenant is being removed (R283). -/
def Die.removingTenant (d : Die) (tenant : Nat) : Bool := d.kft.removing.any fun x => x.1 == tenant

/-- A removal is over once its pass has ended and its handle slots are empty: the tenant returns to IDLE (R283). -/
def Die.removeDone (d : Die) (fn : Nat) : Die :=
  if d.getAt .TEN_STATE_STATE fn == 6 && !(d.ctl fn).regionClear && !d.removingTenant (d.tenantOf fn)
  then ((d.setAt .TEN_STATE_STATE fn 1).setAt .TEN_STATE_CMD_RESULT fn 2).event .TEN_EVENT_REMOVE_DONE else d

/-- The end of a sweep pass: removals that waited for it are over, and those that waited for it to end wait for the next. -/
def Die.endPass (d : Die) : Die :=
  let ended := (d.kft.removing.filter fun x => !x.2).map fun x => x.1
  let left := (d.kft.removing.filter fun x => x.2).map fun x => (x.1, false)
  let d1 := { d with kft := { d.kft with sweepPos := 0, passStart := d.nowMs, passLate := false, removing := left } }
  let d2 := (d1.wrap .KFT_SWEEP_STATUS_PASSES 1).set .KFT_SWEEP_STATUS_PROGRESS 0
  ended.foldl (fun d t => match d.fnOf? t with | some fn => d.removeDone fn | none => d) d2

/-- A pass that takes longer than P − 1 minutes is late (R132). -/
def Die.checkLate (d : Die) : Die :=
  if !d.kft.passLate && decide (d.kft.passStart + 60000 * (d.get .KFT_SWEEP_CTL_PASS_MIN - 1) < d.nowMs)
  then { d with kft := { d.kft with passLate := true } }.event .KFT_EVENT_SWEEP_LATE else d

/-- Goes on to the next bucket. -/
def Die.sweepOn (d : Die) : Die :=
  let n := d.sweepHomes.length * d.sliceBuckets
  let p := d.kft.sweepPos + 1
  if n ≤ p then d.endPass
  else { d with kft := { d.kft with sweepPos := p } }.set .KFT_SWEEP_STATUS_PROGRESS (65536 * p / n)

/-- The sessions of a bucket that are over their age, or whose tenant is being removed (R131, R283). -/
def Die.overdue (d : Die) (k : Nat) : List Session :=
  (d.sessionsIn k).filter fun s => s.deleting.isNone && (d.removingTenant s.tenant || d.aged s)

/-- Those sessions are gone, their shares credited and their slots written empty (R132). -/
def Die.dropOverdue (e : Env) (d : Die) (k : Nat) : Die :=
  let gone := d.overdue k
  let d1 := { d with kft := { d.kft with sessions := d.kft.sessions.filter fun x => !gone.contains x } }
  (gone.foldl (fun d s => d.countOut s) d1).writeSlots e k (gone.flatMap fun s => s.slots) 0

/-- Removes what is overdue in a bucket; relocation into the slots that it frees follows (R128), and each session enters its tenant's
batch (R133). -/
def Die.sweepRemove (e : Env) (d : Die) (k : Nat) : Die :=
  let gone := d.overdue k
  if gone.isEmpty then d
  else
    let d3 := d.dropOverdue e k
    let d4 := if keyKind k != 0 then d3 else { d3 with kft := { d3.kft with relocDue := d3.kft.relocDue ++ [(k, 0)] } }.stepMoves e
    gone.foldl (fun d s =>
      let d := d.count 5 4 s.tenant 1
      if d.removingTenant s.tenant then d else d.addAged e s) d4

/-- What a visit does with a bucket that was read intact: a locked bucket, and one whose interlock is held, are visited again. DESIGN
CHOICE (log 160): the lock that defers a visit is that of the visited bucket alone, so that sessions may leave a Crumb bucket while their
home bucket is locked. -/
def Die.sweepBucketOk (e : Env) (d : Die) (k : Nat) : Die :=
  if d.locked k || d.held k then d else (d.sweepRemove e k).sweepOn

/-- A bucket read of the sweep has come back from host memory (R132, R145): an item that fails its check is reported, and the sweep goes
on. -/
def Die.sweepRead (e : Env) (d : Die) (k : Nat) : Die :=
  match d.readBucket e 0 k with
  | (d1, some _) => d1.sweepOn
  | (d1, none) => d1.sweepBucketOk e k

/-- SWEEP_VISIT: the sweep visits its next bucket; `failed` says that the host completed the read with an error, with poisoned data or
not at all. A bucket never written needs no read (R144). -/
def execSweepVisit (failed : Bool) (s : State) : Out :=
  s.act fun e d0 =>
    let d := d0.checkLate
    match d.sweepBucket d.kft.sweepPos with
    | none => if d.sweepHomes.isEmpty || d.sliceBuckets == 0 then d0 else d.endPass
    | some k =>
      if d.kft.sweepRetry.isSome then d
      else if d.bucketPoisoned k then d.sweepOn
      else if failed && !d.knownEmpty k then
        let d1 := d.storeRead (bucketSlots k * 128)
        { d1 with kft := { d1.kft with sweepRetry := some k } }
      else d.sweepRead e k

/-- SWEEP_READ_RETRY (R132): the second read of a bucket; when it fails too the bucket is left until the next pass. -/
def execSweepReadRetry (failed : Bool) (s : State) : Out :=
  s.act fun e d0 =>
    match d0.kft.sweepRetry with
    | none => d0
    | some k =>
      let d : Die := { d0 with kft := { d0.kft with sweepRetry := none } }
      if failed then ((d.storeRead (bucketSlots k * 128)).event .KFT_EVENT_SWEEP_LATE).sweepOn else d.sweepRead e k

/-- AGED_BATCH_TIMER (R133): 100 ms after the first removal of an open batch. `received` is a notification that another die sends for a
tenant of this one, which is written here (R60, log 33). -/
def execAgedBatchTimer (tenant : Nat) (received : Option Bytes) (s : State) : Out :=
  s.act fun e d =>
    match received with
    | none => d.closeBatch e tenant
    | some b => if (d.fnOf? tenant).isSome then d.notifyReceived e tenant b else d

end Sys2Proof.Machine
end

