-- ==== Sys2Proof/Machine/Tenants.lean ====
section
/-! DEFINITION. Tenants, sharing, migration and recovery (spec/10), function level resets, and the loss of the host link
(R70). -/
namespace Sys2Proof.Machine

/-! ## Tenant commands (R272, R273) -/

/-- A request of function `fn` is in flight. -/
def Die.fnBusy (d : Die) (fn : Nat) : Bool := d.que.reqs.any fun r => r.ofFn fn

/-- TEN_CMD accepts command `cmd` in the state of function `fn` (R273); function 0 takes none. -/
def Die.accepts (d : Die) (fn cmd : Nat) : Bool :=
  match cmd with
  | 1 => d.getAt .TEN_STATE_STATE fn == 1
  | 2 => d.getAt .TEN_STATE_STATE fn == 2
  | 3 => d.getAt .TEN_STATE_STATE fn == 4
  | 4 => d.getAt .TEN_STATE_STATE fn == 2 || d.getAt .TEN_STATE_STATE fn == 3 || d.getAt .TEN_STATE_STATE fn == 4
  | 5 => d.getAt .TEN_STATE_STATE fn == 1 || d.getAt .TEN_STATE_STATE fn == 4
  | _ => false

/-- A write of TEN_CMD for function `fn` of this die: refused with no effect, or `k` (R273). -/
def Die.tenCommand (d : Die) (fn cmd : Nat) (k : Die → Die) : Die :=
  let d1 := d.access 0
  if fn == 0 || decide (256 ≤ fn) then d1
  else if d1.accepts fn cmd then k d1
  else d1.setAt .TEN_STATE_CMD_RESULT fn 3

/-- The state and the result of a command. -/
def Die.setTenant (d : Die) (fn state result : Nat) : Die := (d.setAt .TEN_STATE_STATE fn state).setAt .TEN_STATE_CMD_RESULT fn result

/-- TEN_CMD ACTIVATE (R273). -/
def execActivate (fn : Nat) (s : State) : Out :=
  s.act fun _ d => d.tenCommand fn 1 fun d => (d.setTenant fn 2 2).setAt .QUE_PAGE_STATUS_READY fn 1

/-- TEN_CMD RESUME (R273, R280): fetching goes on at the next DESCRIPTOR_FETCH of each RUNNING pair. -/
def execResume (fn : Nat) (s : State) : Out := s.act fun _ d => d.tenCommand fn 3 fun d => d.setTenant fn 2 2

/-- A drain of a function starts: `cause` 1 QUIESCE, 2 TEN_CMD RESET, 3 FLR. Its work is stopped with status `st`, its
bucket locks are released (R278, R281). A reset that takes over a quiesce goes on with its count (R273, R279). -/
def Die.startDrain (e : Env) (d : Die) (fn cause : Nat) (st : Status) : Die :=
  let d1 := d.updCtl fn fun c => { c with cause, stopped := if c.cause == 1 then c.stopped else 0, since := d.nowMs }
  (d1.stopWork e (fun r => r.ofFn fn) st).releaseLocks e (d1.tenantFor fn)

/-- TEN_CMD QUIESCE (R278). -/
def execQuiesce (fn : Nat) (s : State) : Out :=
  s.act fun e d => d.tenCommand fn 2 fun d => (d.setTenant fn 3 1).startDrain e fn 1 .quiesced

/-- TEN_CMD RESET (R281): the quiesce with ABORTED; a RESET while QUIESCING takes it over (R273). -/
def execReset (fn : Nat) (s : State) : Out :=
  s.act fun e d => d.tenCommand fn 4 fun d =>
    (((d.setTenant fn 5 1).setAt .TEN_STATE_FORCED fn 0).setAt .QUE_PAGE_STATUS_READY fn 0).startDrain e fn 2 .aborted

/-- The notifications and the time of a quiesce that has ended (R279): `kind` 0 a quiesce, 1 the quiesce phase of a
reset. -/
def Die.reportQuiesce (e : Env) (d : Die) (fn kind : Nat) : Die :=
  let c := d.ctl fn
  let data := leBytes 1 kind ++ zeros 3 ++ leBytes 4 (d.get .TEN_EPOCH_COUNT)
  let d1 := d.notify e (d.tenantOf fn) 4 0xFF c.stopped (zeros 8) 0 data
  let d2 := if fn == 0 then d1 else d1.notify e (d.tenantOf 0) 4 0xFF c.stopped (zeros 8) 0 data
  d2.setAt .TEN_QUIESCE_TIME_VALUE fn ((d.nowMs - c.since) * 1000)

/-- The quiesce phase of a TEN_CMD RESET is over (R279, R281). -/
def Die.endResetDrain (e : Env) (d : Die) (fn : Nat) : Die :=
  (d.reportQuiesce e fn 1).updCtl fn fun c => { c with cause := 4 }

/-- The last work of a quiescing tenant has replied (R279). -/
def Die.quiesceDone (e : Env) (d : Die) (fn : Nat) : Die :=
  if d.fnBusy fn then d
  else if d.getAt .TEN_STATE_STATE fn == 3 then
    (((d.reportQuiesce e fn 0).setTenant fn 4 2).event .TEN_EVENT_QUIESCE_DONE).updCtl fn fun c => { c with cause := 0 }
  else if d.getAt .TEN_STATE_STATE fn == 5 && (d.ctl fn).cause == 2 then d.endResetDrain e fn
  else d

/-- The drain of a function has run for 1 ms (R279, R281). -/
def Die.drainLate (d : Die) (fn : Nat) : Bool := decide ((d.ctl fn).since < d.nowMs)

/-- QUIESCE_LATE (R279): a quiesce that has run for 1 ms. -/
def execQuiesceLate (fn : Nat) (s : State) : Out :=
  s.act fun _ d => if d.getAt .TEN_STATE_STATE fn == 3 && d.drainLate fn then d.event .TEN_EVENT_QUIESCE_LATE else d

/-- TEN_CMD_REFUSED (R273): a command that the tenant's state does not take has no effect. -/
def execTenCmdRefused (fn cmd : Nat) (s : State) : Out :=
  s.act fun _ d => if fn != 0 && d.accepts fn cmd then d else d.tenCommand fn cmd id

/-! ## Tenant reset (R281, R282) -/

/-- TENANT_RESET_FORCED (R281): a drain not over after 1 ms is abandoned. -/
def execTenantResetForced (fn : Nat) (s : State) : Out :=
  s.act fun e d =>
    let c := d.ctl fn
    if d.getAt .TEN_STATE_STATE fn != 5 || !(c.cause == 2 || c.cause == 3) || !d.fnBusy fn || !d.drainLate fn then d
    else
      let d1 := (d.discardWhere e fun r => r.ofFn fn).updCtl fn fun c => { c with cause := if c.cause == 2 then 4 else c.cause }
      ((d1.setAt .TEN_STATE_FORCED fn 1).event .TEN_EVENT_FORCED).report e { Report.of 0x0701 with tenant := d.tenantOf fn }

/-- The volatile objects of a tenant expire, here and, as ensemble state, on every die (R237, R321). -/
def Die.expireVolatile (d : Die) (tenant : Nat) : Die :=
  let d1 := d.raiseVgen tenant
  if d.size == 1 then d1 else d1.sendRing .tenant none (leBytes 2 tenant ++ [0])

/-- Removes the loaded curves of a tenant (R194, R282). -/
def Die.dropCurves (d : Die) (tenant : Nat) : Die :=
  { d with con := { d.con with curves := d.con.curves.filter fun c => c.tenant != tenant } }

/-- The fields of the tenant page of function `fn` whose Reset column names Tenant at their reset values, and every ring
pair DISABLED (R282). -/
def Die.clearPage (d : Die) (fn : Nat) : Die :=
  (d.resetFlds fun f i => f.info.page && f.info.cls == .tenant && i == fn).resetRings fn

/-- The MSI-X table of a function as PCIe leaves it after a function level reset: masked, zero, nothing pending (R282) (log 73). -/
def Die.dropMsix (d : Die) (fn : Nat) : Die :=
  { d with que := { d.que with msix := d.que.msix.filter fun m => m.1 / 32 != fn,
                               vfEnable := d.que.vfEnable && fn != 0 } }

/-- The clearing of a tenant reset (R282): steward translation state has left with the requests; non-volatile keys,
session slots, resume tokens, shares, dirty logging and TEN_GEN stay. -/
def Die.clearTenant (e : Env) (d : Die) (fn : Nat) (flr : Bool) : Die :=
  let t := d.tenantFor fn
  let d1 := d.clearPage fn
  let d2 := if flr then d1.dropMsix fn else d1
  (((d2.expireVolatile t).dropTenantCtxs t).dropCurves t).releaseLocks e t

/-- TENANT_RESET_CLEAR (R281, R282, R273): the drain is over; the clearing is done, and the tenant is ready again, but for
an IDLE one. -/
def execTenantResetClear (fn : Nat) (s : State) : Out :=
  s.act fun e d =>
    let c := d.ctl fn
    if d.fnBusy fn || !(c.cause == 2 || c.cause == 3 || c.cause == 4) then d
    else
      let d0 := if c.cause == 2 then d.endResetDrain e fn else d
      let d1 := d0.clearTenant e fn (c.cause == 3)
      let st := d1.getAt .TEN_STATE_STATE fn
      let d2 := d1.setTenant fn (if st == 5 then 2 else st) (if st == 5 && d1.hasAt .TEN_STATE_FORCED fn then 4 else 2)
      (if st == 1 then d2 else d2.setAt .QUE_PAGE_STATUS_READY fn 1).updCtl fn fun c => { c with cause := 0 }

/-- An FLR of one function (R273, R281): accepted in every state but UNASSIGNED and REMOVING. No DMA write is issued for it
from here on; in IDLE and QUIESCED only the clearing follows. -/
def Die.flrOne (e : Env) (d : Die) (fn : Nat) : Die :=
  let st := d.getAt .TEN_STATE_STATE fn
  if st == 0 || st == 6 then d
  else
    let d1 := (d.setAt .TEN_STATE_CMD_RESULT fn 1).setAt .QUE_PAGE_STATUS_READY fn 0
    if st == 1 || st == 4 then d1.updCtl fn fun c => { c with cause := 3 }
    else ((d1.setAt .TEN_STATE_STATE fn 5).setAt .TEN_STATE_FORCED fn 0).startDrain e fn 3 .aborted

/-- An FLR of a function; of the physical function, of every function of the die (R281). -/
def Die.flr (e : Env) (d : Die) (fn : Nat) : Die :=
  if fn == 0 then allFns.foldl (fun d f => d.flrOne e f) d else d.flrOne e fn

/-- FUNCTION_LEVEL_RESET (R281). -/
def execFunctionLevelReset (fn : Nat) (s : State) : Out := s.act fun e d => d.flr e fn

/-- LINK_DOWN (R70): fetching stops, work in flight is discarded without output, and every function is handled as after an
FLR. -/
def Die.linkDown (e : Env) (d : Die) : Die :=
  if !d.has .HLK_STATUS_LINK_UP then d
  else
    let d1 := (((d.set .HLK_STATUS_LINK_UP 0).set .HLK_STATUS_RATE 0).event .HLK_EVENT_DOWN).reportOf e 0x0102
    ((d1.discardWhere e fun _ => true).flr e 0).alertLead false

/-- LINK_DOWN (R70, R69): a link that goes down by surprise is logged as fatal. The model takes every LINK_DOWN for one
(log 152). `received` is the position of another die that tells this one, the lead, of its link. -/
def execLinkDown (received : Option Nat) (s : State) : Out :=
  s.act fun e d =>
    match received with
    | some p => if p == d.pos then d else d.hostLinkOf p false
    | none => if d.has .HLK_STATUS_LINK_UP then (d.logAer .surpriseDown []).linkDown e else d

/-- RETRAIN (R39, R40): HLK_CTL.RETRAIN written 1; training ends at a rate the limit allows and the bit is clear again. A
fault beyond repair leaves the link down. -/
def execRetrain (rate tx rx : Nat) (s : State) : Out :=
  s.act fun e d =>
    if !d.barOpen 0 || !d.rateOk rate then d
    else if !repairable tx rx then (d.access 0).linkDown e
    else (((d.access 0).trained rate tx rx).event .HLK_EVENT_RETRAINED).set .HLK_CTL_RETRAIN 0

/-- LANE_REPAIR_RETRAIN (R40): a retrain with repair; no request fails because of it. A fault beyond repair leaves the link
down. -/
def execLaneRepairRetrain (rate tx rx : Nat) (s : State) : Out :=
  s.act fun e d =>
    if !d.has .HLK_STATUS_LINK_UP || !d.rateOk rate then d
    else if !repairable tx rx then d.linkDown e
    else (d.trained rate tx rx).event .HLK_EVENT_RETRAINED

/-! ## Removal (R283) -/

/-- What a removal destroys at once: cached objects and sessions, contexts, curves, locks, policy state, steward keys, rings
and the tenant-page fields; TEN_GEN and VGEN rise; dirty logging ends. -/
def Die.destroyTenant (e : Env) (d : Die) (fn : Nat) : Die :=
  let t := d.tenantOf fn
  let d1 := ((d.mapObjs (fun o => o.tenant == t) fun o => { o with ways := [] }).mapSessions (fun x => x.tenant == t)
    fun x => { x with ways := [] }).clearTenant e fn false
  let d2 := d1.raiseTenGen t
  let d3 := ((((d2.setAt .TEN_STATE_LOGGING fn 0).setAt .TEN_MIG_BITMAP_VALUE fn 0).setAt .TEN_MIG_RANGE_BASE_VALUE fn
    0).setAt .TEN_MIG_RANGE_LEN_VALUE fn 0).updCtl fn fun c => { c with marks := [], cached := [], late := [], regionClear := true }
  { d3 with key := { d3.key with policyState := d3.key.policyState.filter fun p => p.1 / 64 != t },
            ten := { d3.ten with steward := d3.ten.steward.filter (fun k => k.tenant != t), retired := d3.ten.retired.filter fun k => k.1 != t } }

/-- The sweep removes a tenant's sessions from now on (R283). A die that sweeps no slice has none. -/
def Die.sweepOut (d : Die) (tenant : Nat) : Die :=
  if d.sweepHomes.isEmpty || d.sliceBuckets == 0 then d
  else { d with kft := { d.kft with removing := d.kft.removing ++ [(tenant, true)] } }

/-- What another die tells of its tenant: it is removed, so that TEN_GEN rises and its sessions go; or its volatile objects have
expired, which a removal's own message tells too (R225, R237, R283). -/
def Die.tenantNews (d : Die) (tenant : Nat) (removed : Bool) : Die :=
  if removed then (d.raiseTenGen tenant).sweepOut tenant else d.raiseVgen tenant

/-- TEN_CMD REMOVE (R283): the sweep removes the sessions; every other die is told to sweep them too. `received` is what another die
tells of a tenant of its own: the tenant, and whether it is removed or only its VGEN has risen (log 203). -/
def execRemove (fn : Nat) (received : Option (Nat × Bool)) (s : State) : Out :=
  s.act fun e d =>
    match received with
    | some x => d.tenantNews x.1 x.2
    | none => d.tenCommand fn 5 fun d =>
      let d2 := ((d.setTenant fn 6 1).destroyTenant e fn).sweepOut (d.tenantOf fn)
      if d.size == 1 then d2 else d2.sendRing .tenant none (leBytes 2 (d.tenantOf fn) ++ [1])

/-- HANDLE_REGION_CLEAR (R283): every handle slot of the tenant's region is written empty, under raised versions (R147). -/
def execHandleRegionClear (fn : Nat) (s : State) : Out :=
  s.act fun e d =>
    let t := d.tenantOf fn
    if d.getAt .TEN_STATE_STATE fn != 6 || !(d.ctl fn).regionClear then d
    else
      let cap := leAt (bodyOf d.tin.running 4 t) 28 3
      let d1 := { d with key := { d.key with objs := d.key.objs.filter fun o => o.tenant != t } }
      let d2 : Die := (List.range cap).foldl (fun d h => d.writeHandle e t h 0) d1
      (d2.updCtl fn fun c => { c with regionClear := false }).removeDone fn

/-! ## Shares and the scheduling epoch (R275 to R277, R36, R37) -/

/-- Units of each block that an epoch counts: lanes and Constantan cores in service and not held, lattice cores in service. -/
def Die.epochUnits (d : Die) : List Nat :=
  [((List.range 8).filter fun u => d.inUse .lane u).length, ((List.range 24).filter fun u => d.inUse .con u).length,
   (d.inService .ntt).length]

/-- What TEN_USE shows of `used` cycles: in 1/256 of the capacity, at most 255. -/
def useShown (used cap : Nat) : Nat := if cap = 0 then 0 else min 255 (used * 256 / cap)

/-- Epochs of debt outstanding in a block, at most 255. -/
def debtShown (debt full : Nat) : Nat := if debt = 0 then 0 else if full = 0 then 255 else min 255 (ceilDiv debt full)

/-- The end of an epoch for one function: what it used is shown, left-over budget lapses, and the budget of the coming
epoch, with capacities `caps`, first pays its debt (R276). -/
def Die.epochFn (d : Die) (caps : List Nat) (fn : Nat) : Die :=
  let c := d.ctl fn
  let old := d.ten.capacity
  let full (b : Nat) : Nat := d.shareOf fn b * caps.getD b 0 / 256
  let active := d.getAt .TEN_STATE_STATE fn == 2
  let debt (b : Nat) : Nat := if active then c.debt.getD b 0 - full b else c.debt.getD b 0
  let budget (b : Nat) : Nat := if active then full b - c.debt.getD b 0 else 0
  let d1 := (((d.setAt .TEN_USE_LANE fn (useShown (c.used.getD 0 0) (old.getD 0 0))).setAt .TEN_USE_CON fn
    (useShown (c.used.getD 1 0) (old.getD 1 0))).setAt .TEN_USE_NTT fn (useShown (c.used.getD 2 0) (old.getD 2 0))).setAt
    .TEN_USE_DEBT fn (max (debtShown (debt 0) (full 0)) (max (debtShown (debt 1) (full 1)) (debtShown (debt 2) (full 2))))
  d1.setCtl fn { c with budget := [budget 0, budget 1, budget 2], debt := [debt 0, debt 1, debt 2], used := [], lent := [] }

/-- The highest-numbered enabled pairs above the number a function may enable drain (R277). -/
def Die.dropPairs (e : Env) (d : Die) (fn : Nat) : Die :=
  let on := allPairs.filter fun p => d.hasAt2 .QUE_PAIR_CTL_ENABLE fn p
  (on.drop (d.getAt .TEN_SHARE_PAIRS fn)).foldl (fun d p =>
    if d.getAt2 .QUE_PAIR_STATUS_STATE fn p == 1 || d.getAt2 .QUE_PAIR_STATUS_STATE fn p == 3 then d.drainPair e fn p
    else d.setAt2 .QUE_PAIR_CTL_ENABLE fn p 0) d

/-- Functions that work: their section is present. -/
def Die.assignedFns (d : Die) : List Nat := allFns.filter fun f => d.getAt .TEN_STATE_STATE f != 0

/-- The cap of the Tin image's operating-point section; 18 W under the default configuration (R299, R309). -/
def Die.imageCap (d : Die) : Nat := if d.tin.running.isEmpty then 180 else leAt (bodyOf d.tin.running 6 0) 2 2

/-- The pending operating point, cap, shares and delta take effect (R37, R277, R308). A cap that the ensemble manager
writes is in force under Capped; the other points take the image's (R36) (log 186). -/
def Die.applyPending (e : Env) (d : Die) : Die :=
  let d1 := if d.tin.atEpoch.isEmpty then d else d.applyLive d.tin.atEpoch
  let d2 := d1.set .PWR_STATUS_POINT (d1.get .PWR_OPPOINT_POINT)
  let d3 := { d2 with clk := { d2.clk with capInForce := if d2.get .PWR_OPPOINT_POINT == 3 then d2.get .PWR_OPPOINT_CAP else d2.imageCap } }
  let d4 : Die := (d3.rehold .lane).rehold .con
  d4.assignedFns.foldl (fun d f => d.dropPairs e f) d4

/-- SCHED_EPOCH (R276): the boundary of an epoch. CLK_TAB runs once the clocks are stable and stops with the power domains
(R390, R403) (log 10). -/
def execSchedEpoch (s : State) : Out :=
  s.act fun e d =>
    if !d.clk.stable || d.parked then d
    else
      let used := (d.assignedFns.map fun f => (d.ctl f).used.getD 0 0).sum
      let cap := d.ten.capacity.getD 0 0
      let d1 := (d.wrap .TEN_EPOCH_COUNT 1).applyPending e
      let caps := d1.epochUnits.map fun u => u * 100000
      let d2 : Die := d1.assignedFns.foldl (fun d f => d.epochFn caps f) d1
      let d3 := { d2 with ten := { d2.ten with capacity := caps, laneUse := if cap = 0 then 0 else used * 100 / cap },
                          rng := { d2.rng with units := [] } }
      d3.placeJobs e

/-! ## Dirty logging (R284 to R286) -/

/-- FUNCTION of a management request. -/
def Req.logFn (r : Req) : Nat := r.byte 56
/-- BITMAP_ADDR, RANGE_BASE and RANGE_LEN. -/
def Req.bitmap (r : Req) : Nat := leAt r.desc 16 8
def Req.rangeBase (r : Req) : Nat := leAt r.desc 24 8
def Req.rangeLen (r : Req) : Nat := leAt r.desc 32 8

/-- The checks that the logging operations share (R284, R77): management requests come from function 0; reserved bytes,
alignment, then the function. -/
def Die.logRequest (e : Env) (d : Die) (rid op : Nat) (k : Req → Die) : Die :=
  d.handle e rid op fun r =>
    let st := d.getAt .TEN_STATE_STATE r.logFn
    let ranged := op == 0xF0
    if r.fn? != some 0 then d
    else if !r.zeroBytes (if ranged then 40 else 24) 56 || !r.zeroBytes 57 64 || (op == 0xF2 && r.bitmap != 0)
    then d.fail e r .badDescriptor 1
    else if r.bitmap % 4096 != 0 || (ranged && (r.rangeBase % 2 ^ 21 != 0 || r.rangeLen % 2 ^ 21 != 0 ||
      decide (2 ^ 42 < r.rangeLen))) then d.fail e r .badDescriptor 2
    else if r.logFn == 0 || st == 0 || st == 6 then d.fail e r .badDescriptor 0x0A
    else if ranged && d.hasAt .TEN_STATE_LOGGING r.logFn then d.fail e r .limitReached 8
    else if !ranged && !d.hasAt .TEN_STATE_LOGGING r.logFn then d.fail e r .noSession 8
    else k r

/-- The bitmap of `len` tracked bytes lies inside the physical function's DMA regions; `k` goes on. -/
def Die.bitmapOk (e : Env) (d : Die) (r : Req) (len : Nat) (k : Die) : Die :=
  let n := len / 32768
  if !d.dmaOk r.tenant r.bitmap n false then (d.dmaFault e r.tenant r.bitmap n false).fail e r .accessFault 0
  else if !d.dmaOk r.tenant r.bitmap n true then (d.dmaFault e r.tenant r.bitmap n true).fail e r .accessFault 0
  else k

/-- Merges every cached line of the active bitmap; the marks made since the fetch of the harvest are those of the next bitmap (R286). -/
def Die.mergeMarks (e : Env) (d : Die) (fn : Nat) : Die :=
  let d1 : Die := (d.ctl fn).cached.foldl (fun d p => d.mergeMark e fn p) d
  d1.updCtl fn fun c => { c with marks := [], cached := [], late := [] }

/-- DETAIL of the reply that hands a bitmap back: the pages it marks. -/
def Die.marked (d : Die) (fn : Nat) : Reply := { Reply.done 0 with detail := min (2 ^ 32 - 1) (d.ctl fn).marks.length }

/-- MIG_LOG_START (R284). -/
def execMigLogStart (rid : Nat) (s : State) : Out :=
  s.act fun e d => d.logRequest e rid 0xF0 fun r => d.bitmapOk e r r.rangeLen
    (let f := r.logFn
     let d1 := (((d.setAt .TEN_STATE_LOGGING f 1).setAt .TEN_MIG_BITMAP_VALUE f r.bitmap).setAt .TEN_MIG_RANGE_BASE_VALUE f
       r.rangeBase).setAt .TEN_MIG_RANGE_LEN_VALUE f r.rangeLen
     (d1.updCtl f fun c => { c with marks := [], cached := [], late := [] }).complete e r (Reply.done 0))

/-- A harvest that is refused leaves what was marked since its fetch to the bitmap that is still active. -/
def Die.keepLate (e : Env) (d : Die) (fn rid : Nat) : Die :=
  if d.harvestDue fn || (d.ctl fn).late.isEmpty || (d.req? rid).any (fun r => !r.done) then d
  else (d.updCtl fn fun c => { c with late := [] }).putMarks e fn (d.ctl fn).late

/-- MIG_HARVEST (R286): the writes since its fetch are marked in the new bitmap. -/
def execMigHarvest (rid : Nat) (s : State) : Out :=
  s.act fun e d =>
    let d1 := d.logRequest e rid 0xF1 fun r => d.bitmapOk e r (d.getAt .TEN_MIG_RANGE_LEN_VALUE r.logFn)
      (let f := r.logFn
       let d1 := (d.mergeMarks e f).setAt .TEN_MIG_BITMAP_VALUE f r.bitmap
       (((d1.setStage rid .running).putMarks e f (d.ctl f).late).complete e r (d.marked f)))
    match d.req? rid with | some r => d1.keepLate e r.logFn rid | none => d1

/-- MIG_LOG_STOP (R286): after the reply nothing more is marked (log 198). -/
def execMigLogStop (rid : Nat) (s : State) : Out :=
  s.act fun e d => d.logRequest e rid 0xF2 fun r =>
    let f := r.logFn
    let d1 := ((((d.mergeMarks e f).setAt .TEN_STATE_LOGGING f 0).setAt .TEN_MIG_BITMAP_VALUE f 0).setAt
      .TEN_MIG_RANGE_BASE_VALUE f 0).setAt .TEN_MIG_RANGE_LEN_VALUE f 0
    d1.complete e r (d.marked f)

/-! ## Steward mode (R288, R289) -/

/-- Native opcodes that a steward tenant's requests translate into: families 2, 3, 4, 6 without ceremonies, and 7. -/
def stewardOp (op : Nat) : Bool :=
  [2, 3, 4, 6, 7].contains (op / 16) && !(decide (0x6A ≤ op) && decide (op ≤ 0x6C))

/-- A native descriptor with HANDLE (bytes 48 and 49) replaced. -/
def withHandle (desc : Bytes) (h : Nat) : Bytes := desc.take 48 ++ leBytes 2 h ++ desc.drop 50

/-- The record of a rotatable TY6C key, made at its first use: it starts at the handle its translation names. -/
def Die.stewardKey (d : Die) (tenant ident handle : Nat) : StewardKey :=
  match d.ten.steward.find? fun k => k.tenant == tenant && k.ident == ident with
  | some k => k
  | none => { tenant, ident, handle, initial := ((d.obj? tenant handle).map fun o => o.uses).getD 0, seals := 0 }

def Die.putSteward (d : Die) (k : StewardKey) : Die :=
  { d with ten := { d.ten with steward := d.ten.steward.filter (fun x => !(x.tenant == k.tenant && x.ident == k.ident)) ++ [k] } }

/-- The reserve: the top 1/8 of the key-handle quota. -/
def Die.reserve (d : Die) (tenant : Nat) : List Nat :=
  let q := d.keyQuota tenant
  (List.range (q / 8)).map fun k => q - q / 8 + k

/-- The first empty handle of the reserve. -/
def Die.reserveHandle (d : Die) (tenant : Nat) : Option Nat :=
  (d.reserve tenant).find? fun h => (d.obj? tenant h).all KeyObj.isTombstone

/-- A rotation is due: USES has fallen to 1/16 of its first value, or 2^31 seals were made. -/
def StewardKey.due (k : StewardKey) (o : KeyObj) : Bool :=
  (o.uses != uncounted && decide (o.uses * 16 ≤ k.initial)) || decide (2 ^ 31 ≤ k.seals)

/-- Random bytes that a fresh key of an object's type takes (R178, R241). -/
def KeyObj.freshBytes (o : KeyObj) : Nat := if o.type = 0x10 then o.len + 8 else o.len

/-- The material of a fresh key like an object, from draw `a` on. None for a public key and for an RSA key: the die has no operation that
makes one (R167, R241) (log 70). -/
def Die.freshKey (d : Die) (o : KeyObj) (a : Nat) : Option Bytes :=
  let b := randomBytes a o.freshBytes
  if o.extended || o.type == 0x11 || o.type == 0x14 || o.type == 0x22 then none
  else if o.type != 0x10 then some b
  else if !d.curveBound o then none
  else (d.curve? o.tenant o.param).map fun c => d.ecMaterial o.tenant o.param (beBytes c.ln (1 + beNat b % (c.n - 1)))

/-- Replaces a key by a fresh one at a handle of the reserve; the old one is zeroized once no request that uses it is in flight (R34,
R289). With no handle in the reserve, and for a key that the die cannot make, the rotation fails and the old key serves on. -/
def Die.rotateKey (e : Env) (d : Die) (k : StewardKey) (o : KeyObj) : Die × StewardKey :=
  match d.reserveHandle k.tenant, d.freshKey o d.rng.draws with
  | some h, some m =>
    let fresh := { o with handle := h, origin := 1, uses := k.initial, hostUses := k.initial, inFlight := 0, ways := [],
                          vgen := if o.volatile then d.vgen o.tenant else 0, material := m ++ zeros (96 - m.length) }
    let k1 := { k with handle := h, seals := 0 }
    let d1 := ((d.draw o.freshBytes).putObj fresh).writeHandle e k.tenant h 0
    let d2 := { d1 with ten := { d1.ten with retired := d1.ten.retired ++ [(k.tenant, k.handle)] } }
    (d2.putSteward k1, k1)
  | _, _ => (d.event .TEN_EVENT_ROTATION_FAIL, k)

/-- A request in flight was translated to a key handle. -/
def Die.translatedTo (d : Die) (tenant handle : Nat) : Bool :=
  d.que.reqs.any fun r => r.tenant == tenant && !r.orig.isEmpty && (r.desc :: r.rest).any fun n => leAt n 48 2 == handle

/-- Rotated keys that no request in flight uses are zeroized (R34). -/
def Die.zeroizeRotated (e : Env) (d : Die) : Die :=
  let free (k : Nat × Nat) : Bool := !d.translatedTo k.1 k.2 && (d.obj? k.1 k.2).all fun o => o.inFlight == 0
  let d1 := { d with ten := { d.ten with retired := d.ten.retired.filter fun k => !free k } }
  (d.ten.retired.filter free).foldl (fun d k => (d.dropObj k.1 k.2).writeHandle e k.1 k.2 0) d1

/-- Handles that a steward request may touch are read where another die wrote their slice (R153). -/
def Die.loadSteward (e : Env) (d : Die) (tenant handle : Nat) : Die :=
  if d.mlf.foreign.isEmpty then d else (handle :: d.reserve tenant).foldl (fun d h => (d.loadKey e tenant h).1) d

/-- The handle that a steward request works with: its rotatable key is rotated first where that is due. Seals with
GEN_NONCE are counted. -/
def Die.stewardHandle (e : Env) (d0 : Die) (r : Req) (natives : List Bytes) : Die × Nat :=
  let desc := natives.headD []
  let h := leAt desc 48 2
  if !Config.stewardRotatable r.desc then (d0, h)
  else
    let d := d0.loadSteward e r.tenant (d0.stewardKey r.tenant (Config.stewardKeyIdent r.desc) h).handle
    let k0 := d.stewardKey r.tenant (Config.stewardKeyIdent r.desc) h
    let seal_ := leAt desc 0 1 == 0x20 && bit (leAt (dmaRead e d (leAt desc 56 8) 4) 3 1) 0
    match d.obj? r.tenant k0.handle with
    | none => (d, k0.handle)
    | some o =>
      if o.isTombstone then (d, k0.handle)
      else
        let x := if k0.due o then d.rotateKey e k0 o else (d, k0)
        let k := { x.2 with seals := x.2.seals + ofBool seal_ }
        (x.1.putSteward k, k.handle)

/-- STEWARD_REQUEST (R288): a TY6C request is translated; its native requests run in turn, and the reply of the last is
written in the TY6C layout. Work that a steward tenant may not do completes BAD_DESCRIPTOR (log 69). -/
def execStewardRequest (rid : Nat) (s : State) : Out :=
  s.act fun e d =>
    match d.req? rid with
    | none => d
    | some r =>
      if r.stage != .fetched || !d.startable r || !d.untranslated r then d
      else
        let natives := Config.stewardRequests r.desc
        let orig := r.desc
        if !natives.all fun x => stewardOp (leAt x 0 1) then
          (d.updReq rid fun x => { x with orig }).fail e { r with orig } .badDescriptor 1
        else if natives.isEmpty then (d.updReq rid fun x => { x with orig }).complete e { r with orig } (Reply.done 0)
        else
          let x := d.stewardHandle e r natives
          let ds := natives.map fun n => if Config.stewardRotatable orig then withHandle n x.2 else n
          x.1.updReq rid fun q => { q with orig, desc := ds.headD [], rest := ds.tail }

/-- Requests of a pair that wait: on the ring, or fetched and not yet translated. -/
def Die.stewardWaiting (d : Die) (fn pair : Nat) : Nat :=
  idxSub (d.pairState fn pair).lastTail (d.getAt2 .QUE_REQ_HEAD_INDEX fn pair) +
    (d.que.reqs.filter fun r => r.ofPair fn pair && d.untranslated r).length

/-- STEWARD_SAMPLE (R289): every 1 ms. The firmware looks at the same time for rotated keys that nothing uses any more (DESIGN CHOICE,
log 187). -/
def execStewardSample (s : State) : Out :=
  s.act fun e d => ((allFns.filter fun f => d.hasAt .TEN_STATE_STEWARD f).foldl (fun d f =>
    d.setAt .TEN_STEWARD_DEPTH_VALUE f ((allPairs.map fun p => d.stewardWaiting f p).sum)) d).zeroizeRotated e

/-- The Tin image delegates the operating point to the steward (R34, R289, R298, R299). -/
def Die.delegated (d : Die) : Bool :=
  bit (leAt (bodyOf d.tin.running 6 0) 1 1) 0 &&
    d.tin.running.any fun x => x.type == 4 && leAt x.body 2 1 == 1 && bit (leAt x.body 3 1) 2

/-- The point that the counts of evaluations in a row call for. -/
def TenState.choice (t : TenState) : Option Nat :=
  if 3 ≤ t.evalHs then some 2 else if 3 ≤ t.evalLane then some 1 else if 10 ≤ t.evalNone then some 0 else none

/-- One evaluation of waiting short Constantan jobs and lane use, a percentage. -/
def TenState.evaluate (t : TenState) (waiting use : Nat) : TenState :=
  if 1024 ≤ waiting then { t with evalHs := t.evalHs + 1, evalLane := 0, evalNone := 0 }
  else if 90 ≤ use ∧ waiting < 64 then { t with evalHs := 0, evalLane := t.evalLane + 1, evalNone := 0 }
  else { t with evalHs := 0, evalLane := 0, evalNone := t.evalNone + 1 }

/-- Lane use of the ensemble: the mean of this die's last epoch and what the other dies report (log 24). -/
def TenState.ensembleUse (t : TenState) (uses : List Nat) : Nat := (t.laneUse + uses.sum) / (uses.length + 1)

/-- STEWARD_OP_EVAL (R289): every 10 ms on the lead die, when the image delegates the choice; at most one change per
100 ms, never to or from Capped (R405). `waiting` and `uses` are what the other dies of the ensemble report. -/
def execStewardOpEval (waiting uses : List Nat) (s : State) : Out :=
  s.act fun e d =>
    if !d.isLead || !d.delegated then d
    else
      let d1 := { d with ten := d.ten.evaluate (d.conWaiting e false + waiting.sum) (d.ten.ensembleUse uses) }
      let now := d1.get .PWR_OPPOINT_POINT
      match d1.ten.choice with
      | none => d1
      | some p =>
        if p == now || now == 3 || (d1.ten.lastOpChange != 0 && decide (d1.nowMs < d1.ten.lastOpChange + 100)) then d1
        else
          let d2 := ((d1.set .PWR_OPPOINT_POINT p).set .PWR_OPPOINT_SOURCE 2).event .TEN_EVENT_STEWARD_OP
          let d3 := { d2 with ten := { d2.ten with lastOpChange := d1.nowMs } }
          (if d.size == 1 then d3 else d3.sendRing .opPoint none (leBytes 1 p ++ leBytes 1 (d1.get .PWR_OPPOINT_CAP))).reportOf e 0x0702

end Sys2Proof.Machine
end

