-- ==== Sys2Proof/Machine/Random.lean ====
section
/-! DEFINITION. Random numbers (spec/09): windows of the health tests, seeding, the queues, requests, and failures. -/
namespace Sys2Proof.Machine

/-! ## Instances and readiness (R262 to R264) -/

def Die.drbg (d : Die) (i : Nat) : Drbg := tget d.rng.insts i
def Die.setDrbg (d : Die) (i : Nat) (x : Drbg) : Die := { d with rng := { d.rng with insts := tput d.rng.insts i x } }

/-- Instance `i` is seeded. -/
def Die.seeded (d : Die) (i : Nat) : Bool := bit (d.get .RNG_STATUS_SEEDED) i

/-- Seeded instances. -/
def Die.seededCount (d : Die) : Nat := ((List.range 8).filter d.seeded).length

/-- In Mission, a die whose BBK is lost and with it NK draws a fresh BBK once the generator is READY (R387). -/
def Die.replaceBbk (d : Die) : Die :=
  if d.clk.booted && d.get .RNG_STATUS_STATE == 1 && d.get .LCS_STATE_STATE == 4 && d.key.bbk.isNone && d.key.nk.isNone &&
     d.key.drk.isSome && !d.tmp.lockdown && decide (32 ≤ d.rng.feBytes) then d.freshBbk else d

/-- The handshake context key and the resume-token key of a warm reset are drawn once the generator is READY (R220, R264). -/
def Die.drawBootKeys (d : Die) : Die :=
  if d.clk.booted && d.get .RNG_STATUS_STATE == 1 && d.ntt.ctxKeyGen == 0 && decide (64 ≤ d.rng.drbgBytes) then
    { d with ntt := { d.ntt with ctxKeyGen := d.rng.draws + 1 }, rcp := { d.rcp with tokenGen := d.rng.draws + 33 },
             rng := { d.rng with draws := d.rng.draws + 64, drbgBytes := d.rng.drbgBytes - 64 } }
  else d

/-- A conditioned unit goes where R263 sends it; a unit that nothing takes is dropped (log 21). -/
def Die.giveUnit (d : Die) : Die :=
  match (List.range 8).find? fun i => !d.seeded i with
  | some i =>
    let d1 := (d.setDrbg i { calls := 0, reseedDue := false, sinceMs := d.nowMs }).set .RNG_STATUS_SEEDED (d.get .RNG_STATUS_SEEDED + 2 ^ i)
    { d1 with rng := { d1.rng with instantiations := d1.rng.instantiations + 1 } }
  | none =>
    match (List.range 8).find? fun i => (d.drbg i).reseedDue with
    | some i => (d.setDrbg i { calls := 0, reseedDue := false, sinceMs := d.nowMs }).wrap .RNG_RESEED_COUNT_COUNT 1
    | none => if d.rng.feBytes + 32 ≤ 4096 then { d with rng := { d.rng with feBytes := d.rng.feBytes + 32 } } else d

/-- READY is reached with the start-up test passed and four instances seeded (R264, R269). -/
def Die.checkReady (d : Die) : Die :=
  let st := d.get .RNG_STATUS_STATE
  if d.rng.startupDone && decide (4 ≤ d.seededCount) && (st == 0 || st == 2) then
    { d.set .RNG_STATUS_STATE 1 with rng := { d.rng with readyMs := d.nowMs } }.event (if st == 0 then .RNG_EVENT_READY else .RNG_EVENT_RESTARTED)
  else d

/-- Samples go to RNG_RAW and not to the conditioner. -/
def Die.rawDiverted (d : Die) : Bool := d.rngTestOpen && d.has .RNG_TEST_RAW_EN

/-- Raises the peaks of the sources (R271). -/
def Die.notePeaks (d : Die) (rct apt : List Nat) : Die :=
  (List.range 4).foldl (fun d i =>
    (d.setAt .RNG_SRC_STATUS_RCT_PEAK i (max (d.getAt .RNG_SRC_STATUS_RCT_PEAK i) (min 40 (rct.getD i 0)))).setAt
      .RNG_SRC_STATUS_APT_PEAK i (max (d.getAt .RNG_SRC_STATUS_APT_PEAK i) (min 792 (apt.getD i 0)))) d

/-- RNG_WINDOW_CLOSE: 1,024 samples of each source have passed. The first window of a start or rerun is the start-up test;
each window releases two conditioned units. -/
def execRngWindowClose (rct apt : List Nat) (s : State) : Out :=
  s.act fun _ d0 =>
    let d := d0.notePeaks rct apt
    if !d.clk.stable || d.get .RNG_STATUS_STATE == 3 then d0
    else if d.rawDiverted then d
    else ({ d with rng := { d.rng with startupDone := true } }.giveUnit.giveUnit).checkReady.replaceBbk

/-- The next instance that can generate, in rotation. -/
def Die.nextInstance (d : Die) : Option Nat :=
  ((List.range 8).map fun k => (d.rng.turn + k) % 8).find? fun i => d.seeded i && !(d.drbg i).reseedDue

/-- DRBG_QUEUE_FILL: one generate call of 64 bytes. -/
def execDrbgQueueFill (s : State) : Out :=
  s.act fun _ d =>
    if d.get .RNG_STATUS_STATE != 1 || decide (65536 < d.rng.drbgBytes + 64) then d
    else match d.nextInstance with
      | none => d
      | some i =>
        let n := (d.drbg i).calls + 1
        let d1 := d.setDrbg i { d.drbg i with calls := n, reseedDue := decide (2 ^ 20 ≤ n) }
        { d1 with rng := { d1.rng with drbgBytes := d1.rng.drbgBytes + 64, turn := (i + 1) % 8 } }.drawBootKeys

/-- DRBG_RESEED_TIMER: a second since the instance's last reseed. -/
def execDrbgReseedTimer (inst : Nat) (s : State) : Out :=
  s.act fun _ d =>
    if inst < 8 && d.seeded inst && decide ((d.drbg inst).sinceMs + 1000 ≤ d.nowMs)
    then d.setDrbg inst { d.drbg inst with reseedDue := true } else d

/-! ## Requests (R265 to R267) -/

/-- A random request joins its queue; in FAULT it completes RNG_FAULT at once. -/
def Die.randomRequest (e : Env) (d : Die) (rid op limit : Nat) : Die :=
  d.handle e rid op fun r =>
    if !r.zeroBytes 16 32 || !r.zeroBytes 48 64 then d.fail e r .badDescriptor 1
    else if r.outLen < 1 ∨ limit < r.outLen then d.fail e r .badDescriptor 2
    else d.rangesOk e r
      (if op == 0x71 && !((d.fnOf? r.tenant).any fun fn => d.hasAt .RNG_TEN_CFG_FE_ALLOWED fn) then d.fail e r .policyDeny 0
       else if d.get .RNG_STATUS_STATE == 3 then d.fail e r .rngFault 0
       else
         let d1 := d.setStage rid .waiting
         { d1 with rng := { d1.rng with waits := d1.rng.waits ++ [{ rid, full := op == 0x71, need := r.outLen, got := 0 }] } })

def execRngDrbg (rid : Nat) (s : State) : Out := s.act fun e d => d.randomRequest e rid 0x70 65536
def execRngFullEntropy (rid : Nat) (s : State) : Out := s.act fun e d => d.randomRequest e rid 0x71 4096

/-- The random request at the head of a queue. -/
def Die.rngHead (d : Die) (full : Bool) : Option (RngWait × Req) :=
  d.rng.waits.findSome? fun w =>
    match d.req? w.rid with
    | some r => if w.full == full && r.opcode / 16 == 7 then some (w, r) else none
    | none => none

/-- 64-byte units that the tenant's RATE leaves in this epoch. -/
def Die.unitsLeft (d : Die) (fn : Nat) : Nat := d.getAt .RNG_TEN_CFG_RATE fn - tget d.rng.units fn

/-- The head takes `n` bytes of its queue. -/
def Die.takeRandom (d : Die) (w : RngWait) (fn n : Nat) : Die :=
  { d with rng := { d.rng with
      drbgBytes := if w.full then d.rng.drbgBytes else d.rng.drbgBytes - n, feBytes := if w.full then d.rng.feBytes - n else d.rng.feBytes,
      units := tput d.rng.units fn (tget d.rng.units fn + ceilDiv n 64),
      waits := updateWhere (fun x => x.rid == w.rid) (fun x => { x with got := x.got + n }) d.rng.waits } }

/-- RNG_HEAD_SERVED: the head gathers what its queue and its RATE allow; with all its bytes it is written out. -/
def execRngHeadServed (full : Bool) (s : State) : Out :=
  s.act fun e d =>
    if d.get .RNG_STATUS_STATE != 1 then d
    else match d.rngHead full with
      | none => d
      | some (w, r) =>
        let fn := (d.fnOf? r.tenant).getD 0
        let n := min (w.need - w.got) (64 * d.unitsLeft fn)
        if n = 0 ∨ (if full then d.rng.feBytes else d.rng.drbgBytes) < n then d
        else
          let d1 := d.takeRandom w fn n
          if w.got + n < w.need then d1
          else
            let out := randomBytes d1.rng.draws w.need
            (((d1.forget r.rid).draw w.need).wrapAt2 .RNG_TEN_BYTES_COUNT fn 0 w.need |>.count 9 1 r.tenant w.need).finishOut e r out

/-- A request that waits for random values ends with a status. The CER_APPROVE that was to perform a ceremony closes it, whatever its
status is (R252). -/
def Die.endWait (e : Env) (d : Die) (st : Status) (rid : Nat) : Die :=
  let d0 := d.forget rid
  match d0.req? rid with
  | none => d0
  | some r => (if r.opcode == 0x6B then d0.closeCeremony else d0).fail e r st 0

/-- RNG_HOLD_TIMEOUT: 1 ms has passed since the fetch, and so a tick of the model's clock, and the generator is not READY. -/
def execRngHoldTimeout (rid : Nat) (s : State) : Out :=
  s.act fun e d =>
    let st := d.get .RNG_STATUS_STATE
    if (st == 0 || st == 2) && (d.rng.waits.any fun w => w.rid == rid) && (d.req? rid).any fun r => decide (r.fetchMs < d.nowMs) then d.endWait e .rngNotReady rid else d

/-! ## Health-test failures and test access (R268 to R270) -/

/-- A health test of source `src` fails. -/
def Die.healthFail (e : Env) (d : Die) (src : Nat) (apt : Bool) : Die :=
  let st := d.get .RNG_STATUS_STATE
  if st == 3 || !d.clk.stable then d
  else
    let d0 := if apt then d.setAt .RNG_SRC_STATUS_APT_PEAK src (max 793 (d.getAt .RNG_SRC_STATUS_APT_PEAK src)) else d.setAt .RNG_SRC_STATUS_RCT_PEAK src 41
    let d1 := { d0 with rng := { d0.rng with drbgBytes := 0, feBytes := 0, insts := [], startupDone := false } }.set .RNG_STATUS_SEEDED 0
    let d2 : Die := (d1.rng.waits.map RngWait.rid).foldl (fun d x => d.endWait e .rngFault x) d1
    let d3 := (((d2.add .RNG_FAIL_COUNT_COUNT 1).set .RNG_STATUS_FAIL_SOURCES (2 ^ src)).event .RNG_EVENT_HEALTH_FAIL).reportOf e 0x0601
    let n := if st == 2 then d3.get .RNG_STATUS_RERUNS + 1 else d3.get .RNG_STATUS_RERUNS
    let d4 := (d3.set .RNG_STATUS_RERUNS n).set .RNG_STATUS_STATE 2
    if st == 2 && decide (3 ≤ n) then
      (((d4.set .RNG_STATUS_STATE 3).event .RNG_EVENT_FAULT).reportOf e 0x0602).alarm e 0x16 0
    else d4

/-- RNG_HEALTH_FAIL: the repetition count test, or with `apt` the adaptive proportion test, fails in a source. -/
def execRngHealthFail (source : Nat) (apt : Bool) (s : State) : Out := s.act fun e d => d.healthFail e (source % 4) apt

/-- RNG_RERUN_CLEAR_TIMER: 60 s in READY without a failure. -/
def execRngRerunClearTimer (s : State) : Out :=
  s.act fun _ d => if d.get .RNG_STATUS_STATE == 1 && decide (d.rng.readyMs + 60000 ≤ d.nowMs) then d.set .RNG_STATUS_RERUNS 0 else d

/-- RNG_INJECT: a write of RNG_TEST with INJECT set. -/
def execRngInject (source : Nat) (s : State) : Out :=
  s.act fun e d0 =>
    let d := d0.access 0
    if d.rngTestOpen then (d.set .RNG_TEST_INJECT_SRC source).healthFail e (source % 4) false else d

/-- RNG_RAW_READ: a host read of RNG_RAW. -/
def execRngRawRead (fn : Nat) (s : State) : Out :=
  s.act fun _ d0 =>
    let d := d0.access fn
    if fn != 0 then d
    else if d.rawDiverted then
      { d with rng := { d.rng with rawReads := d.rng.rawReads + 1 } }.emit (.readData 0 0x580048 (Config.rawSamples d.rng.rawReads % 2 ^ 64))
    else d.emit (.readData 0 0x580048 0)

end Sys2Proof.Machine
end

