-- ==== Sys2Proof/Machine/Clocks.lean ====
section
/-! DEFINITION. Clocks, power states, the governor, the reset commands and the backup reset (spec/15 R390 to R411). -/
namespace Sys2Proof.Machine

/-- Where the clock bring-up stands. -/
def Die.setPhase (d : Die) (p : ClkPhase) : Die := { d with clk := { d.clk with phase := p } }

/-! ## Start-up (R391 to R394) -/

/-- Clocks stable (R391 step 3): the boot ROM floor is the map from here on (R383). -/
def Die.clocksStable (d : Die) : Die := { d with clk := { d.clk with stable := true } }.floorMap

/-- The monitor is armed and the clocks switch to the PLL (R391 step 6). -/
def Die.arm (d : Die) : Die :=
  ((((d.set .CLK_STATUS_ARMED 1).set .CLK_STATUS_PLL_LOCK 1).set .CLK_STATUS_SOURCE 0).set .CLK_STATUS_SETTLE_TRIES 0).set
    .CLK_STATUS_REFCLK_ABSENT 0 |>.setPhase .armed

/-- A failed FRO check: repeated, or after the third failure CLK_NOFRO is latched and the die stays in reset (R392). -/
def Die.froFailed (d : Die) : Die :=
  let n := d.clk.froTries + 1
  let d1 := { d with clk := { d.clk with froTries := n } }
  if n < 3 then d1
  else { d1 with clk := { d1.clk with phase := .stopped },
                 tmp := { d1.tmp with backup := { d1.tmp.backup with nofro := d1.tmp.backup.nofro || d1.tmp.backup.vbatGood } } }

/-- FRO_CHECK_DONE (R391, R392): `count` FRO cycles over 64 backup cycles, or, where the check was deferred for want of the
backup oscillator, over 20 µs of REFCLK after the arming check. -/
def execFroCheckDone (count : Nat) (s : State) : Out :=
  s.act fun _ d =>
    if d.clk.phase != .froCheck || d.tmp.lockdown then d
    else if d.tmp.backup.vbatGood then
      let d1 := d.set .CLK_FRO_KHZ_KHZ (count * 64 / 125)
      if 312500 ≤ count ∧ count ≤ 468750 then d1.clocksStable.setPhase .settle else d1.froFailed
    else if d.has .CLK_STATUS_FRO_REF then
      let d1 := d.set .CLK_FRO_KHZ_KHZ (count * 50)
      if 3200 ≤ count ∧ count ≤ 4800 then d1.clocksStable.arm else (d1.set .CLK_STATUS_FRO_REF 0).froFailed
    else d

/-- A failed arming check (R394). -/
def Die.armFailed (e : Env) (d : Die) : Die :=
  let n := min 3 (d.get .CLK_STATUS_SETTLE_TRIES + 1)
  let d1 := d.set .CLK_STATUS_SETTLE_TRIES n
  if n < 3 then d1
  else
    let d2 := if d1.clk.phase == .settle then d1.setPhase .retryWait else d1
    if d2.has .CLK_STATUS_REFCLK_ABSENT then d2
    else ((d2.set .CLK_STATUS_REFCLK_ABSENT 1).event .CLK_EVENT_REFCLK_RETRY).reportOf e 0x0B03

/-- SETTLE_END (R391, R394, R395): the settle delay ends with its arming check: REFCLK edges in 512 FRO cycles, and PLL lock.
With the FRO check deferred the FRO is then counted against REFCLK (R392). -/
def execSettleEnd (refclk : Nat) (lock : Bool) (s : State) : Out :=
  s.act fun e d =>
    let deferred := d.clk.phase == .froCheck && !d.tmp.backup.vbatGood
    if d.clk.phase != .settle && !deferred then d
    else if decide (180 ≤ refclk ∧ refclk ≤ 360) && lock then
      if deferred then (d.set .CLK_STATUS_FRO_REF 1).set .CLK_STATUS_PLL_LOCK 1 else d.arm
    else d.armFailed e

/-- REFCLK_RETRY_TIMER (R394): the 100 ms are over, and the settle delay runs again. -/
def execRefclkRetryTimer (s : State) : Out :=
  s.act fun _ d => if d.clk.phase == .retryWait then d.setPhase .settle else d

/-! ## Failover (R395 to R397) -/

/-- The die stops for want of any clock: its state is as after loss of the main supplies (R397). -/
def Die.clockless (d : Die) : Die := d.powerOff

/-- CLOCK_FAILOVER (R396): the monitor trips. The work that the stopped clocks carried ends by the alarm's response. -/
def execClockFailover (s : State) : Out :=
  s.act fun e d =>
    if d.clk.phase != .armed then d
    else if d.clk.froDead then d.clockless
    else
      let d1 := ((d.set .CLK_STATUS_SOURCE 1).setPhase .failedOver).add .CLK_FAIL_COUNT_COUNT 1
      (((d1.event .CLK_EVENT_FAILOVER).reportOf e 0x0B01).monitor e 0x11 0)

/-- FRO_FAIL (R397): the FRO fails while REFCLK runs; with no other clock running the die stops (log 209). -/
def execFroFail (s : State) : Out :=
  s.act fun e d =>
    if d.clk.phase == .armed then
      let d1 := { d with clk := { d.clk with froDead := true } }
      ((d1.set .CLK_STATUS_FRO_FAIL 1).event .CLK_EVENT_FRO_FAIL).reportOf e 0x0B02
    else if d.clk.phase == .froCheck || d.clk.phase == .stopped then d
    else d.clockless

/-! ## Power states (R401 to R404) -/

/-- Blocks that Park stops: lanes, hash lanes, Constantan, lattice cores, table engine, Millefeuille (R401, R366). -/
def parkBlocks : List Nat := [0, 1, 2, 3, 4, 5]

/-- The secure world holds block `b` (R353). -/
def Die.isHeld (d : Die) (b : Nat) : Bool := bit (d.get .WLD_HOLD_BLOCKS) b

/-- A gating request for a block that the secure world holds: deferred, or ignored for the permanently held ones (R353). -/
def Die.gateHeld (e : Env) (d : Die) (b : Nat) : Die :=
  if b == 6 || b == 7 || b == 10 then
    ((d.add .WLD_GATE_IGNORED_COUNT 1).event .WLD_EVENT_GATE_IGNORED).reportOf e 0x0906
  else
    let kept : List (Nat × Bool) := d.wld.deferred.filter fun x => x.1 != b
    let d1 := { d with wld := { d.wld with deferred := kept ++ [(b, true)] } }
    let d2 := d1.set .WLD_GATE_PENDING_BLOCKS (putBits (d1.get .WLD_GATE_PENDING_BLOCKS) b b 1)
    (d2.event .WLD_EVENT_GATE_DEFERRED).reportOf e 0x0907

/-- PARK_ENTER (R403): a write of PWR_CTL.PARK = 1. Dispatch stops; held blocks follow when they are released. Ignored while
the die runs on the FRO. -/
def execParkEnter (s : State) : Out :=
  s.act fun e d0 =>
    let d := d0.access 0
    if d.clk.phase != .armed || d.has .PWR_CTL_PARK then d
    else
      let d1 := (d.set .PWR_CTL_PARK 1).set .PWR_STATUS_STATE 2
      let d2 : Die := (parkBlocks.filter d1.isHeld).foldl (fun d b => d.gateHeld e b) d1
      d2.set .PWR_STATUS_DEFERRED (ofBool (!d2.wld.deferred.isEmpty))

/-- Work that has not reached the point where Park leaves it: records and chunks in lanes, hash blocks, jobs in cores. -/
def Die.working (d : Die) : Bool :=
  let runs (p : JobPlace) : Bool := match p with | .running _ => true | _ => false
  (d.rcp.jobs.any fun j => j.lane != noLane) || (d.rcp.streams.any fun j => j.lane != noLane) ||
    (d.con.jobs.any fun j => runs j.place) || (d.ntt.jobs.any fun j => runs j.place)

/-- PARK_COMPLETE (R403, R353): the blocks power off once their work has paused or ended and no block is held. -/
def execParkComplete (s : State) : Out :=
  s.act fun _ d =>
    if d.get .PWR_STATUS_STATE != 2 || d.working || !d.wld.deferred.isEmpty then d else d.set .PWR_STATUS_STATE 3

/-- PARK_EXIT (R403): a write of PARK = 0; deferred requests are withdrawn (R353). -/
def execParkExit (s : State) : Out :=
  s.act fun _ d0 =>
    let d := d0.access 0
    if !d.has .PWR_CTL_PARK then d
    else
      let d1 := ((d.set .PWR_CTL_PARK 0).set .WLD_GATE_PENDING_BLOCKS 0).set .PWR_STATUS_DEFERRED 0
      { d1 with wld := { d1.wld with deferred := [] } }.set .PWR_STATUS_STATE 4

/-- UNPARK_COMPLETE (R403): the units are as they were, paused work resumes and dispatch restarts. -/
def execUnparkComplete (s : State) : Out :=
  s.act fun e d =>
    if d.get .PWR_STATUS_STATE != 4 then d
    else
      let d1 : Die := (List.range 24).foldl (fun d c => d.resumeCore c) (d.set .PWR_STATUS_STATE 0)
      ((List.range 4).foldl (fun d c => d.resumeNtt c) d1).placeJobs e

/-- A block has work (R402). -/
def Die.blockBusy (d : Die) (b : Nat) : Bool :=
  match b with
  | 0 => !d.rcp.jobs.isEmpty || !d.rcp.streams.isEmpty
  | 1 => !d.rcp.hashes.isEmpty
  | 2 => !d.con.jobs.isEmpty
  | 3 => !d.ntt.jobs.isEmpty
  | 4 => !d.kft.lookups.isEmpty || !d.kft.ilWait.isEmpty
  | 5 => !d.mlf.writes.isEmpty || !d.mlf.reseals.isEmpty
  | 6 => !d.rng.waits.isEmpty
  | 9 => !d.evr.staging.isEmpty
  | _ => false

/-- BLOCK_IDLE_GATE (R402): a block (0 to 10, numbered as in WLD_HOLD) that has had no work for 1 µs, or control core
`block` − 16 waiting for an interrupt, is gated; new work wakes it (log 85, 206). -/
def execBlockIdleGate (block : Nat) (s : State) : Out :=
  s.act fun _ d =>
    let awake := d.clk.idle.filter fun b => !d.blockBusy b
    let d1 := { d with clk := { d.clk with idle := awake } }
    if !d.has .PWR_CTL_IDLE_EN then d1
    else if block ≤ 10 then
      if d.blockBusy block || awake.contains block then d1 else { d1 with clk := { d1.clk with idle := awake ++ [block] } }
    else if 16 ≤ block ∧ block < 20 then
      { d1 with wld := { d1.wld with gated := d1.wld.gated.filter (· != block - 16) ++ [block - 16] } }
    else d1

/-! ## Operating point and governor (R35, R405 to R407) -/

/-- OPPOINT_WRITE (R405, R414): POINT and CAP together; RW on the die that performs lead duties. They apply at the next
epoch boundary. `received` is the lead die's message, by which the point is the same on every die (R18). -/
def execOppointWrite (point cap : Nat) (received : Bool) (s : State) : Out :=
  s.act fun _ d0 =>
    let d := if received then d0 else d0.access 0
    if received == d.isLead then d
    else
      let d1 := ((d.set .PWR_OPPOINT_POINT (point % 4)).set .PWR_OPPOINT_CAP (clamp 80 180 (cap % 256))).set .PWR_OPPOINT_SOURCE 1
      if received || d.size == 1 then d1
      else d1.sendRing .opPoint none (leBytes 1 (d1.get .PWR_OPPOINT_POINT) ++ leBytes 1 (d1.get .PWR_OPPOINT_CAP))

/-- The power model in force (R407). -/
def Die.powerModel (d : Die) : Bytes :=
  match d.section? 0x83 0 with
  | some x => x.body
  | none => (List.range 176).map Config.romModelByte

/-- Power of one block in mW for `busy` of its units, VDD_CORE in mV and the temperature in 0.25 °C (R407). -/
def blockPower (entry : Bytes) (units busy mv : Nat) (temp : Int) : Nat :=
  leAt entry 2 2 * min busy units * mv ^ 2 / (units * 750 ^ 2) + Config.leakMw (leAt entry 4 2) (leAt entry 6 1) temp

/-- The hotter sensor's last sample. -/
def Die.hotter (d : Die) : Int := max (signed16 (d.get .TMP_TEMP_SENSOR0)) (signed16 (d.get .TMP_TEMP_SENSOR1))

/-- Blocks of a list with their rates lowered, or raised, by the governor. -/
def Die.moveRates (d : Die) (blocks : List Nat) (down : Bool) (estimate : Nat) : Die :=
  let move (b r : Nat) : Nat :=
    let v := Config.governorRate b (d.get .PWR_STATUS_POINT) estimate d.effectiveCap r
    if !blocks.contains b then r else if down then max 1 (min v (r - 1)) else min 256 (max v (r + 1))
  { d with clk := { d.clk with rates := (List.range 3).map fun b => move b (d.clk.rates.getD b 256) } }

/-- The blocks that a point lowers first, and then (R36): the lanes (0), Constantan (1) and the lattice cores (2). -/
def reducedOrder : Nat → List (List Nat)
  | 1 => [[2], [0]]
  | 2 => [[0], [1]]
  | _ => [[0, 1, 2]]

/-- The governor at the end of a millisecond (R35): above the cap the rates fall in the order of the point, the next blocks once those
before them are at their least; at or below it they rise again in the opposite order (log 184). -/
def Die.govern (d : Die) (estimate : Nat) : Die :=
  let order := reducedOrder (d.get .PWR_STATUS_POINT)
  let rate (b : Nat) : Nat := d.clk.rates.getD b 256
  if d.effectiveCap < estimate then
    match order.find? fun bs => bs.any fun b => rate b != 1 with
    | some bs => d.moveRates bs true estimate
    | none => d
  else
    let other := [0, 1, 2].filter fun b => !order.any fun bs => bs.contains b
    match (other :: order.reverse).find? fun bs => bs.any fun b => rate b != 256 with
    | some bs => d.moveRates bs false estimate
    | none => d

/-- GOVERNOR_TICK (R407): the estimator's microsecond, with the busy units of each of the ten blocks; after 1 ms the estimate drives the
governor. -/
def execGovernorTick (busy : List Nat) (s : State) : Out :=
  s.act fun _ d =>
    let m := d.powerModel
    let mv := d.get .TMP_SUPPLY_CORE_MV
    let p := ((List.range 10).map fun k =>
      blockPower (slice m (16 + 16 * k) 16) (powerUnits.getD k 1) (busy.getD k 0) mv d.hotter).sum
    let sum := d.clk.powerSum + p
    let n := d.clk.powerCount + 1
    if n < 1000 then { d with clk := { d.clk with powerSum := sum, powerCount := n } }
    else
      let d1 := { d with clk := { d.clk with powerSum := 0, powerCount := 0 } }
      ((d1.set .PWR_POWER_ESTIMATE (min 65535 (sum / 100000))).wrap .PWR_ENERGY_MICROJOULES (sum / 1000)).govern (sum / 100000)

/-! ## Reset commands (R408 to R410, R404) -/

/-- CONFIRM of RST_CTL. -/
def rstConfirm : Nat := 0xC3

/-- WARM_RESET_CMD. -/
def execWarmResetCmd (confirm : Nat) (s : State) : Out :=
  s.act fun e d0 =>
    let d := d0.access 0
    if confirm % 256 == rstConfirm then d.startReset e 2 .RST_CAUSE_MANAGER false else d

/-- An ensemble reset begun by the die that performs lead duties: sent over the ring, then its own (R410). -/
def Die.resetEnsemble (e : Env) (d : Die) : Die :=
  (if d.size == 1 then d else d.sendRing .ensembleReset none []).startReset e 3 .RST_CAUSE_ENSEMBLE false

/-- ENSEMBLE_RESET_CMD: on the lead or acting lead die; ignored elsewhere (log 84). -/
def execEnsembleResetCmd (confirm : Nat) (s : State) : Out :=
  s.act fun e d0 =>
    let d := d0.access 0
    if confirm % 256 == rstConfirm && d.isLead then d.resetEnsemble e else d

/-- ENSEMBLE_RESET_RECEIVED (R410). -/
def execEnsembleResetReceived (s : State) : Out := s.act fun e d => d.startReset e 3 .RST_CAUSE_ENSEMBLE false

/-- POWER_CYCLE_CMD (R404): PWR_REQ_N is pulled low; elsewhere than on the lead die the write is ignored and recorded. -/
def execPowerCycleCmd (confirm : Nat) (s : State) : Out :=
  s.act fun e d0 =>
    let d := d0.access 0
    if confirm % 256 != rstConfirm then d
    else
      let d1 := d.reportOf e 0x0B06
      if !d.isLead || d.has .RST_PWR_REQ_ASSERTED then d1
      else (d1.set .RST_PWR_REQ_ASSERTED 1).emit (.pin .pwrReqN false)

/-- PWR_REQ_TIMEOUT (R404): after 1 s the pin is released. -/
def execPwrReqTimeout (s : State) : Out :=
  s.act fun _ d =>
    if d.has .RST_PWR_REQ_ASSERTED then d.pwrReqEnd.set .RST_PWR_REQ_TIMEOUT 1 else d

/-- COLD_RESET (R408, R410, R412, R435): power-on and return from Off, or PORST_N. The power-cycle count rises first. -/
def execColdReset (porst : Bool) (s : State) : Out :=
  s.act fun _ d =>
    let d1 := d.pwrReqEnd.coldDie.setCause (if porst then .RST_CAUSE_PORST else .RST_CAUSE_POWER_ON)
    { d1.add .EVR_POWER_CYCLES_VALUE 1 with
      tmp := { d1.tmp with backup := { d1.tmp.backup with active := false, resample := none } } }.drawScramble

/-! ## Backup reset (R411) -/

/-- BACKUP_RESET: VBAT below 1.6 V clears the backup domain; NK stays in the key manager. -/
def execBackupReset (s : State) : Out :=
  s.act fun e d =>
    let d1 := (d.resetFlds fun f _ => f.info.src == .backup).set .RST_CAUSE_BACKUP_LOST 1
    let b := { d1.tmp.backup with seq := 0, nofro := false, resample := none, vbatGood := false }
    let d2 := { d1 with key := { d1.key with bbk := none }, tmp := { d1.tmp with outLog := false, backup := b } }
    if d2.tmp.backup.active then d2 else d2.reportOf e 0x0B04

/-- BBK_REWRAP (R411): VBAT has been above 2.2 V for 1 s: a fresh BBK, and every NVM secret under the new NK. -/
def execBbkRewrap (s : State) : Out :=
  s.act fun _ d =>
    if d.key.bbk.isSome || d.key.nk.isNone || !d.clk.booted || decide (d.rng.feBytes < 32) then d
    else
      let d1 := d.freshBbk
      { d1 with tmp := { d1.tmp with backup := { d1.tmp.backup with vbatGood := true } } }

end Sys2Proof.Machine
end

