-- ==== Sys2Proof/Machine/Record.lean ====
section
/-! DEFINITION. The record family, raw AEAD and hash requests, forwarding over the ring, and the lane commands
(spec/03). -/
namespace Sys2Proof.Machine

/-! ## Records (R73 to R92) -/

/-- The checks of a record descriptor before its lookup (R63, R74, R76); `k` goes on. -/
def Die.recordChecks (e : Env) (d : Die) (r : Req) (k : Die) : Die :=
  let out := r.opcode == 0x11 || r.opcode == 0x13
  if !out && !r.zeroBytes 56 64 then d.fail e r .badDescriptor 1
  else if out && (r.byte 59 != 0 || !r.zeroBytes 62 64 || bits (r.byte 58) 7 1 != 0 ||
      (!r.keyContent && !r.zeroBytes 60 62)) then d.fail e r .badDescriptor 1
  else if r.opcode == 0x13 && r.byte 56 == 0 then d.fail e r .badDescriptor 2
  else if 16640 < r.inLen then d.fail e r .badDescriptor 2
  else d.rangesOk e r
    (if r.opcode == 0x10 && decide (r.inLen < 8) then d.fail e r .authFail 2
     else if r.opcode == 0x12 && dtlsShort (d.recInput e r) (d.recCfg r).cidLen then d.fail e r .authFail 2
     else if r.opcode == 0x12 && (parseDtls (d.recInput e r) (d.recCfg r).cidLen).isNone then d.fail e r .badDescriptor 3
     else k)

/-- The checks of CONTENT_KEY (R75, R112, R231, R232). -/
def Die.contentKeyCheck (d : Die) (r : Req) : KeyCheck :=
  match d.readKey r.tenant (leAt r.desc 60 2) with
  | .bad st x => .bad st x
  | .ok o =>
    if !o.exportable || !bit o.usage useWrap || o.extended then .bad .policyDeny 0
    else if !d.curveBound o then .bad .paramRejected 0x11
    else .ok o

/-- KEY_CONTENT (R75): the key's checks, then `k`. Its use is counted as the record is dispatched (R234). -/
def Die.contentCheck (e : Env) (d : Die) (r : Req) (k : Die → Die) : Die :=
  if r.keyContent then d.withKey e r (leAt r.desc 60 2) (fun d => d.contentKeyCheck r) fun d _ => k d else k d

/-- A record request: its place behind earlier records of its pair and session (R58), its checks, then its lookup here or on the die
that serves its session (R22, R23). -/
def Die.recordRequest (e : Env) (d : Die) (rid op : Nat) : Die :=
  (d.orderRecord e rid op).handle e rid op fun r =>
    let d := d.orderRecord e rid op
    if d.behindSession r then d else d.recordChecks e r (d.contentCheck e r fun d => d.lookupRequest e r)

def execEspIn (rid : Nat) (s : State) : Out := s.act fun e d => d.recordRequest e rid 0x10
def execEspOut (rid : Nat) (s : State) : Out := s.act fun e d => d.recordRequest e rid 0x11
def execDtlsIn (rid : Nat) (s : State) : Out := s.act fun e d => d.recordRequest e rid 0x12
def execDtlsOut (rid : Nat) (s : State) : Out := s.act fun e d => d.recordRequest e rid 0x13

/-! ## Raw AEAD (R102 to R106) -/

/-- The parameter block of R102. -/
structure AeadParams where
  alg : Nat
  tagLen : Nat
  nonceLen : Nat
  gen : Bool
  resume : Bool
  nonce : Bytes
  aadAddr : Nat
  aadLen : Nat
  token : Bytes
  deriving DecidableEq, Repr

def aeadParams (b : Bytes) : AeadParams :=
  { alg := leAt b 0 1, tagLen := leAt b 1 1, nonceLen := leAt b 2 1, gen := bit (leAt b 3 1) 0, resume := bit (leAt b 3 1) 1,
    nonce := slice b 8 16, aadAddr := leAt b 24 8, aadLen := leAt b 32 4, token := slice b 64 64 }

/-- The ranges of R102; `seals` says AEAD_SEAL. -/
def aeadParamsOk (seals : Bool) (b : Bytes) : Bool :=
  let p := aeadParams b
  (match p.alg with
   | 1 => decide (12 ≤ p.tagLen) && decide (p.tagLen ≤ 16) && p.nonceLen == 12
   | 2 => decide (4 ≤ p.tagLen) && decide (p.tagLen ≤ 16) && p.tagLen % 2 == 0 && decide (7 ≤ p.nonceLen) && decide (p.nonceLen ≤ 13)
   | 3 => p.tagLen == 16 && p.nonceLen == 12
   | _ => false) &&
  bits (leAt b 3 1) 7 2 == 0 && (seals || !p.gen) && leAt b 4 4 == 0 && decide (p.aadLen ≤ 65536) && leAt b 36 28 == 0

/-- A key of a TYPE that an AEAD takes (R471). -/
def aeadFits (alg : Nat) (o : KeyObj) : Bool := if alg = 3 then o.type == 4 else o.type == 1 || o.type == 2 || o.type == 3

/-- Bytes of the object without its tag. -/
def aeadTotal (seals : Bool) (r : Req) (tagLen : Nat) : Nat := if seals then r.inLen else r.inLen - tagLen

/-- What a resume token binds (R106): tenant, opcode, the descriptor from its addresses on, and the parameter block with
the nonce in use and PFLAGS.RESUME left out. -/
def aeadBinding (r : Req) (b nonce : Bytes) : Bytes :=
  leBytes 2 r.tenant ++ leBytes 1 r.opcode ++ slice r.desc 16 48 ++ slice b 0 3 ++ leBytes 1 (leAt b 3 1 % 2) ++
    slice (nonce.take (leAt b 2 1)) 0 16 ++ slice b 24 12

/-- The key under which resume tokens are sealed: drawn at each warm reset (R106, R264). -/
def Die.tokenKey (d : Die) : Bytes := randomBytes (d.rcp.tokenGen - 1) 32

/-- A resume token: its number, and the binding sealed under the die's token key. -/
def Die.tokenBytes (d : Die) (id : Nat) (binding : Bytes) : Bytes :=
  leBytes 8 id ++ gcmSeal d.tokenKey (leBytes 12 id) binding (zeros 40)

/-- The suspended stream that a token names, when the token is this die's and binds what is submitted. -/
def Die.openToken (d : Die) (token binding : Bytes) : Option Suspended :=
  let id := leAt token 0 8
  if token = d.tokenBytes id binding then d.rcp.suspended.find? fun x => x.id == id && x.binding == binding else none

/-- A raw AEAD request whose checks have passed: a held job or a stream waits for its first lane, where its key use is counted and its key
is read (R103, R234). -/
def Die.aeadStart (e : Env) (d : Die) (r : Req) (b nonce : Bytes) (old : Option Suspended) : Die :=
  let p := aeadParams b
  let seals := r.opcode == 0x20
  let use := some (r.handle, if seals then useEncrypt else useDecrypt)
  let total := aeadTotal seals r p.tagLen
  let aad := dmaRead e d p.aadAddr p.aadLen
  let n := nonce.take p.nonceLen
  let d1 := (d.setStage r.rid .waiting).count 3 1 r.tenant 1
  if total ≤ 16384 then
    d1.issueJob e r { rid := r.rid, lane := noLane, uid := 0, seq := 0, enc := seals, alg := p.alg, tagLen := p.tagLen, key := [],
                      nonce := n, aad, body := dmaRead e d r.inAddr r.inLen, hdr := [], use, first := none, relaned := false }
  else
    let j : StreamJob := { rid := r.rid, lane := noLane, enc := seals, alg := p.alg, tagLen := p.tagLen, key := [], nonce := n, aad, total,
                           off := (old.map fun x => x.off).getD 0, acc := (old.map fun x => x.acc).getD [], use, first := none,
                           relaned := false, scrub := none }
    { d1 with rcp := { d1.rcp with streams := d1.rcp.streams ++ [j] } }.placeJobs e

/-- A raw AEAD request from its parameter block on. -/
def Die.aeadBlock (e : Env) (d : Die) (r : Req) (b : Bytes) : Die :=
  let p := aeadParams b
  let seals := r.opcode == 0x20
  let arg := leAt r.desc 56 8
  let total := aeadTotal seals r p.tagLen
  let need := if seals then r.inLen + p.tagLen else total
  if !aeadParamsOk seals b then d.fail e r .badDescriptor 5
  else if !d.dmaOk r.tenant p.aadAddr p.aadLen false then
    (d.dmaFault e r.tenant p.aadAddr p.aadLen false).fail e r .accessFault 0
  else (d.unhold r.rid).withKey e r r.handle (fun d => d.checkKey r.tenant r.handle (aeadFits p.alg) (if seals then useEncrypt else useDecrypt)) fun d _ =>
    if !seals && decide (r.inLen < p.tagLen) then d.fail e r .authFail 2
    else if r.outLen < need then d.complete e r (tooSmall need)
    else if (d.inService .lane).isEmpty && !d.parked then d.fail e r .faultRetry (faultDetail 0xFF none 0)
    else if 16384 < total ∧ d.rcp.tokenGen = 0 then
      if d.get .RNG_STATUS_STATE == 3 then d.fail e r .rngFault 0 else d.holdDraw r.rid 32 false
    else if p.resume then
      match d.openToken p.token (aeadBinding r b p.nonce) with
      | none => d.fail e r .badDescriptor 6
      | some x => d.aeadStart e r b p.nonce (some x)
    else if p.gen then
      d.withDraw e r p.nonceLen fun d1 a =>
        let nonce := slice (randomBytes a p.nonceLen) 0 16
        (d1.output e r (arg + 8) nonce).aeadStart e r b nonce none
    else d.aeadStart e r b p.nonce none

/-- AEAD_SEAL and AEAD_OPEN (R102, R103): the checks of R63, R64, R102 and R471 in turn. -/
def Die.aeadRequest (e : Env) (d : Die) (rid op : Nat) : Die :=
  d.handle e rid op fun r =>
    let arg := leAt r.desc 56 8
    if r.handle / 2 ^ 16 != 0 then d.fail e r .badDescriptor 1
    else if arg % 64 != 0 then d.fail e r .badDescriptor 5
    else d.rangesOk e r
      (if !d.dmaOk r.tenant arg 128 false then (d.dmaFault e r.tenant arg 128 false).fail e r .accessFault 0
       else if !d.dmaOk r.tenant arg 128 true then (d.dmaFault e r.tenant arg 128 true).fail e r .accessFault 0
       else d.aeadBlock e r (dmaRead e d arg 128))

def execAeadSeal (rid : Nat) (s : State) : Out := s.act fun e d => d.aeadRequest e rid 0x20
def execAeadOpen (rid : Nat) (s : State) : Out := s.act fun e d => d.aeadRequest e rid 0x21

/-! ## Streams (R103 to R106) -/

/-- Part of an AEAD's text, at an offset of the object. -/
def aeadChunk (alg : Nat) (key nonce : Bytes) (off : Nat) (text : Bytes) : Bytes :=
  xorBytes text ((List.range text.length).map fun k => Config.keystreamByte alg key nonce (off + k))

/-- A stream that has stopped at a boundary for a quiesce or a reset: its resume token is written first (R106, R281). -/
def Die.suspend (e : Env) (d : Die) (r : Req) (j : StreamJob) (st : Status) : Die :=
  let arg := leAt r.desc 56 8
  let binding := aeadBinding r (dmaRead e d arg 128) (slice j.nonce 0 16)
  let id := d.rng.draws
  let d1 := { d with rcp := { d.rcp with suspended := d.rcp.suspended ++ [({ id, binding, off := j.off, acc := j.acc } : Suspended)] } }
  let d2 := (d1.draw 8).output e r (arg + 64) (d1.tokenBytes id binding)
  (d2.dropStream j.rid).complete e r (j.reply st 0)

/-- A stream stops at the boundary it has reached. -/
def Die.stopStream (e : Env) (d : Die) (r : Req) (j : StreamJob) (st : Status) : Die :=
  if st == .aborted && r.stopBy != 0 then d.endStream e r j .aborted 0 else d.suspend e r j st

/-- The last chunk of a stream has passed: the tag is written, or checked (R103, R104). -/
def Die.finishStream (e : Env) (d : Die) (r : Req) (j : StreamJob) : Die :=
  let tag := aeadTag j.alg j.tagLen j.key j.nonce j.aad j.acc
  if j.enc then
    ((d.dropStream j.rid).output e r (r.outAddr + j.total) tag).complete e r
      { Reply.done (j.total + j.tagLen) with flags := replyFlags false false false false j.relaned }
  else if dmaRead e d (r.inAddr + j.total) j.tagLen == tag then
    (d.dropStream j.rid).complete e r { Reply.done j.total with flags := replyFlags false false false false j.relaned }
  else (d.count 3 3 r.tenant 1).endStream e r j .untrustedOutput 0

/-- A chunk has passed its shadow checks: its output is written, and the stream goes on, stops or ends. -/
def Die.streamChunk (e : Env) (d : Die) (r : Req) (j : StreamJob) : Die :=
  let n := j.chunk
  let input := dmaRead e d (r.inAddr + j.off) n
  let out := aeadChunk j.alg j.key j.nonce j.off input
  let j1 := { j with off := j.off + n, acc := j.acc ++ (if j.enc then out else input), lane := noLane, first := none }
  let d1 := ((d.output e r (r.outAddr + j.off) out).updStream j.rid fun _ => j1).count 3 2 r.tenant n
  if j1.total ≤ j1.off then d1.finishStream e r j1
  else match r.stop with
    | some st => d1.stopStream e r j1 st
    | none => d1.placeJobs e

/-- A chunk met a mismatch (R96, R97, R103): with a third in the window the lane is quarantined and the stream restarts
elsewhere; with ALLOW_RELANE it restarts from its boundary on another lane, where there is one; a repeat that mismatches ends
FAULT_RETRY. -/
def Die.streamMismatch (e : Env) (d : Die) (r : Req) (j : StreamJob) (kind : Nat) : Die :=
  let d1 := d.noteMismatch e .lane j.lane kind r.tenant
  let quar := decide (3 ≤ d1.recent .lane j.lane)
  let again := quar || r.allowRelane || d.has .REC_CTL_RELANE_ALWAYS
  let d2 :=
    if j.first.isSome || !again || (!quar && !d1.hasLane (some j.lane)) then
      d1.endStream e r j .faultRetry (faultDetail (j.first.getD j.lane) (secondLane j.first j.lane) kind)
    else d1.updStream j.rid fun x => { x with lane := noLane, first := some j.lane, relaned := true }
  if quar then d2.quarantineLane e j.lane else d2.placeJobs e

/-- STREAM_CHUNK_DONE: a chunk of a stream leaves its lane, with a mismatch of `kind` or 0 for none. A stream asked to
stop while it waits for a lane stops where it is. -/
def execStreamChunkDone (rid kind : Nat) (s : State) : Out :=
  s.act fun e d =>
    match d.req? rid, d.rcp.streams.find? fun j => j.rid == rid with
    | some r, some j =>
      if j.scrub.isSome then d
      else if j.lane == noLane then
        match r.stop with
        | some st => d.stopStream e r j st
        | none => d
      else if d.writesPending rid then d
      else if kind == 0 then (d.streamChunk e r j).placeJobs e else d.streamMismatch e r j kind
    | _, _ => d

/-- SCRUB_CHUNK_DONE (R105): 64 KiB more of the output are zeros. A stop asked for since the scrub began ends the scrub
here, with SCRUBBED 0 (log 32). -/
def execScrubChunkDone (rid : Nat) (s : State) : Out :=
  s.act fun e d =>
    match d.req? rid, d.rcp.streams.find? fun j => j.rid == rid with
    | some r, some j =>
      match j.scrub with
      | none => d
      | some (done, rep) =>
        let n := min 65536 (rep.length - done)
        let d1 := d.output e r (r.outAddr + done) (zeros n)
        if rep.length ≤ done + n then
          (d1.dropStream rid).complete e r { rep with detail := rep.detail + 2 ^ 24 }
        else if r.stop.isSome then (d1.dropStream rid).complete e r rep
        else d1.updStream rid fun x => { x with scrub := some (done + n, rep) }
    | _, _ => d

/-! ## AEAD_CANCEL (R108) -/

/-- The raw AEAD and hash requests a cancel names: of its tenant, not yet replied. -/
def Die.cancelled (d : Die) (r : Req) : List Req :=
  d.que.reqs.filter fun x => decide (0x20 ≤ x.opcode ∧ x.opcode ≤ 0x26) && x.tenant == r.tenant &&
    leNat x.tag == r.inAddr && x.rid != r.rid && !x.done

/-- The stream of a request is being scrubbed. -/
def Die.scrubs (d : Die) (rid : Nat) : Bool := d.rcp.streams.any fun j => j.rid == rid && j.scrub.isSome

/-- Cancels one request: undispatched work completes at once, a stream or hash request stops at its next boundary. One that has ended
but for its scrub keeps its status. -/
def Die.cancelOne (e : Env) (by_ : Nat) (d : Die) (r : Req) : Die :=
  match r.stage with
  | .fetched | .waiting => (d.forget r.rid).fail e r .aborted 0
  | _ =>
    if d.stopsAtBoundary r.rid && r.stop.isNone && !d.scrubs r.rid
    then d.updReq r.rid fun x => { x with stop := some .aborted, stopBy := by_ } else d

def execAeadCancel (rid : Nat) (s : State) : Out :=
  s.act fun e d =>
    d.handle e rid 0x2F fun r =>
      if !r.zeroBytes 24 64 then d.fail e r .badDescriptor 1
      else
        let ms := d.cancelled r
        let now := (ms.filter fun x => x.stage == .fetched || x.stage == .waiting).length
        let d1 : Die := ms.foldl (Die.cancelOne e rid) d
        let on := (ms.map Req.rid).filter fun x => (d1.req? x).any fun y => !y.done
        if on.isEmpty then d1.complete e r { Reply.done 0 with detail := min now 255 }
        else
          let d2 := d1.setStage rid .running
          { d2 with que := { d2.que with waiters := d2.que.waiters ++ [{ rid, counts := true, count := now, on }] } }

/-! ## Hash requests (R100, R101) -/

/-- The ALG and output length of a hash request. -/
def Req.hashAlg (r : Req) : Nat := r.byte 56
def Req.xofLen (r : Req) : Nat := leAt r.desc 58 2
def Req.hashOut (r : Req) : Nat := if r.hashAlg = 7 ∨ r.hashAlg = 8 then r.xofLen else hashLen r.hashAlg

/-- Issues a hash request to a hash lane. -/
def Die.hashStart (e : Env) (d : Die) (r : Req) (key : Bytes) : Die :=
  if d.coreless .hash then d.fail e r .faultRetry (faultDetail 0xFF none 0)
  else (d.setStage r.rid .running).addHash r 0 r.inLen key

/-- The checks of R101 that all three hash opcodes share; `k` goes on. For HMAC_VERIFY, OUT_ADDR is read. -/
def Die.hashChecks (e : Env) (d : Die) (r : Req) (verify : Bool) (k : Die) : Die :=
  let a := r.hashAlg
  let xof := a == 7 || a == 8
  if r.byte 57 != 0 || !r.zeroBytes 60 64 || (!xof && r.xofLen != 0) then d.fail e r .badDescriptor 1
  else if !decide (1 ≤ a ∧ a ≤ 8) || (xof && r.opcode != 0x24) || (xof && r.xofLen == 0) then d.fail e r .badDescriptor 2
  else if verify && !decide (16 ≤ r.outLen ∧ r.outLen ≤ hashLen a) then d.fail e r .badDescriptor 2
  else if verify then
    if !r.lengthsOk then d.fail e r .badDescriptor 2
    else if !d.dmaOk r.tenant r.inAddr r.inLen false then (d.dmaFault e r.tenant r.inAddr r.inLen false).fail e r .accessFault 0
    else if !d.dmaOk r.tenant r.outAddr r.outLen false then (d.dmaFault e r.tenant r.outAddr r.outLen false).fail e r .accessFault 0
    else k
  else d.rangesOk e r (if r.outLen < r.hashOut then d.complete e r (tooSmall r.hashOut) else k)

/-- HASH; HANDLE plays no part in it (log 145). -/
def execHash (rid : Nat) (s : State) : Out :=
  s.act fun e d =>
    d.handle e rid 0x24 fun r =>
      d.hashChecks e r false (if d.dispatches then d.hashStart e r [] else d)

/-- TYPEs that an HMAC takes (R471). -/
def hmacFits (o : KeyObj) : Bool := decide (1 ≤ o.type ∧ o.type ≤ 4) || o.type == 8 || o.type == 0x30

/-- HMAC_GEN and HMAC_VERIFY: the key's checks, its use, then a hash lane. -/
def Die.hmacRequest (e : Env) (d : Die) (rid op usage : Nat) : Die :=
  d.handle e rid op fun r =>
    if r.handle / 2 ^ 16 != 0 then d.fail e r .badDescriptor 1
    else d.hashChecks e r (op == 0x26)
      (d.withKey e r r.handle (fun d => d.checkKey r.tenant r.handle hmacFits usage) fun d o =>
         if !d.dispatches then d
         else if (d.inService .hash).isEmpty then d.fail e r .faultRetry (faultDetail 0xFF none 0)
         else match d.takeUse e r r.handle usage with
           | .waits => d
           | .refused d1 st x => d1.fail e r st x
           | .counted d1 => d1.hashStart e r o.key)

def execHmacGen (rid : Nat) (s : State) : Out := s.act fun e d => d.hmacRequest e rid 0x25 useSign
def execHmacVerify (rid : Nat) (s : State) : Out := s.act fun e d => d.hmacRequest e rid 0x26 useVerify

/-- Compressions of a hash request: an HMAC adds a key block, and an outer hash of a key block and a digest. -/
def Req.compressions (r : Req) (n : Nat) : Nat :=
  if r.opcode = 0x24 then Machine.compressions r.hashAlg n
  else Machine.compressions r.hashAlg (hashBlock r.hashAlg + n) +
    Machine.compressions r.hashAlg (hashBlock r.hashAlg + hashLen r.hashAlg)

/-- A hash request ends: its output, or the outcome of its comparison. -/
def Die.finishHash (e : Env) (d : Die) (r : Req) (j : HashJob) : Die :=
  let fl := replyFlags false false false false j.relaned
  let d1 := (d.dropHash j.rid).count 4 1 r.tenant (r.compressions j.acc.length)
  match r.opcode with
  | 0x24 =>
    (d1.output e r r.outAddr (hashBytes r.hashAlg r.hashOut j.acc)).complete e r { Reply.done r.hashOut with flags := fl }
  | 0x25 =>
    (d1.output e r r.outAddr (hmac r.hashAlg j.key j.acc)).complete e r { Reply.done (hashLen r.hashAlg) with flags := fl }
  | _ =>
    if dmaRead e d r.outAddr r.outLen == (hmac r.hashAlg j.key j.acc).take r.outLen
    then d1.complete e r { Reply.done 0 with flags := fl } else d1.complete e r { Reply.fail .authFail 1 with flags := fl }

/-- A message ends FAULT_RETRY, and the request it belongs to with it; a Constantan job of that leaves its core (R77, R100, R189). -/
def Die.faultHash (e : Env) (d : Die) (r : Req) (detail : Nat) : Die := (d.forget r.rid).fail e r .faultRetry detail

/-- The message of a request is repeated from its last chunk on another lane. -/
def Die.relaneHash (d : Die) (j : HashJob) (lane : Nat) : Die :=
  let d1 := d.updHash j.rid fun x => { x with lane, first := some j.lane, relaned := true }
  if j.inner = 0 then d1 else d1.updReq j.rid fun x => { x with relaned := true }

/-- Quarantines a hash lane (R100): its messages are repeated from their last chunk on another. -/
def Die.quarantineHash (e : Env) (d : Die) (l : Nat) : Die :=
  let d1 := d.quarantine e .hash l
  (d1.rcp.hashes.filter fun j => j.lane == l).foldl (fun d j =>
    match d.pickHashLane (some l), d.req? j.rid with
    | some m, _ => d.relaneHash j m
    | none, some r => d.faultHash e r (faultDetail l none (d.getAt .HASH_LAST_MISMATCH_KIND l))
    | none, none => d) d1

/-- A hash round mismatch (R100): as R95 to R98 for lanes. DESIGN CHOICE (log 162): REC_CTL.RELANE_ALWAYS, which R111 gives for record and
raw AEAD requests, has a hash request repeated as well (log 166). -/
def Die.hashMismatch (e : Env) (d : Die) (r : Req) (j : HashJob) (kind : Nat) : Die :=
  let d1 := d.noteMismatch e .hash j.lane kind r.tenant
  let quar := decide (3 ≤ d1.recent .hash j.lane)
  let again := quar || r.allowRelane || d.has .REC_CTL_RELANE_ALWAYS
  let d2 :=
    if j.first.isSome || !again then
      d1.faultHash e r (faultDetail (j.first.getD j.lane) (if j.first.isSome then some j.lane else none) kind)
    else if quar then d1
    else match d1.pickHashLane (some j.lane) with
      | some m => d1.relaneHash j m
      | none => d1.faultHash e r (faultDetail j.lane none kind)
  if quar then d2.quarantineHash e j.lane else d2

/-- A key schedule, a derivation or a pass of EdDSA is done: the job that waited for the pass may start, or the request goes on with
its next work (R100, R176). -/
def Die.finishInner (d : Die) (r : Req) (j : HashJob) : Die :=
  let d1 := (d.dropHash j.rid).count 4 1 r.tenant (compressions j.inner j.total)
  if r.isConJob then d1.updCon r.rid fun x => { x with hashed := true } else d1.workDone r

/-- Handshake work on the lane goes before its hash requests (R100). -/
def Die.hashYields (d : Die) (j : HashJob) : Bool :=
  j.inner == 0 && d.rcp.hashes.any fun x => x.lane == j.lane && x.inner != 0 && (d.req? x.rid).any fun r => r.opcode / 16 == 5

/-- A message that waits for a hash lane gets one that is in service. -/
def Die.laneHash (d : Die) (j : HashJob) : Die :=
  match d.pickHashLane none with
  | some m => d.updHash j.rid fun x => { x with lane := m }
  | none => d

/-- HASH_BLOCK_DONE (R100, R101): a 64 KiB chunk is done, with a mismatch of `kind` or 0 for none (log 2). -/
def execHashBlockDone (rid kind : Nat) (s : State) : Out :=
  s.act fun e d =>
    match d.req? rid, d.rcp.hashes.find? fun j => j.rid == rid with
    | some r, some j =>
      if j.lane == noLane then d.laneHash j
      else if d.hashYields j then d
      else if kind != 0 then d.hashMismatch e r j kind
      else
        let n := min 65536 (j.total - j.off)
        let j1 := { j with off := j.off + n, acc := j.acc ++ (if j.inner = 0 then dmaRead e d (r.inAddr + j.off) n else []), first := none }
        if j.total ≤ j1.off then (if j.inner = 0 then d.finishHash e r j1 else d.finishInner r j1)
        else if j.inner != 0 then d.updHash rid fun _ => j1
        else match r.stop with
          | some st => (d.dropHash rid).fail e r st 0
          | none => d.updHash rid fun _ => j1
    | _, _ => d

/-! ## The end of a held job (R89, R94 to R97) -/

/-- A held record or object mismatched (R96, R97): it is repeated where a repeat is allowed and another lane is in service. DESIGN
CHOICE (log 161): a job that has been repeated once ends FAULT_RETRY by R96 also where this mismatch quarantines its lane, for which
R97 speaks of the lane's held records. -/
def Die.recordMismatch (e : Env) (d : Die) (r : Req) (j : LaneJob) (kind : Nat) : Die :=
  let d1 := d.noteMismatch e .lane j.lane kind r.tenant
  let quar := decide (3 ≤ d1.recent .lane j.lane)
  let again := quar || r.allowRelane || d.has .REC_CTL_RELANE_ALWAYS
  let d2 :=
    if j.relaned || !again || (!quar && !d1.hasLane (some j.lane)) then d1.faultJob e r j kind
    else d1.updJob j.rid fun x => { x with lane := noLane, first := some j.lane, relaned := true }
  if quar then d2.quarantineLane e j.lane else d2.placeJobs e

/-- LANE_RECORD_DONE: a held job leaves its lane, with a mismatch of `kind` or 0 for none. A record whose checkpoint
write is not complete is not released yet, and one whose slot write failed completes with the status of that (R123, R157). -/
def execLaneRecordDone (rid kind : Nat) (s : State) : Out :=
  s.act fun e d =>
    match d.req? rid, d.rcp.jobs.find? fun j => j.rid == rid with
    | some r, some j =>
      if j.lane == noLane || d.writesPending rid then d
      else match r.spoiled with
      | some st => ((d.endJob e r j (Reply.fail st 0)).placeJobs e).retryFills e
      | none =>
      if kind == 0 then ((d.releaseJob e r j).placeJobs e).retryFills e
      else d.recordMismatch e r j kind
    | _, _ => d

/-! ## Lane commands (R97, R98, R100) -/

def execLaneQuarantineCmd (lane : Nat) (s : State) : Out :=
  s.act fun e d =>
    let d := d.access 0
    if lane < 8 && d.getAt .LANE_STATUS_STATE lane != 1 then d.quarantineLane e lane else d

def execLaneReleaseCmd (lane : Nat) (s : State) : Out :=
  s.act fun _ d => if lane < 8 then (d.access 0).startKat .lane lane else d.access 0

def execLaneKatDone (lane : Nat) (pass : Bool) (s : State) : Out :=
  s.act fun e d => if lane < 8 then (d.endKat .lane lane pass).placeJobs e else d

def execHashQuarantineCmd (lane : Nat) (s : State) : Out :=
  s.act fun e d =>
    let d := d.access 0
    if lane < 4 && d.getAt .HASH_STATUS_STATE lane != 1 then d.quarantineHash e lane else d

def execHashReleaseCmd (lane : Nat) (s : State) : Out :=
  s.act fun _ d => if lane < 4 then (d.access 0).startKat .hash lane else d.access 0

def execHashKatDone (lane : Nat) (pass : Bool) (s : State) : Out :=
  s.act fun _ d => if lane < 4 then d.endKat .hash lane pass else d

/-! ## Steering (R78, R81, R325) -/

/-- What a change of steering entry `i` to position `b` leaves (R325); none when it names a third position. -/
def Die.setSteer (d : Die) (i b : Nat) : Option Die :=
  let a := d.getAt .REC_STEER_POSITION i
  let prev := d.getAt .ENS_STEER_PREV_POSITION i
  if b == a then some d
  else if d.hasAt .ENS_STEER_PREV_VALID i && prev != b then none
  else some (((d.setAt .REC_STEER_POSITION i b).setAt .ENS_STEER_PREV_POSITION i a).setAt .ENS_STEER_PREV_VALID i 1)

/-- REC_STEER_WRITE: `index` is the entry, on the lead die only (R111). -/
def execRecSteerWrite (index pos : Nat) (s : State) : Out :=
  s.act fun e d0 =>
    let d := d0.access 0
    let i := index % 64
    if !d.isLead then d
    else if d.size ≤ pos % 8 then d.reportOf e 0x0203
    else match d.setSteer i (pos % 8) with
      | none => d.event .ENS_EVENT_STEER_REFUSED
      | some d1 => if pos % 8 == d.getAt .REC_STEER_POSITION i then d1 else d1.sendRing .steer none (leBytes 1 i ++ leBytes 1 (pos % 8) ++ [1])

/-- STEER_UPDATE_RECEIVED: the lead die's write reaches this die (R81), or the word that the previous position of an entry
holds no more of its sessions (R325). -/
def execSteerUpdateReceived (index pos : Nat) (valid : Bool) (s : State) : Out :=
  s.act fun _ d =>
    let i := index % 64
    if d.size ≤ pos then d
    else if valid then (d.setSteer i pos).getD d
    else if d.getAt .ENS_STEER_PREV_POSITION i == pos then d.setAt .ENS_STEER_PREV_VALID i 0
    else d

end Sys2Proof.Machine
end

