-- ==== Sys2Proof/Machine/Tin.lean ====
section
/-! DEFINITION. The Tin requests (spec/11 R303 to R308): checks, banks, acceptance and activation. -/
namespace Sys2Proof.Machine

/-! ## Checks (R304) -/

/-- A failed check: REASON and catalogue index. -/
abbrev TinFault := Option (Nat × Nat)

/-- The first failure of a list of checks in order; each holds a condition that must be met. -/
def firstFault : List (Bool × Nat × Nat) → TinFault
  | [] => none
  | (ok, x) :: r => if ok then firstFault r else some x

/-- A section with its live fields zeroed (R294, R297, R298): what a live change keeps. -/
def fixedPart (s : Section) : Bytes :=
  match s.type with
  | 3 => patch s.body 2 (zeros 2)
  | 4 => patch (patch s.body 3 (leBytes 1 (putBits (leAt s.body 3 1) 1 1 0))) 4 (zeros 16)
  | 6 | 8 | 9 => []
  | _ => s.body

/-- Catalogue index of the first section that fails a check, 0xFF at most (log 199). -/
def failingIndex (secs : List Section) (ok : Section → Bool) : Option Nat :=
  (secs.findIdx? fun s => !ok s).map fun k => min k 0xFF

/-- A check over sections, as an entry for `firstFault`. -/
def sectionCheck (secs : List Section) (reason : Nat) (ok : Section → Bool) : Bool × Nat × Nat :=
  ((failingIndex secs ok).isNone, reason, (failingIndex secs ok).getD 0xFF)

/-- Check 12: KEY_QUOTA of this die's tenants covers their occupied handles (R277) (log 100); a tombstone occupies none (R231). -/
def Die.quotaHolds (d : Die) (s : Section) : Bool :=
  s.type != 4 || d.key.objs.all fun o => o.tenant != s.inst || o.isTombstone || decide (o.handle < leAt s.body 12 4)

/-- Checks 2 and 3 of an image for opcode kind `kind`: the header, then the layout. -/
def Die.frameFault (d : Die) (kind : Nat) (b : Bytes) : TinFault :=
  if !(leAt b 0 4 == 0x4E495433 && leAt b 4 1 == 1 && imgKind b == kind && leAt b 20 1 == d.strapSize) then some (0x20, 0xFF)
  else match layoutFault b with
    | some k => some (0x21, k)
    | none => none

/-- Checks 4 to 11 of a full image. -/
def Die.stageFault (d : Die) (owner : Bytes × Bytes) (b : Bytes) : TinFault :=
  let secs := imgSections b
  firstFault
    [(vendorSigOk b, 0x22, 0xFF), (ownerSigOk owner b, 0x23, 0xFF),
     (decide (d.get .TIN_SERIAL_VALUE < imgSerial b), 0x24, 0xFF),
     sectionCheck secs 0x25 fun s => s.type != 0x81 || deviceFits d.tin.fwSvn s.body,
     sectionCheck secs 0x26 fun s => sectionOk d.strapSize d.pos secs s,
     ((acrossFault d.strapSize secs).isNone, 0x26, (acrossFault d.strapSize secs).getD 0xFF)]

/-- A delta's section may replace the running one (check 9). -/
def Die.deltaMay (d : Die) (s : Section) : Bool :=
  [3, 4, 6, 8, 9].contains s.type &&
    match d.acceptedSecs.find? fun x => x.type == s.type && x.inst == s.inst with
    | some x => fixedPart x == fixedPart s && (s.type != 4 || x.body.length == s.body.length)
    | none => false

/-- Checks 5 to 12 of a delta, as far as this die can make them. -/
def Die.deltaFault (d : Die) (owner : Bytes × Bytes) (b : Bytes) : TinFault :=
  let secs := imgSections b
  let all := overlay d.acceptedSecs secs
  firstFault
    [(ownerSigOk owner b, 0x23, 0xFF),
     (imgSerial b == d.get .TIN_SERIAL_VALUE && decide (d.get .TIN_DELTA_SEQ_VALUE < imgDeltaSeq b), 0x24, 0xFF),
     (imgBase b == d.digestOf .TIN_DIGEST_DIGEST, 0x27, 0xFF), sectionCheck secs 0x29 d.deltaMay,
     sectionCheck secs 0x26 fun s => sectionOk d.strapSize d.pos all s,
     ((acrossFault d.strapSize all).isNone, 0x26, 0xFF), sectionCheck secs 0x2A d.quotaHolds]

/-- Check 13: the chain has room for a delta (R307). -/
def Die.chainFault (d : Die) (b : Bytes) : TinFault :=
  firstFault [(decide (d.tin.deltas.length < 64) && decide (d.get .TIN_NVM_USE_CHAIN_BYTES + b.length ≤ 262144), 0x2B, 0xFF)]

/-! ## Requests (R303) -/

/-- A Tin request completes PARAM_REJECTED (R304, R312); `serial` is the image's (log 98). -/
def Die.tinRefuse (e : Env) (d : Die) (r : Req) (x : Nat × Nat) (serial : Nat) : Die :=
  (((d.set .TIN_STATUS_LAST_REASON x.1).event .TIN_EVENT_REFUSED).report e { Report.of 0x0706 with arg := serial }).fail e r
    .paramRejected (x.1 + x.2 * 2 ^ 8)

/-- What every Tin request checks first: the lead die's physical function, HANDLE, ARG and the ranges, and that no other Tin operation runs
in the ensemble; `arg` and `out` say how many bytes of ARG from byte 56 are used and how much output is needed. Of a management opcode on a
virtual function R14 says BAD_DESCRIPTOR. -/
def Die.tinRequest (e : Env) (d : Die) (r : Req) (arg out : Nat) (input : Bool) (k : Die) : Die :=
  if r.fn? != some 0 then d.fail e r .badDescriptor 1
  else if !d.isLead then d.fail e r .policyDeny 0
  else if r.handle != 0 || !r.zeroBytes (56 + arg) 64 then d.fail e r .badDescriptor 1
  else if !input && r.inLen != 0 then d.fail e r .badDescriptor 2
  else d.rangesOk e r
    (if r.outLen < out then d.complete e r (tooSmall out) else if d.tin.op.isSome then d.fail e r .busy 0 else k)

/-- The staged bank and what shows it (R305, R312). -/
def Die.setStaged (d : Die) (img : Option TinImage) : Die :=
  let dg := (img.map fun x => configDigest x.sections x.serial 0).getD (zeros 48)
  let d1 := ((d.set .TIN_STATUS_STAGED (ofBool img.isSome)).set .TIN_STAGED_SERIAL_VALUE ((img.map fun x => x.serial).getD 0)).setDigest
    .TIN_STAGED_DIGEST_DIGEST dg
  { d1 with tin := { d1.tin with staged := img } }

/-- A full or delta image as a bank holds it. -/
def bankImage (b : Bytes) : TinImage := { serial := imgSerial b, sections := imgSections b, bytes := b }

/-- The chain and the base as the registers show them (R312). -/
def Die.showBank (d : Die) : Die :=
  (((d.set .TIN_STATUS_DELTAS d.tin.deltas.length).set .TIN_NVM_USE_CHAIN_BYTES ((d.tin.deltas.map fun x => x.bytes.length).sum)).set
    .TIN_SERIAL_VALUE ((d.tin.base.map fun x => x.serial).getD 0))

/-- A changed OPPOINT section or WINDOW_US counts as written when it is accepted (R299, R447). -/
def Die.acceptWritten (d : Die) (secs : List Section) : Die :=
  let old := d.acceptedSecs
  let o := bodyOf secs 6 0
  let d1 :=
    if o == bodyOf old 6 0 || o.isEmpty then d
    else ((d.set .PWR_OPPOINT_POINT (leAt o 0 1)).set .PWR_OPPOINT_CAP (leAt o 2 2)).set .PWR_OPPOINT_SOURCE 0
  let w := leAt (bodyOf secs 9 0) 4 4
  if w == leAt (bodyOf old 9 0) 4 4 then d1 else d1.set .PMC_CTL_WINDOW_US w

/-- Accepts a live change (R308): the digests, MEAS7 and TIN_DELTA_SEQ at once, the sections at the next epoch boundary. -/
def Die.acceptLive (e : Env) (d : Die) (secs : List Section) (serial deltaSeq : Nat) : Die :=
  let d1 := (((d.acceptWritten secs).showDigests secs serial deltaSeq).set .TIN_DELTA_SEQ_VALUE deltaSeq).showBank
  let d2 := ((d1.extendMeas 7 (d1.digestOf .TIN_DIGEST_DIGEST)).event .TIN_EVENT_DELTA_APPLIED).rematch
  { d2 with tin := { d2.tin with atEpoch := secs } }.report e { Report.of 0x0705 with arg := serial }

/-! ## Activation (R306) -/

/-- Two configurations differ only in live sections and live fields. -/
def liveDifference (a b : List Section) : Bool :=
  a.length == b.length && (List.zip a b).all fun x =>
    x.1.type == x.2.type && x.1.inst == x.2.inst && fixedPart x.1 == fixedPart x.2 &&
      (x.1.type != 4 || x.1.body.length == x.2.body.length)

/-- A tenant of this die that a configuration omits is not IDLE or holds a key object. -/
def Die.omittedBusy (d : Die) (secs : List Section) : Bool :=
  d.acceptedSecs.any fun s =>
    s.type == 4 && !(secs.any fun x => x.type == 4 && x.inst == s.inst) && s.inst / 256 == d.pos &&
      (d.getAt .TEN_STATE_STATE (s.inst % 256) != 1 || d.key.objs.any fun o => o.tenant == s.inst && !o.isTombstone)

/-- Makes an image the base of the current bank with an empty chain, and empties the staged bank. -/
def Die.makeCurrent (d : Die) (img : TinImage) : Die :=
  { d with tin := { d.tin with base := some img, deltas := [] } }.setStaged none

/-! ## Operations over the ensemble (R303, R305 to R308; their messages: log 97) -/

/-- The message kind of a Tin operation. -/
def tinKind (op : Nat) : RingKind :=
  match op with
  | 0xF8 => .tinStage | 0xF9 => .tinActivate | 0xFA => .tinDelta | _ => .tinDiscard

/-- The staged image is one that is applied live (R306). -/
def Die.activatesLive (d : Die) : Bool := d.tin.staged.any fun img => liveDifference d.acceptedSecs img.sections

/-- What a die finds against an operation: of a delta and of a live activation, check 12 for its own tenants; of another activation, own
tenants that the image omits and that are not IDLE or hold key objects (R304, R306) (log 99). -/
def Die.tinVote (d : Die) (op : Nat) (b : Bytes) : TinFault :=
  match op with
  | 0xFA => (failingIndex (imgSections b) d.quotaHolds).map fun k => (0x2A, k)
  | 0xF9 =>
    match d.tin.staged with
    | none => some (0x2D, 0xFF)
    | some img =>
      if img.serial != leAt b 0 4 then some (0x2D, 0xFF)
      else if d.activatesLive then (failingIndex img.sections d.quotaHolds).map fun k => (0x2A, k)
      else if d.omittedBusy img.sections then some (0x2C, 0xFF) else none
  | _ => none

/-- What an operation puts in place on a die: a staged bank, a delta of the chain, or a new base, live or for the reset that follows. -/
def Die.tinCommit (e : Env) (d : Die) (op : Nat) (b : Bytes) : Die :=
  match op with
  | 0xF8 => ((d.setStaged (some (bankImage b))).event .TIN_EVENT_STAGED).report e { Report.of 0x0703 with arg := imgSerial b }
  | 0xFA =>
    { d with tin := { d.tin with deltas := d.tin.deltas ++ [bankImage b] } }.acceptLive e (overlay d.acceptedSecs (imgSections b))
      (imgSerial b) (imgDeltaSeq b)
  | 0xF9 =>
    match d.tin.staged with
    | none => d
    | some img =>
      if d.activatesLive then (d.makeCurrent img).acceptLive e img.sections img.serial 0
      else
        let d1 := ((((d.makeCurrent img).showBank.set .TIN_DELTA_SEQ_VALUE 0).set .TIN_STATUS_SOURCE 1).showDigests img.sections img.serial 0)
        ((d1.extendMeas 7 (d1.digestOf .TIN_DIGEST_DIGEST)).event .TIN_EVENT_ACTIVATED).report e
          { Report.of 0x0704 with arg := img.serial }
  | _ => d.setStaged none

/-- The domain message of an armed activation: it is over, with the domain epoch that it set, 0 for none, and the end of its window. -/
def Die.sendDomain (d : Die) (b : Bytes) : Die := if d.size == 1 then d else d.sendRing .domain none b

def Die.disarm (d : Die) : Die :=
  ({ d with ens := { d.ens with armed := none } }.set .ENS_DOMAIN_STATUS_ARMED 0).set .ENS_ACT_TIME_VALUE 0

/-- A domain activation is performed: the new epoch is committed with the bank (R339). -/
def Die.domainActivated (d : Die) : Die :=
  match d.ens.armed with
  | none => d
  | some a =>
    ((d.disarm.set .ENS_DOMAIN_EPOCH_VALUE a.epoch).rematch.event .ENS_EVENT_ACTIVATED).sendDomain
      ([2] ++ leBytes 8 a.epoch ++ leBytes 8 (a.actTime + 1000 * a.windowS))

/-- The request of a Tin operation, as long as it can be answered. -/
def Die.tinReq (d : Die) (x : TinOp) : Option Req := (d.req? x.rid).filter fun r => r.stage == .running

/-- The operation is over on the lead die. -/
def Die.endTin (d : Die) : Die := { d with tin := { d.tin with op := none } }.set .TIN_STATUS_BUSY 0

/-- Every other die has committed: the lead die commits and replies, and a reset activation starts its ensemble reset (R305 to R308,
log 101). -/
def Die.tinDone (e : Env) (d : Die) (x : TinOp) : Die :=
  let reset := x.op == 0xF9 && !d.activatesLive
  let d1 := d.endTin.tinCommit e x.op x.image
  let d2 := if x.rid = 0 then d1.domainActivated else d1
  let d3 := match d2.tinReq x with
    | some r =>
      if x.op = 0xFB then d2.complete e r (Reply.done 0)
      else d2.finishOut e r (d2.digestOf (if x.op = 0xF8 then .TIN_STAGED_DIGEST_DIGEST else .TIN_DIGEST_DIGEST))
    | none => d2
  if reset then d3.resetEnsemble e else d3

/-- Every die commits; the lead die is the last (R307). -/
def Die.tinCommits (e : Env) (d : Die) (x : TinOp) : Die :=
  if d.otherDies.isEmpty then d.tinDone e x
  else
    let d1 := (d.sendRing (tinKind x.op) none ([1] ++ x.image)).set .TIN_STATUS_BUSY 1
    { d1 with tin := { d1.tin with op := some { x with committing := true, wait := d1.otherDies } } }

/-- A check of an operation fails: it ends without an effect, and every die shows its REASON. -/
def Die.tinRefused (e : Env) (d : Die) (x : TinOp) (f : Nat × Nat) : Die :=
  let d1 := d.endTin
  let d2 := if d1.otherDies.isEmpty then d1 else d1.sendRing (tinKind x.op) none [3, BitVec.ofNat 8 f.1]
  match d2.tinReq x with
  | some r => d2.tinRefuse e r f (if x.op = 0xF9 then leAt x.image 0 4 else imgSerial x.image)
  | none => d2

/-- Every other die has made its checks; check 13 follows. -/
def Die.tinVoted (e : Env) (d : Die) (x : TinOp) : Die :=
  match x.refusal.orElse fun _ => if x.op = 0xFA then d.chainFault x.image else none with
  | some f => d.tinRefused e x f
  | none => d.tinCommits e x

/-- The checks that other dies make for their tenants begin. -/
def Die.tinAsks (e : Env) (d : Die) (x : TinOp) : Die :=
  if d.otherDies.isEmpty then d.tinVoted e x
  else
    let d1 := (d.sendRing (tinKind x.op) none ([0] ++ x.image)).set .TIN_STATUS_BUSY 1
    { d1 with tin := { d1.tin with op := some { x with wait := d1.otherDies } } }

/-- A position has answered, or is not there any more. -/
def Die.tinAnswered (e : Env) (d : Die) (pos : Nat) (f : TinFault) : Die :=
  match d.tin.op with
  | none => d
  | some x =>
    if !x.wait.contains pos then d
    else
      let x1 := { x with wait := x.wait.filter (· != pos), refusal := x.refusal.orElse fun _ => f }
      let d1 := { d with tin := { d.tin with op := some x1 } }
      if !x1.wait.isEmpty then d1 else if x1.committing then d1.tinDone e x1 else d1.tinVoted e x1

/-- What a die answers the lead die. -/
def Die.tinAnswer (d : Die) (op : Nat) (f : TinFault) : Die :=
  d.sendRing (tinKind op) (some (d.get .ENS_STATUS_ACTING_LEAD))
    ([2, BitVec.ofNat 8 d.pos] ++ (match f with | some x => [BitVec.ofNat 8 x.1, BitVec.ofNat 8 x.2] | none => [0, 0]))

/-- A message of a Tin operation: 0 asks for a die's checks, 1 for its commit, 2 is its answer, 3 says that the operation is refused. -/
def Die.tinMessage (e : Env) (d : Die) (op : Nat) (b : Bytes) : Die :=
  match leAt b 0 1 with
  | 2 => d.tinAnswered e (leAt b 1 1) (if leAt b 2 1 = 0 then none else some (leAt b 2 1, leAt b 3 1))
  | 0 => if d.isLead then d else (d.set .TIN_STATUS_BUSY 1).tinAnswer op (d.tinVote op (b.drop 1))
  | 1 => if d.isLead then d else ((d.tinCommit e op (b.drop 1)).set .TIN_STATUS_BUSY 0).tinAnswer op none
  | _ => if d.isLead then d else ((d.set .TIN_STATUS_BUSY 0).set .TIN_STATUS_LAST_REASON (leAt b 1 1)).event .TIN_EVENT_REFUSED

/-- An operation without checks of its own by other dies yet made. -/
def tinOp (rid op : Nat) (image : Bytes) : TinOp := { rid, op, committing := false, wait := [], image, refusal := none }

/-- TIN_STAGE; without an owner key every one completes POLICY_DENY (R311, R415). `received` is a message of one: on another
die what the lead die sends, on the lead die an answer. -/
def execTinStage (rid : Nat) (received : Option Bytes) (s : State) : Out :=
  s.act fun e d0 =>
    match received with
    | some m => d0.tinMessage e 0xF8 m
    | none => d0.handle e rid 0xF8 fun r =>
      d0.tinRequest e r 0 48 true
        (let d := d0.setStage rid .running
         let b := dmaRead e d r.inAddr r.inLen
         match d.ownerPair with
         | none => d.fail e r .policyDeny 0x0F
         | some owner =>
           if 786432 < r.inLen || r.inLen != leAt b 8 4 then d.fail e r .badDescriptor 2
           else match (d.frameFault 1 b).orElse fun _ => d.stageFault owner b with
             | some x => d.tinRefused e (tinOp rid 0xF8 b) x
             | none => d.tinCommits e (tinOp rid 0xF8 b))

/-- TIN_DELTA. -/
def execTinDelta (rid : Nat) (received : Option Bytes) (s : State) : Out :=
  s.act fun e d0 =>
    match received with
    | some m => d0.tinMessage e 0xFA m
    | none => d0.handle e rid 0xFA fun r =>
      d0.tinRequest e r 0 48 true
        (let d := d0.setStage rid .running
         let b := dmaRead e d r.inAddr r.inLen
         match d.ownerPair with
         | none => d.fail e r .policyDeny 0x0F
         | some owner =>
           if 65536 < r.inLen || r.inLen != leAt b 8 4 then d.fail e r .badDescriptor 2
           else match (d.frameFault 2 b).orElse fun _ => d.deltaFault owner b with
             | some x => d.tinRefused e (tinOp rid 0xFA b) x
             | none => d.tinAsks e (tinOp rid 0xFA b))

/-- The activation of the staged image with a SERIAL, for a request, or at the time of a domain activation (rid 0) (R306). -/
def Die.activateStaged (e : Env) (d : Die) (rid serial : Nat) : Die :=
  let x := tinOp rid 0xF9 (leBytes 4 serial)
  match d.tinVote 0xF9 x.image with
  | some f => d.tinRefused e x f
  | none => d.tinAsks e x

/-- TIN_ACTIVATE. -/
def execTinActivate (rid : Nat) (received : Option Bytes) (s : State) : Out :=
  s.act fun e d0 =>
    match received with
    | some m => d0.tinMessage e 0xF9 m
    | none => d0.handle e rid 0xF9 fun r =>
      d0.tinRequest e r 4 48 false ((d0.setStage rid .running).activateStaged e rid (leAt r.desc 56 4))

/-- TIN_DISCARD. -/
def execTinDiscard (rid : Nat) (received : Option Bytes) (s : State) : Out :=
  s.act fun e d0 =>
    match received with
    | some m => d0.tinMessage e 0xFB m
    | none => d0.handle e rid 0xFB fun r => d0.tinRequest e r 0 0 false ((d0.setStage rid .running).tinCommits e (tinOp rid 0xFB []))

end Sys2Proof.Machine
end

