-- ==== Sys2Proof/Machine/Ring.lean ====
section
/-! DEFINITION. The ring links, discovery and the start of an ensemble (spec/12 R313 to R321). -/
namespace Sys2Proof.Machine

/-! ## Links (R313 to R316) -/

/-- Changes the state of a link, `b` for ring B. -/
def Die.updLink (d : Die) (b : Bool) (f : RingLink → RingLink) : Die :=
  if b then { d with ens := { d.ens with linkB := f d.ens.linkB } } else { d with ens := { d.ens with linkA := f d.ens.linkA } }

def Die.setUp (d : Die) (b : Bool) (v : Nat) : Die := d.set (if b then .ENS_LINKS_UP_B else .ENS_LINKS_UP_A) v
def Die.isUp (d : Die) (b : Bool) : Bool := if b then d.upB else d.upA
def Die.link (d : Die) (b : Bool) : RingLink := if b then d.ens.linkB else d.ens.linkA

/-- The bytes of a discovery list, and of the way it travels. -/
def discoverBody (way : Bool) (found : List FoundDie) : Bytes :=
  leBytes 1 (ofBool way) ++ found.map fun f => BitVec.ofNat 8 (f.pos + 8 * ofBool f.lead)

/-- The strapped lead die discovers: after a cold or ensemble reset. One that returns from a warm reset of its own knows the ensemble's
size and is started by the acting lead (R320, R322, R329). -/
def Die.discovers (d : Die) : Bool := d.ens.leadStrap && d.get .ENS_STATUS_SIZE == 0 && d.get .ENS_STATUS_STATE == 0

/-- The position at the other end of a link, of an ensemble of `n` dies (R313). -/
def Die.peerPos (d : Die) (b : Bool) (n : Nat) : Nat := if b then (d.pos + n - 1) % n else (d.pos + 1) % n

/-- The peer of a link is accepted (R315, R318): its chain holds, its life-cycle state is this die's, and its identity is the one recorded
for its position, where the ensemble is founded. -/
def Die.peerOk (d : Die) (b chain : Bool) (lcs : Nat) (ident : Bytes) : Bool :=
  chain && lcs == d.get .LCS_STATE_STATE &&
    (d.ens.founded.isEmpty || d.ens.founded.getD (d.peerPos b d.ens.founded.length) [] == ident)

/-- RING_LINK_UP: training of a link, with `repaired` lanes to remap, and its key exchange with a peer of chain, life-cycle state and
identity as told have ended. More lanes than the two that can be remapped, and a refused peer, leave the link down, and an ensemble of one
die has its modules powered off (R313). The link epoch rises, and the lead die, while it discovers, sends its DISCOVER message that way
(R315, R317). -/
def execRingLinkUp (b chain : Bool) (lcs : Nat) (ident : Bytes) (repaired : Nat) (s : State) : Out :=
  s.act fun _ d =>
    let d1 := d.set (if b then .ENS_LINKS_REPAIRED_B else .ENS_LINKS_REPAIRED_A) (min repaired 2)
    if d.ens.founded.length == 1 then d
    else if 2 < repaired then d.setUp b 0
    else if !d.peerOk b chain lcs ident then (d1.setUp b 0).set (if b then .ENS_LINKS_AUTH_FAIL_B else .ENS_LINKS_AUTH_FAIL_A) 1
    else
      let d2 := (d1.setUp b 1).set (if b then .ENS_LINKS_AUTH_FAIL_B else .ENS_LINKS_AUTH_FAIL_A) 0
      let d3 := d2.updLink b fun l => { (default : RingLink) with epoch := (l.epoch + 1) % 2 ^ 32 }
      if d3.discovers then d3.sendLink b .discover (discoverBody b []) else d3

/-- What the lead die shows of something it must raise on vector 21: the event bit, and the message whatever the enable. -/
def Die.raise21 (d : Die) (ev : Fld) : Die := if d.isLead then (d.set ev 1).signal 0 21 else d.event ev

/-- RING_LINK_DOWN (R316). Another die tells the lead die, which it reaches as `received`. -/
def execRingLinkDown (b : Bool) (received : Option Nat) (s : State) : Out :=
  s.act fun e d =>
    match received with
    | some _ => if d.isLead then d.raise21 .ENS_EVENT_LINK_DOWN else d
    | none =>
      if !d.isUp b then d
      else (((d.setUp b 0).raise21 .ENS_EVENT_LINK_DOWN).report e { Report.of 0x0802 with unit := ofBool b }).tellLead [2]

/-- RING_FLIT_ERROR: a flit with a bad CRC or out of order is sent again from the replay buffer (R314). -/
def execRingFlitError (b : Bool) (s : State) : Out :=
  s.act fun _ d => if d.isUp b then d.updLink b fun l => { l with replays := l.replays + 1 } else d

/-- RING_REKEY: after 2^32 messages the link changes to fresh keys, and counts its messages anew (R315). -/
def execRingRekey (b : Bool) (s : State) : Out :=
  s.act fun _ d => if d.isUp b && decide (2 ^ 32 ≤ (d.link b).messages) then d.updLink b fun l => { l with messages := 0 } else d

/-! ## Discovery (R317) -/

/-- The die of the straps. -/
def Die.asFound (d : Die) : FoundDie := { pos := d.pos, lead := d.ens.leadStrap }

/-- All dies found but this one, in the order of ring A. -/
def Die.allFound (d : Die) : List FoundDie :=
  if d.ens.foundBack.reverse == d.ens.found then d.ens.found else d.ens.found ++ d.ens.foundBack.reverse

/-- N: the smallest ensemble size above every position found (R317). -/
def Die.foundSize (d : Die) : Nat :=
  let top := d.allFound.foldl (fun m f => max m f.pos) d.pos
  if top = 0 then 1 else if top = 1 then 2 else if top ≤ 3 then 4 else 8

/-- Positions rise by 1 along a list of neighbours, modulo `n`. -/
def risesBy1 (n : Nat) : List Nat → Bool
  | a :: b :: r => (a + 1) % n == b && risesBy1 n (b :: r)
  | _ => true

/-- No position repeats. -/
def distinctPos : List Nat → Bool
  | [] => true
  | a :: r => !r.contains a && distinctPos r

/-- Positions below N that nothing was found at. -/
def Die.absentPos (d : Die) (n : Nat) : List Nat :=
  (List.range n).filter fun p => p != d.pos && !d.allFound.any fun f => f.pos == p

/-- Dies that may be absent at an ensemble start (R227). -/
def absentAllowed (n : Nat) : Nat := n - thresholdOf n

/-- What is wrong with the pattern of straps, as ENS_STATUS.FAULT codes it; 0 when it is valid (R317). -/
def Die.patternFault (d : Die) : Nat :=
  let n := d.foundSize
  let ps := d.allFound.map FoundDie.pos
  let ring := d.ens.foundBack.reverse == d.ens.found && !d.ens.found.isEmpty
  if d.allFound.any FoundDie.lead then 1
  else if !distinctPos (d.pos :: ps) then 2
  else if !(risesBy1 n (d.pos :: d.ens.found.map FoundDie.pos) && risesBy1 n ((d.ens.foundBack.map FoundDie.pos).reverse ++ [d.pos]) &&
      (!ring || risesBy1 n (ps ++ [d.pos]))) then 3
  else if absentAllowed n < (d.absentPos n).length || (d.ens.founded.isEmpty && !(d.absentPos n).isEmpty) then 4
  else 0

/-- A configuration fault holds: no virtual function is assigned and no slice is served (R319). -/
def Die.inFault (d : Die) : Die :=
  let off (d : Die) (f : Nat) : Die := ((d.setAt .QUE_PAGE_STATUS_ASSIGNED f 0).setAt .QUE_PAGE_STATUS_READY f 0).setAt .TEN_STATE_STATE f 0
  ((List.range 255).map (· + 1)).foldl off ((d.set .ENS_STATUS_STATE 3).set .MLF_STATUS_STATE 0)

/-- A configuration fault on this die (R319). -/
def Die.configFault (e : Env) (d : Die) (fault : Nat) : Die :=
  ((d.set .ENS_STATUS_FAULT fault).raise21 .ENS_EVENT_CFG_FAULT).inFault.reportOf e 0x0806

/-- The ensemble-level state of this die (R18, R321). -/
def Die.ensCopy (d : Die) : EnsCopy :=
  { minute := d.get .KFT_MINUTE_MINUTE, ticket := d.get .NTT_TICKET_EPOCH_EPOCH, archive := d.get .MLF_ARCHIVE_EPOCH_EPOCH,
    serial := d.get .KEY_CEREMONY_SERIAL_SERIAL, steer := (List.range 64).map (d.getAt .REC_STEER_POSITION),
    standby := (List.range 2048).filterMap fun t =>
      if d.hasAt .ENS_STANDBY_VALID t then some (t, d.getAt .ENS_STANDBY_STANDBY t) else none,
    gens := d.ens.gens, vgens := d.ens.vgens }

/-- The bytes of such state in a ring message; their layout is the model's (log 146, 202). -/
def EnsCopy.bytes (c : EnsCopy) : Bytes :=
  leBytes 4 c.minute ++ leBytes 4 c.ticket ++ leBytes 4 c.archive ++ leBytes 8 c.serial ++ c.steer.flatMap (leBytes 1) ++
    leBytes 2 c.standby.length ++ (c.standby.flatMap fun x => leBytes 2 x.1 ++ leBytes 2 x.2) ++
    leBytes 2 c.gens.length ++ (c.gens.flatMap fun x => leBytes 2 x.1 ++ leBytes 4 x.2) ++ c.vgens.flatMap fun x => leBytes 2 x.1 ++ leBytes 4 x.2

/-- The message by which the lead die starts every other die (R320); the first byte is the cause of a fault, with bit 3 where the pattern is
invalid (log 146). -/
def Die.stateBody (d : Die) : Bytes :=
  leBytes 1 (d.get .ENS_STATUS_FAULT + 8 * ofBool (d.get .ENS_STATUS_STATE == 3)) ++ leBytes 1 (d.get .ENS_STATUS_SIZE) ++ leBytes 1 (d.get .ENS_STATUS_LEAD_POS) ++ leBytes 1 d.pos ++
    leBytes 4 (d.get .ENS_SERVE_SERVER) ++ leBytes 1 d.ens.founded.length ++ (d.ens.founded.flatMap fun x => x) ++ d.ensCopy.bytes

/-- The steering table at an ensemble reset, now that N is known: entry i names position i mod N (R111). A warm reset leaves the size
standing, and the table with it. -/
def Die.steerDefaults (d : Die) (n : Nat) : Die :=
  if d.get .ENS_STATUS_SIZE = 0 then (List.range 64).foldl (fun d i => d.setAt .REC_STEER_POSITION i (i % n)) d else d

/-- The lead die decides with the dies it has found. -/
def Die.decideDies (e : Env) (d : Die) : Die :=
  let d1 := d.set .ENS_STATUS_LEAD_POS d.pos
  if d.patternFault != 0 then
    let d2 := d1.configFault e d.patternFault
    d2.sendRing .state none d2.stateBody
  else ((((d1.steerDefaults d.foundSize).set .ENS_STATUS_SIZE d.foundSize).set .ENS_STATUS_ACTING_LEAD d.pos).set .KEY_ROOT_STATUS_THRESHOLD
    (thresholdOf d.foundSize)).set .ENS_STATUS_STATE 1

/-- DISCOVER: a discovery list arrives over module `b` (true for ring B), sent along ring B when `way` says so. A die that is not
the lead appends itself and sends it on; at the end of a chain it goes back the way it came. The lead keeps the list, and
decides at once when no position is absent (log 104). -/
def execDiscover (b way : Bool) (found : List FoundDie) (s : State) : Out :=
  s.act fun e d0 =>
    let d := d0.port (if b then 4 else 2) (256 * flitsOf (1 + found.length))
    if d.get .ENS_STATUS_STATE != 0 then d
    else if !d.discovers then
      let out := b != way
      let list := if out then found ++ [d.asFound] else found
      let d1 := { d with ens := { d.ens with found := list } }
      if d1.isUp (!b) then d1.sendLink (!b) .discover (discoverBody way list) else d1.sendLink b .discover (discoverBody way list)
    else
      let whole := b != way
      let d1 : Die :=
        if way then { d with ens := { d.ens with foundBack := found, found := if whole then found.reverse else d.ens.found } }
        else { d with ens := { d.ens with found := found, foundBack := if whole then found.reverse else d.ens.foundBack } }
      if d1.clk.booted && (d1.absentPos d1.foundSize).isEmpty then d1.decideDies e else d1

/-- The time of discovery is over: 1,000 ms since the boot; a lead die at position 0 with no ring link up need not wait (R317). -/
def Die.discoveryOver (d : Die) : Bool :=
  decide (d.clk.bootMs + 1000 ≤ d.nowMs) || (d.discovers && d.pos == 0 && !d.upA && !d.upB)

/-- DISCOVERY_TIMEOUT: 1,000 ms after the lead's own boot it decides; a die that no DISCOVER message has reached since a cold or
ensemble reset finds no lead (log 40). -/
def execDiscoveryTimeout (s : State) : Out :=
  s.act fun e d =>
    if d.get .ENS_STATUS_STATE != 0 || !d.clk.booted || !d.discoveryOver then d
    else if d.discovers then d.decideDies e
    else if d.ens.found.isEmpty && (d.has .RST_CAUSE_POWER_ON || d.has .RST_CAUSE_PORST || d.has .RST_CAUSE_ENSEMBLE) then d.configFault e 1
    else d

/-! ## The ensemble start (R318 to R320) -/

/-- The position that serves an absent or failed position: its mirror holder, or the next die along ring A that is present and
holds no adopted slice (R152, R324) (log 107). -/
def freeServer (n : Nat) (gone taken : List Nat) (p : Nat) : Nat :=
  (((List.range (n - 1)).map fun k => (p + 1 + k) % n).find? fun q => !gone.contains q && !taken.contains q).getD p

/-- The serve map of a start, as ENS_SERVE holds it: each absent position served by another die and marked adopted. -/
def serveMap (n : Nat) (gone : List Nat) : Nat :=
  let pick := gone.foldl (fun (acc : List (Nat × Nat)) p => acc ++ [(p, freeServer n gone (acc.map fun x => x.2) p)]) []
  (List.range 8).foldl (fun w p =>
    match pick.find? fun x => x.1 == p with
    | some x => putBits w (4 * p + 3) (4 * p) (x.2 + 8)
    | none => putBits w (4 * p + 3) (4 * p) p) 0

/-- The adopted position that a serve map gives this die. -/
def Die.servesToo (d : Die) : Option Nat :=
  (List.range 8).find? fun p => p != d.pos && d.serverOf p == d.pos && bit (d.get .ENS_SERVE_SERVER) (4 * p + 3)

/-- The nonce, levels 4 and 5 and the dirty level-2 blocks of a slice to the mirror holder (R152, R155). -/
def Die.mirrorSlice (d : Die) (home : Nat) : Die :=
  let ks := d.mlf.tree.filter fun t => treeHome t.1 == home && (decide (4 ≤ treeLevel t.1) || d.mlf.dirty.contains t.1)
  ks.foldl (fun d t => d.mirror 5 home t.1 t.2.counters) (d.mirror 7 home 0 (leBytes 8 (d.sliceNonce home)))

/-- This die mirrors the slices that it serves from now on (R152, R155). -/
def Die.startMirror (d : Die) : Die :=
  if d.size == 1 then d
  else
    let d1 := (d.set .MLF_STATUS_MIRROR_OK 1).mirrorSlice d.pos
    if d1.has .MLF_STATUS_ADOPTED then d1.mirrorSlice (d1.get .MLF_STATUS_ADOPTED_POS) else d1

/-- The domain keys and ESK that a root yields (R224, R331). -/
def Die.takeRoot (d : Die) (dr : Bytes) : Die :=
  { d.set .KEY_ROOT_STATUS_ESK_VALID 1 with
    key := { d.key with esk := some (kdf dr (ascii "ESK") d.ensembleIdentity 32) }
    ens := { d.ens with dxk := some (kdf dr (ascii "DOMAIN-XPORT") [] 32), dtk := some (kdf dr (ascii "DOMAIN-TUPLE") [] 32) } }

/-- SHARES_FOUND, and ESK and the domain working keys; no keys where no subset of the shares combined. -/
def Die.eskBody (d : Die) : Bytes :=
  leBytes 1 (d.get .KEY_ROOT_STATUS_SHARES_FOUND) ++ d.key.esk.getD [] ++ d.ens.dxk.getD [] ++ d.ens.dtk.getD []

/-- They go to every die. -/
def Die.sendEsk (d : Die) : Die := if d.size == 1 then d else d.sendRing .esk none d.eskBody

/-- The own shares, of the generation committed and of one that is not (R248). -/
def Die.ownShare (d : Die) : List Share := d.key.share.toList ++ d.key.nextShare.toList

/-- The share that a die has sent (log 201). -/
def DiePart.shareOf (p : DiePart) : List Share :=
  if p.share.isEmpty then [] else [{ x := p.x, threshold := 0, gen := p.gen, check := p.check, share := p.share }]

/-- The shares in position order. -/
def Die.allShares (d : Die) (parts : List DiePart) : List Share :=
  (parts.filter fun p => decide (p.pos < d.pos)).flatMap DiePart.shareOf ++ d.ownShare ++
    (parts.filter fun p => decide (d.pos < p.pos)).flatMap DiePart.shareOf

/-- How many dies a list of shares comes from. -/
def sharesFound (ss : List Share) : Nat := ((List.range 8).filter fun p => ss.any fun s => s.x == p + 1).length

/-- Shares combined (R228). In the Blank and test states, which have no root of their own, the published test root stands in
(log 41). -/
def Die.combine (d : Die) (parts : List DiePart) : Die :=
  let shares := d.allShares parts
  let d1 := d.set .KEY_ROOT_STATUS_SHARES_FOUND (sharesFound shares)
  if isTestState (d.get .LCS_STATE_STATE) then d1.takeRoot ((List.range 32).map fun i => Config.romKeyByte 5 0 i)
  else match combineShares (thresholdOf d.size) shares with
    | some dr => d1.takeRoot dr
    | none => d1.set .KEY_ROOT_STATUS_COMBINE_FAIL 1

/-- Shares of every tenant of the die for the ensemble's size (R298). -/
def Die.sizeShares (d : Die) : Die := d.tenantSections.foldl (fun d t => d.liveTenant t.1 t.2) d

/-- Step 7 of R320: slices formatted, mirrors set up, RUNNING. With no image loaded, or no ESK, no slice is served. -/
def Die.startSlices (d : Die) : Die :=
  let d1 := d.sizeShares
  let ok := !d1.tin.running.isEmpty && d1.key.esk.isSome
  let d2 := if ok then (d1.formatSlice d1.pos).set .MLF_STATUS_STATE 1 else d1
  let d3 := match d2.servesToo with
    | some p => if ok then ((((d2.set .MLF_STATUS_ADOPTED 1).set .MLF_STATUS_ADOPTED_POS p).formatSlice p).setRegion 257 1 (d2.sliceWindow p)).committed 257 else d2
    | none => d2
  (if ok then d3.startMirror else d3).set .ENS_STATUS_STATE 2

/-- The identities founded; ENS_IDENTITY shows the ensemble identity from then on (R318). -/
def Die.foundAs (d : Die) (idents : List Bytes) : Die :=
  let d1 := { d with ens := { d.ens with founded := idents } }
  d1.setDigest .ENS_IDENTITY_DIGEST d1.ensembleIdentity

/-- The identities of positions 0 to N − 1 at a founding start: every die present and in Provisioning. -/
def Die.foundingIdents (d : Die) (parts : List DiePart) : Option (List Bytes) :=
  let all := (List.range d.size).map fun p =>
    if p = d.pos then (if d.get .LCS_STATE_STATE == 3 then d.dieIdentity else [])
    else ((parts.find? fun x => x.pos == p && x.lcs == 3).map DiePart.ident).getD []
  if d.ens.founded.isEmpty && all.all (fun x => !x.isEmpty) then some all else none

/-- An archive bump that did not reach every die is finished: every counter takes the highest (R162). -/
def Die.equalArchive (d : Die) (parts : List DiePart) : Die :=
  let own := d.get .MLF_ARCHIVE_EPOCH_EPOCH
  let top := parts.foldl (fun m p => max m p.archive) own
  if own == top && parts.all fun p => p.archive == top then d else d.bumpTo top

/-- The current bank as it is sent to a die (R310). -/
def Die.bankBytes (d : Die) : Bytes := ((d.tin.base.map fun i => i.bytes).getD []) ++ d.tin.deltas.flatMap fun i => i.bytes

/-- The lead die's part of the start, steps 2 to 6 (R320). -/
def Die.leadStart (e : Env) (d0 : Die) (m : StartMsg) : Die :=
  let d := match d0.foundingIdents m.parts with
    | some l => d0.foundAs l
    | none => d0
  let same (x : DiePart) : Bool := d.ens.founded.isEmpty || d.ens.founded.getD x.pos [] == x.ident
  let parts := m.parts.filter fun x => decide (x.pos < d.size) && x.pos != d.pos && same x
  let gone := (List.range d.size).filter fun p => p != d.pos && !parts.any fun x => x.pos == p
  let odd := !m.parts.all same
  let d1 := if odd then d.set .ENS_STATUS_FAULT 5 else d
  if absentAllowed d1.size < gone.length then
    let d2 := d1.configFault e (if odd then 5 else 4)
    d2.sendRing .state none d2.stateBody
  else
    let late := parts.filter fun x => x.digest != d1.digestOf .TIN_DIGEST_DIGEST
    if !late.isEmpty then
      late.foldl (fun d x => d.sendRing .tinStage (some x.pos) d.bankBytes) d1
    else
      let d2 := d1.set .ENS_SERVE_SERVER (serveMap d1.size gone)
      let d3 := ((d2.combine parts).wrap .NTT_TICKET_EPOCH_EPOCH 1).set .KFT_MINUTE_MINUTE 0
      let d4 := if d3.size == 1 then d3 else (d3.sendRing .state none d3.stateBody).sendEsk
      (d4.equalArchive parts).startSlices

/-- A die takes the lead die's bank (R310): with its signatures good it is committed, and the boot starts again (log 105). -/
def Die.takeBank (d : Die) (m : StartMsg) : Die :=
  let ok := match d.ownerPair with
    | some k => vendorSigOk m.bank && ownerSigOk k m.bank && m.deltas.all fun x => ownerSigOk k x
    | none => false
  if !ok then d
  else
    let d1 := { d with tin := { d.tin with base := some (bankImage m.bank), deltas := m.deltas.map bankImage } }
    let c := if d.get .ENS_STATUS_SIZE = 0 then 3 else 2
    let d2 := d1.cleared c
    { d2 with clk := { d2.clk with resetClass := c } }

/-- The ensemble-level state that the lead die sends is taken (R18, R321); an archive epoch never falls (R162). -/
def Die.takeCopy (d : Die) (c : EnsCopy) : Die :=
  let d1 := (((d.set .KFT_MINUTE_MINUTE c.minute).set .NTT_TICKET_EPOCH_EPOCH c.ticket).set .MLF_ARCHIVE_EPOCH_EPOCH
    (max (d.get .MLF_ARCHIVE_EPOCH_EPOCH) c.archive)).set .KEY_CEREMONY_SERIAL_SERIAL c.serial
  let d2 : Die := if c.steer.isEmpty then d1
    else (List.range 64).foldl (fun d i => d.setAt .REC_STEER_POSITION i (c.steer.getD i 0)) d1
  let d3 : Die := c.standby.foldl (fun d x => (d.setAt .ENS_STANDBY_VALID (x.1 % 2048) 1).setAt .ENS_STANDBY_STANDBY (x.1 % 2048) x.2) d2
  { d3 with ens := { d3.ens with gens := c.gens, vgens := c.vgens } }

/-- Any other die's part of the start, up to the keys (R320, R329). An identity that differs (5) is a fault of the
pattern only where the lead die's message says so, with bit 3 (R318, R319). -/
def Die.memberStart (e : Env) (d : Die) (m : StartMsg) : Die :=
  let d1 := d.set .ENS_STATUS_LEAD_POS m.lead
  if m.fault % 8 != 0 && m.fault != 5 then d1.configFault e (m.fault % 8)
  else if !m.bank.isEmpty then d1.takeBank m
  else
    let d2 := if d1.ens.founded.isEmpty && !m.idents.isEmpty then d1.foundAs m.idents else d1
    let d3 := ((((d2.steerDefaults m.size).set .ENS_STATUS_SIZE m.size).set .ENS_STATUS_ACTING_LEAD m.acting).set .ENS_STATUS_FAULT m.fault).set
      .ENS_STATUS_STATE 1
    ((d3.set .KEY_ROOT_STATUS_THRESHOLD (thresholdOf m.size)).set .ENS_SERVE_SERVER m.serve).takeCopy m.copy

/-- A die answers the running lead die: one that returns from a warm reset, or arrives late, gets the lead's bank, or where it holds that
already the ensemble's state and its keys (R320, R329). A die of another identity stays absent (R318). -/
def Die.startLate (d : Die) (m : StartMsg) : Die :=
  m.parts.foldl (fun d x =>
    if d.size ≤ x.pos || x.pos == d.pos || d.serverOf x.pos == x.pos then d
    else if d.ens.founded.getD x.pos [] != x.ident then d.set .ENS_STATUS_FAULT 5
    else if x.digest != d.digestOf .TIN_DIGEST_DIGEST then d.sendRing .tinStage (some x.pos) d.bankBytes
    else (d.sendRing .state (some x.pos) d.stateBody).sendRing .esk (some x.pos) d.eskBody) d

/-- ENSEMBLE_START (R320): on the lead die from STARTING on, and for late dies once it is RUNNING; on any other die as the lead's messages
reach it. -/
def execEnsembleStart (msg : StartMsg) (s : State) : Out :=
  s.act fun e d =>
    if !d.clk.booted then d
    else if d.isLead then
      (if d.get .ENS_STATUS_STATE == 1 then d.leadStart e msg else if d.get .ENS_STATUS_STATE == 2 then d.startLate msg else d)
    else if d.get .ENS_STATUS_STATE ≤ 1 then d.memberStart e msg else d

/-- What the lead die's combination came to reaches this die: the keys, or COMBINE_FAIL (R18, R228). -/
def Die.takeEsk (d : Die) (esk dxk dtk : Bytes) (found : Nat) : Die :=
  let d1 := d.set .KEY_ROOT_STATUS_SHARES_FOUND found
  if esk.isEmpty then d1.set .KEY_ROOT_STATUS_COMBINE_FAIL 1
  else
    let d2 := (d1.set .KEY_ROOT_STATUS_COMBINE_FAIL 0).set .KEY_ROOT_STATUS_ESK_VALID 1
    { d2 with key := { d2.key with esk := some (slice esk 0 32) },
              ens := { d2.ens with dxk := some (slice dxk 0 32), dtk := some (slice dtk 0 32) } }

/-- ESK_RECEIVED: the keys of the ensemble reach a die that is not the lead, with the number of shares found; `esk` is empty where no
subset of them combined. The die goes on with step 7, or, as a returning die, waits for its slice (R320, R329); a die that runs without
keys, since the root was not there, serves its slices from now on. -/
def execEskReceived (esk dxk dtk : Bytes) (returning : Bool) (found : Nat) (s : State) : Out :=
  s.act fun _ d =>
    if !d.clk.booted || d.get .ENS_STATUS_STATE == 3 then d
    else
      let d2 := d.takeEsk esk dxk dtk found
      if returning then (((d2.set .ENS_STATUS_STATE 1).sizeShares).set .MLF_STATUS_STATE 3)
      else if d2.get .ENS_STATUS_STATE == 1 || (d2.get .ENS_STATUS_STATE == 2 && d2.get .MLF_STATUS_STATE == 0) then d2.startSlices
      else d2

end Sys2Proof.Machine
end

