-- ==== Sys2Proof/Machine/Adopt.lean ====
section
/-! DEFINITION. Taking over a slice that another die wrote (spec/05 R152 to R155, spec/12 R329): the adopter after a failure, which
resolves what the mirror says is pending and reads the rest on demand, and the returning die at a handback. -/
namespace Sys2Proof.Machine

/-! ## Pending entries of the mirror (R147, R154; their layout: log 11) -/

/-- Slots of a pending write: index, version before, version after. -/
def pendingSlots (p : Bytes) : List (Nat × Nat × Nat) :=
  (List.range ((p.length - 34) / 20)).map fun k => (leAt p (18 + 20 * k) 4, leAt p (22 + 20 * k) 8, leAt p (30 + 20 * k) 8)

/-- The versions of the level-1 block after and before a pending write. -/
def pendingBlock (p : Bytes) : List Nat := [leAt p (p.length - 8) 8, leAt p (p.length - 16) 8]

/-- Pending writes under a level-1 block, newest first. -/
def MirrorArea.writesOf (m : MirrorArea) (key : Nat) : List Bytes :=
  (m.pendings.filter fun p => leAt p 0 1 == 1 && leAt p 2 8 == key).reverse

/-- Versions that pending writes give slot `i`, new before old. -/
def slotCandidates (ps : List Bytes) (i : Nat) : List Nat :=
  let ss := (ps.flatMap pendingSlots).filter fun s => s.1 == i
  (ss.map fun s => s.2.2) ++ ss.map fun s => s.2.1

/-- Versions that the pending writes of a mirror give child `i` of a block of level `level`: a slot, or a level-1 block. -/
def MirrorArea.candidates (m : MirrorArea) (home level i : Nat) : List Nat :=
  match level with
  | 1 => slotCandidates (m.writesOf (treeKeyOf home 1 (i / 32))) i
  | 2 => (m.writesOf (treeKeyOf home 1 i)).flatMap pendingBlock
  | _ => []

/-- The block that the host copy holds at a place verifies under a version. -/
def Die.blockUnder (e : Env) (d : Die) (home level j v : Nat) : Option VBlock :=
  if v = 0 then some default
  else match (d.readBlock e home level j v).2 with
    | .ok b => some b
    | .error _ => none

/-- Child `i` of a block of level `level` opens under a version. -/
def Die.childOpens (e : Env) (d : Die) (home level i v : Nat) : Bool :=
  if level = 1 then (d.openSlot e home i v).isSome else (d.blockUnder e home (level - 1) i v).isSome

/-- A version block and those above it are on the die. -/
def Die.fetchTo (e : Env) (d : Die) (home level j : Nat) : Die × Option StoreFault :=
  match level with
  | 1 => d.fetchPath e home j
  | 2 => match d.fetch3 e home (j / 32) with
    | (d1, none) => d1.fetchBlock e home 2 j
    | x => x
  | 3 => d.fetch3 e home j
  | _ => (d, none)

/-- One child of a pending re-seal (R154): the version under which the host copy opens decides. A child still under an old version is
written again; one that opens under none is an integrity failure. -/
def Die.resolveChild (e : Env) (m : MirrorArea) (home level j : Nat) (old : VBlock) (d : Die) (c : Nat) : Die :=
  let i := 32 * j + c
  let b := d.vblock home level j
  let nv := (old.major + 1) * 128
  let vs := [b.version c, nv, nv + 1, old.version c] ++ m.candidates home level i
  match vs.find? (d.childOpens e home level i) with
  | none => d.integrity e 0 home (level - 1) i 5
  | some v =>
    if v / 128 = old.major + 1 then (d.storeRead (if level = 1 then 128 else 64)).setVblock home level j (b.setMinor c (v % 128))
    else match d.resealChild e home level i v with
      | (d1, some f) => d1.storeFault e 0 home f
      | (d1, none) => d1

/-- One pending re-seal resolved and finished (R154, R150 step 4). -/
def Die.resolveReseal (e : Env) (home : Nat) (m : MirrorArea) (d : Die) (p : Bytes) : Die :=
  let level := treeLevel (leAt p 2 8)
  let j := treeIndex (leAt p 2 8)
  let old := countersAt p 14
  match d.fetchTo e home level j with
  | (d1, some f) => d1.storeFault e 0 home f
  | (d1, none) =>
    let b := d1.vblock home level j
    let d2 := d1.setVblock home level j (if b.major = old.major + 1 then b else { major := old.major + 1, minors := 0 })
    let d3 : Die := (List.range 32).foldl (Die.resolveChild e m home level j old) d2
    let r : Reseal := { home, level, index := j, old, left := [] }
    { d3 with mlf := { d3.mlf with reseals := d3.mlf.reseals ++ [r] } }.endReseal e r

/-- The version of a pending slot, by what the host holds (R154): that of its block, else the newest of its candidates that opens. -/
def Die.resolveSlot (e : Env) (home : Nat) (ps : List Bytes) (acc : Die × VBlock) (i : Nat) : Die × VBlock :=
  match (acc.2.version (i % 32) :: slotCandidates ps i).find? fun v => (acc.1.openSlot e home i v).isSome with
  | none => (acc.1.integrity e 0 home 0 i 5, acc.2)
  | some v => (acc.1.storeRead 128, if v / 128 = acc.2.major then acc.2.setMinor (i % 32) (v % 128) else acc.2)

/-- Removes repeats. -/
def dedup : List Nat → List Nat
  | [] => []
  | a :: r => if r.contains a then dedup r else a :: dedup r

/-- The pending writes under level-1 block `x` resolved (R154): complete; completed; or undone. The block is written again under the
version that its parent holds. -/
def Die.resolveWrites (e : Env) (home : Nat) (m : MirrorArea) (d : Die) (x : Nat) : Die :=
  let ps := m.writesOf (treeKeyOf home 1 x)
  match d.fetchTo e home 2 (x / 32) with
  | (d1, some f) => d1.storeFault e 0 home f
  | (d1, none) =>
    match (d1.versionOf home 1 x :: ps.flatMap pendingBlock).findSome? (d1.blockUnder e home 1 x) with
    | none => d1.integrity e 0 home 1 x 5
    | some b =>
      let y := (dedup ((ps.flatMap pendingSlots).map fun s => s.1)).foldl (Die.resolveSlot e home ps) (d1.storeRead 64, b)
      (y.1.cacheBlock home 1 x y.2).writeBlock e home 1 x

/-- Every pending entry resolved, re-seals from the top down before writes; the writes under a re-sealed level-1 block are resolved with
it. -/
def Die.resolvePendings (e : Env) (home : Nat) (m : MirrorArea) (d : Die) : Die :=
  let rs (l : Nat) : List Bytes := m.pendings.filter fun p => leAt p 0 1 == 3 && treeLevel (leAt p 2 8) == l
  let blocks := dedup ((m.pendings.filter fun p => leAt p 0 1 == 1).map fun p => treeIndex (leAt p 2 8))
  let d1 : Die := [4, 3, 2, 1].foldl (fun d l => (rs l).foldl (Die.resolveReseal e home m) d) d
  (blocks.filter fun x => !(rs 1).any fun p => treeIndex (leAt p 2 8) == x).foldl (Die.resolveWrites e home m) d1

/-! ## Adoption (R153) -/

/-- The mirrored blocks installed: levels 4 and 5 on the die, and level-2 blocks as dirty blocks of the cache. -/
def Die.installMirror (d : Die) (m : MirrorArea) : Die :=
  let lv2 := (m.blocks.map Prod.fst).filter fun k => treeLevel k == 2
  let d1 : Die := m.blocks.foldl (fun d t => { d with mlf := { d.mlf with tree := tput d.mlf.tree t.1 t.2 } }) d
  { d1 with mlf := { d1.mlf with dirty := d1.mlf.dirty ++ lv2, cached := d1.mlf.cached ++ lv2 } }

/-- Level-2 blocks above the 8,192 that may be dirty are written back, the least recently used first (R149). -/
def Die.trimDirty (e : Env) (d : Die) : Die :=
  (d.mlf.dirty.take (d.mlf.dirty.length - 8192)).foldl (fun d k => d.writeBack e (treeHome k) (treeIndex k) false) d

/-- A die mirrors nothing while `f` runs: the slice that it takes or gives has no mirror of its own then. -/
def Die.unmirrored (d : Die) (f : Die → Die) : Die :=
  (f (d.set .MLF_STATUS_MIRROR_OK 0)).set .MLF_STATUS_MIRROR_OK (d.get .MLF_STATUS_MIRROR_OK)

/-- Positions that have lost their die when position `f` is declared failed, with the dies that serve them from then on:
`f`, then a position that `f` had adopted. The mirror holder takes a slice where it serves no adopted one yet, else the next
die that does not, since a die never serves more than one adopted slice (R324, R328, log 42, 107). -/
def Die.newServers (d : Die) (f : Nat) : List (Nat × Nat) :=
  let others := (List.range d.size).filter fun p => p != f && d.serverOf p != p
  let lost := f :: others.filter fun p => d.serverOf p == f
  let gone := f :: d.ens.declared ++ others
  let taken := (others.filter fun p => d.serverOf p != f).map d.serverOf
  lost.foldl (fun acc p => acc ++ [(p, freeServer d.size gone (taken ++ acc.map fun x => x.2) p)]) []

/-- This die takes the slice of position `f`: from the frozen mirror, or, with no mirror of it, freshly formatted (R330,
R378). Blocks below level 4, slots and handles are read from the host copy when they are first needed. One adopted slice is all a die
serves (R324, log 42). STATE passes through ADOPTING within this one command (log 183, 108). -/
def Die.adoptSlice (e : Env) (d : Die) (f : Nat) : Die :=
  if f == d.pos || d.has .MLF_STATUS_ADOPTED || d.key.esk.isNone then d
  else
    let mine := (f + 1) % d.size == d.pos
    let m := if mine then d.mlf.mirror else .empty
    let d1 := ((d.set .MLF_STATUS_ADOPTED 1).set .MLF_STATUS_ADOPTED_POS f).setRegion 257 1 (d.sliceWindow f) |>.committed 257
    let d2 := { d1 with mlf := { d1.mlf with adopted := m, mirror := if mine then .empty else d1.mlf.mirror,
                                             mirrorToo := if mine then .empty else d1.mlf.mirrorToo, foreign := d1.mlf.foreign ++ [(f, true)] } }
    let d3 : Die :=
      if m.nonce = 0 then d2.formatSlice f
      else d2.unmirrored fun d => (((d.installMirror m).trimDirty e).resolvePendings e f m).trimDirty e
    ((d3.mirrorSlice f).event .MLF_EVENT_ADOPTED).reportOf e 0x0303

/-- Position `f` has failed: this die adopts the slice that falls to it, if one does (log 108). -/
def Die.adopt (e : Env) (d : Die) (f : Nat) : Die :=
  (d.newServers f).foldl (fun d x => if x.2 == d.pos then d.adoptSlice e x.1 else d) d

/-! ## The two sides of a handback (R329) -/

/-- Re-seals of a slice are finished: the children that are left, then the blocks, lower levels first. -/
def Die.finishReseals (e : Env) (home : Nat) (d : Die) : Die :=
  let one (d : Die) (r : Reseal) : Die :=
    let d1 : Die := r.left.foldl (fun d c =>
      match d.resealChild e home r.level (32 * r.index + c) (r.old.version c) with
      | (d1, some f) => d1.storeFault e 0 home f
      | (d1, none) => d1) d
    let r1 := { r with left := [] }
    { d1 with mlf := { d1.mlf with reseals := updateWhere (fun x => x == r) (fun _ => r1) d1.mlf.reseals } }.endReseal e r1
  [1, 2, 3, 4].foldl (fun d l => (d.mlf.reseals.filter fun r => r.home == home && r.level == l).foldl one d) d

/-- Level-3 blocks of a slice that have not been needed yet are read. -/
def Die.fetchUpper (e : Env) (home : Nat) (d : Die) : Die :=
  (d.mlf.tree.filter fun t => treeHome t.1 == home && treeLevel t.1 == 4).foldl (fun d t =>
    (List.range 32).foldl (fun d c =>
      if t.2.version c = 0 then d
      else match d.fetch3 e home (32 * treeIndex t.1 + c) with
        | (d1, some f) => d1.storeFault e 0 home f
        | (d1, none) => d1) d) d

/-- Every dirty session and dirty level-2 block of an adopted slice goes to the host copy, and the writes of the slice that are under way
complete (log 111). -/
def Die.flushSlice (e : Env) (d : Die) (home : Nat) : Die :=
  let mine (w : SlotWrite) : Bool := w.home == home
  d.unmirrored fun d0 =>
    let d1 : Die := (d0.mlf.writes.filter fun w => mine w && w.stage == .mirroring).foldl (Die.issueWrite e) d0
    let d2 := d1.finishReseals e home
    let d3 : Die := (d2.mlf.writes.filter fun w => mine w && w.stage == .parked).foldl (Die.startWrite e) d2
    let late := d3.kft.sessions.filter fun s => s.home == home && (s.h != s.hostH || s.fails != s.hostFails)
    let d4 : Die := late.foldl (fun d s => d.writeSession e s 0) { d3 with mlf := { d3.mlf with writes := d3.mlf.writes.filter fun w => !mine w } }
    let d5 := { d4 with mlf := { d4.mlf with writes := d4.mlf.writes.filter fun w => !mine w, backs := d4.mlf.backs.filter fun b => b.home != home } }
    let d6 : Die := (d5.mlf.dirty.filter fun k => treeHome k == home).foldl (fun d k => d.writeBack e home (treeIndex k) false) d5
    (d6.fetchUpper e home).releaseWritten e

/-- The slice nonce and levels 3 to 5 as the server sends them: blocks as key and counters. -/
def Die.handbackBody (d : Die) (home : Nat) : Bytes :=
  let ks := d.mlf.tree.filter fun t => treeHome t.1 == home && decide (3 ≤ treeLevel t.1)
  leBytes 8 (d.sliceNonce home) ++ ks.flatMap fun t => leBytes 8 t.1 ++ t.2.counters

/-- The die holds nothing of a slice any more, and neither does its mirror holder. -/
def Die.dropSlice (d : Die) (home : Nat) : Die :=
  let gone := d.kft.sessions.filter fun s => s.home == home
  let d1 : Die := gone.foldl (fun d s => d.countOut s) { d with kft := { d.kft with sessions := d.kft.sessions.filter fun s => s.home != home } }
  let d2 := (d1.mirror 7 home 0 (leBytes 8 0)).clearTree home
  let d3 := { d2 with
    kft := { d2.kft with metas := d2.kft.metas.filter fun m => keyHome m.1 != home },
    key := { d2.key with objs := d2.key.objs.filter fun o => o.tenant / 256 != home },
    mlf := { d2.mlf with adopted := .empty } }
  (((d3.set .MLF_STATUS_ADOPTED 0).set .MLF_STATUS_ADOPTED_POS 0).setAt2 .MPU_RGN_ATTR_ENABLE 257 1 0).committed 257

/-- The returning die takes its slice, without the adjustments of R124: what its buckets and handle slots hold is read from the host copy
when it is first needed. Its tenants stand IDLE. -/
def Die.takeBack (d : Die) (body : Bytes) : Die :=
  let blocks := (List.range ((body.length - 8) / 44)).map fun k => (leAt body (8 + 44 * k) 8, countersAt body (16 + 44 * k))
  let d0 := d.clearTree d.pos
  let d1 : Die := blocks.foldl (fun d t => { d with mlf := { d.mlf with tree := tput d.mlf.tree t.1 t.2 } })
    { d0 with mlf := { d0.mlf with nonce := leAt body 0 8, foreign := d0.mlf.foreign ++ [(d.pos, false)] } }
  let d2 := (d1.set .MLF_STATUS_STATE 1).set .ENS_STATUS_STATE 2
  d2.startMirror

end Sys2Proof.Machine
end

