-- ==== Sys2Proof/Machine/Dealing.lean ====
section
/-! DEFINITION. Dealing shares of the domain root to every die and the commit that follows, entering a domain, and how a ceremony ends
(spec/08 R227, R248, R250; spec/01 R26; spec/12 R331). -/
namespace Sys2Proof.Machine

/-! ## The end of a ceremony -/

/-- A ceremony was performed: measured, shown and recorded (R26, R223) (log 124). -/
def Die.cerDone (e : Env) (d : Die) (c : Ceremony) : Die :=
  ((d.extendMeas 7 c.digest).event .KEY_EVENT_CEREMONY_DONE).report e { Report.of 0x0501 with arg := c.serial }

/-- What a ceremony changes, to every other die. -/
def Die.sendCer (d : Die) (b : Bytes) : Die := if d.size == 1 then d else d.sendRing .ceremony none b

/-! ## A domain (R331) -/

/-- DOMAIN_TAG of a root. -/
def domainTagOf (dr : Bytes) : Bytes := (hmac 2 dr (ascii "DOMAIN-ID")).take 16

/-- The die belongs to a domain, at a slot of it. -/
def Die.enterDomain (d : Die) (tag : Bytes) (slot epoch : Nat) : Die :=
  let d1 := { d with ens := { d.ens with domainTag := tag, slot, joinSerial := none } }
  ((((d1.set .ENS_DOMAIN_STATUS_ROOT 1).set .ENS_DOMAIN_STATUS_JOIN_OUT 0).set .ENS_DOMAIN_STATUS_MEMBER (8 * slot + d.pos)).set
    .ENS_DOMAIN_EPOCH_VALUE epoch).rematch

/-- What a committed root brings: the domain, where it is a new one, the keys that derive from it, on every die, and slices that have
waited for them. -/
def Die.rootInHand (d : Die) (dr : Bytes) (join : Option (Nat × Nat)) : Die :=
  let d1 := match join with
    | some (slot, epoch) =>
      (d.enterDomain (domainTagOf dr) slot epoch).sendCer ([7] ++ domainTagOf dr ++ leBytes 2 slot ++ leBytes 8 epoch)
    | none => d
  let d2 := ((d1.takeRoot dr).set .KEY_ROOT_STATUS_COMBINE_FAIL 0).sendEsk
  if d2.get .ENS_STATUS_STATE == 2 && d2.get .MLF_STATUS_STATE == 0 then d2.startSlices else d2

/-- SHARES_FOUND and COMBINE_FAIL of a combination that failed reach every die, whose keys stay (R18, R228). -/
def Die.sendFound (d : Die) : Die := if d.size == 1 then d else d.sendRing .esk none (leBytes 1 (d.get .KEY_ROOT_STATUS_SHARES_FOUND))

/-! ## Dealing (R248) -/

/-- The request of a dealing, or of an import by another die, completes, and the ceremony with it. -/
def Die.endDealing (e : Env) (d : Die) (x : Dealing) (rep : Reply) : Die :=
  let d0 := { d with key := { d.key with dealing := none } }
  let d1 := match x.cer, d0.key.ceremony with
    | true, some c => (if rep.status == Status.ok then d0.cerDone e c else d0).closeCeremony
    | _, _ => d0
  match d1.req? x.rid with
  | some r => if r.stage == Stage.running then d1.complete e r rep else d1
  | none => d1

/-- Once every die has written its share, the lead die commits the new generation everywhere (R248). -/
def Die.finishDealing (e : Env) (d : Die) : Die :=
  match d.key.dealing with
  | none => d
  | some x =>
    if !x.wait.isEmpty then d
    else if x.gen = 0 then d.endDealing e x x.rep
    else ((d.commitShare.sendCer ([2] ++ leBytes 4 x.gen)).rootInHand x.root x.join).endDealing e x x.rep

/-- Shares of a root dealt to every die, with coefficients from full-entropy draw `a`: this die writes its own, and the others are sent
theirs (R227). The commit protocol on the ring is the model's (DESIGN CHOICE, log 191). -/
def Die.dealShares (e : Env) (d : Die) (a : Nat) (x : Dealing) : Die :=
  let t := thresholdOf d.size
  let rnd := randomBytes a (32 * (t - 1))
  let coef (j i : Nat) : Nat := leAt rnd (32 * j + i) 1
  let sh (p : Nat) : Share :=
    { x := p + 1, threshold := t, gen := x.gen, check := shareCheck x.root, share := gfDeal x.root t (p + 1) coef }
  let d1 : Die := d.otherDies.foldl (fun d p => d.sendRing .share (some p) (sh p).bytes) d
  let d2 := (d1.putNext (sh d.pos)).setStage x.rid .running
  let d3 := if x.cer then d2.set .KEY_CEREMONY_STATUS_STATE 2 else d2
  { d3 with key := { d3.key with dealing := some { x with wait := d.otherDies } } }.finishDealing e

/-- A share that the lead die deals is written, and the die says so. -/
def Die.takeShare (d : Die) (b : Bytes) : Die :=
  (d.putNext (parseShare b)).sendRing .ceremony (some (d.get .ENS_STATUS_ACTING_LEAD)) [3, BitVec.ofNat 8 d.pos]

/-- A position has written its share. -/
def Die.shareWritten (e : Env) (d : Die) (pos : Nat) : Die :=
  match d.key.dealing with
  | none => d
  | some x => { d with key := { d.key with dealing := some { x with wait := x.wait.filter (· != pos) } } }.finishDealing e

/-- A die that is awaited is declared failed: a dealing goes on without it, and an import that it was to serve completes BUSY (log 191). -/
def Die.dealingLoses (e : Env) (d : Die) (pos : Nat) : Die :=
  match d.key.dealing with
  | none => d
  | some x =>
    if !x.wait.contains pos then d
    else if x.gen = 0 then d.endDealing e x (Reply.fail .busy 0)
    else d.shareWritten e pos

/-! ## Acting on another die (R248, R333; its messages: log 195) -/

/-- Asks the die at a position to act for the request of `x`, which waits for its answer. While another dealing waits, the request does,
and its command may come again. -/
def Die.askDie (d : Die) (x : Dealing) (pos : Nat) (b : Bytes) : Die :=
  if d.key.dealing.isSome then d
  else
    let d1 := (d.sendRing .ceremony (some pos) b).setStage x.rid .running
    let d2 := if x.cer then d1.set .KEY_CEREMONY_STATUS_STATE 2 else d1
    { d2 with key := { d2.key with dealing := some { x with gen := 0, wait := [pos] } } }

/-- What a die that was asked answers. -/
def Die.answerLead (d : Die) (st : Status) (reason : Nat) : Die :=
  d.sendRing .ceremony (some (d.get .ENS_STATUS_ACTING_LEAD))
    ([9, BitVec.ofNat 8 d.pos, BitVec.ofNat 8 st.code] ++ leBytes 2 reason)

/-- The status of a code (R15). -/
def statusOf (code : Nat) : Status :=
  ([.ok, .authFail, .replay, .noSession, .busy, .operandRange, .notInvertible, .invalidPoint, .aborted, .rngNotReady, .rngFault,
    .keyExhausted, .keyExpired, .policyDeny, .faultRetry, .quiesced, .storeIntegrity, .paramRejected, .badDescriptor, .accessFault,
    .tamperHalt, .untrustedOutput, .tableFull, .limitReached].find? fun s : Status => s.code == code).getD .busy

/-- The answer of a die that was asked: it ends the request. -/
def Die.dieAnswered (e : Env) (d : Die) (pos code reason : Nat) : Die :=
  match d.key.dealing with
  | none => d
  | some x =>
    if x.gen != 0 || !x.wait.contains pos then d
    else d.endDealing e x (if code = 0 then x.rep else Reply.fail (statusOf code) reason)

/-- The bytes of an object to install on the die that serves its tenant: tenant, handle, address of an extension, slot payload, and the
content of an extension. -/
def installBody (o : KeyObj) (addr : Nat) (content : Bytes) : Bytes :=
  [8] ++ leBytes 2 o.tenant ++ leBytes 2 o.handle ++ leBytes 8 addr ++ o.payload ++ content

/-- The serving die installs an object that the lead die sends, and answers when it has begun to write the slot. -/
def Die.installFar (e : Env) (d : Die) (b : Bytes) : Die :=
  let tenant := leAt b 0 2 % 2048
  let handle := leAt b 2 2
  let addr := leAt b 4 8
  let o := parseObj tenant handle (slice b 12 112)
  let m := b.drop 124
  match d.loadKey e tenant handle with
  | (d1, some f) => d1.answerLead f.status 0
  | (d1, none) =>
    let put (d : Die) (o : KeyObj) : Die := ((d.putObj o).writeHandle e tenant handle 0).answerLead .ok 0
    match d1.destCheck tenant handle with
    | some (st, x) => d1.answerLead st x
    | none =>
      if !isExtType o.type then put d1 o
      else if addr % 64 != 0 then d1.answerLead .badDescriptor 2
      else if !d1.dmaOk tenant addr m.length true || !d1.dmaOk tenant addr m.length false then
        ((d1.dmaFault e tenant addr m.length true).dmaFault e tenant addr m.length false).answerLead .accessFault 0
      else if d1.get .RNG_STATUS_STATE == 3 then d1.answerLead .rngFault 0
      else
        let n := { o with aflags := o.aflags % 8 + 8 + o.aflags / 16 * 16 }
        let x := sealExt n m addr d1.rng.draws
        put ((d1.draw 44).tenantWrite e tenant addr x.2) { n with material := x.1 }

end Sys2Proof.Machine
end

