-- ==== Sys2Proof/Machine/Handshake.lean ====
section
/-! DEFINITION. The handshake steps (R206 to R218). A step's command gives its work to the cores and the lanes, and runs to its end when it
is given again after that work (log 18, log 163). -/
namespace Sys2Proof.Machine

/-! ## HS_OPEN and HS_RESUME -/

/-- A step out of its order (R206). -/
def Die.outOfOrder (e : Env) (d : Die) (r : Req) : Die := d.fail e r .badDescriptor 9

/-- The hash of a context: that of a DTLS suite, or the IKEv2 PRF. -/
def HsCtx.hashAlg (c : HsCtx) : Nat := if c.protocol == 1 then suiteHash c.suite else c.prf

/-- Opens a context that `make` completes from the shared secret, with the share of a group as output (R208 to R210). Its entry is taken
before the work of the step. -/
def Die.openCtx (e : Env) (d : Die) (r : Req) (c0 : HsCtx) (group : Nat) (peer : Bytes) (make : HsCtx → Bytes → HsCtx) : Die :=
  let go (d : Die) (id : Nat) : Die := d.stepWork e r c0.hashAlg (fun _ => groupWork group) (groupDraw group) none fun d1 a =>
    match shareParts (groupParts group) peer a with
    | .error st => d1.fail e r st 0
    | .ok x => d1.stepOk e r (make (d1.takeUp { c0 with ctxId := id } r.rid) x.2) x.1 0
  if d.ntt.ctxKeyGen == 0 && d.get .RNG_STATUS_STATE == 3 then d.fail e r .rngFault 0
  else if d.ntt.ctxKeyGen == 0 then d.holdDraw r.rid (groupDraw group) false
  else match d.ntt.ctxs.find? fun c => c.busy == r.rid with
    | some c => go d c.ctxId
    | none => match d.freeCtx with
      | none => d.fail e r .limitReached 6
      | some id =>
        let d1 := d.putCtx (d.takeUp { c0 with ctxId := id } r.rid)
        go { d1 with ntt := { d1.ntt with nextCtx := (id + 1) % ctxEntries } } id

/-- A suite and group that DTLS accepts (R205, R210). -/
def dtlsCombination (suite group : Nat) : Bool := decide (0x11 ≤ suite ∧ suite ≤ 0x15) && [1, 2, 3, 0x11, 0x12, 0x13].contains group

/-- The fields of the D of an IKEv2 HS_OPEN (R217): SPIs, Ni, Nr and the KE data; none where a length does not fit. -/
def ikeOpenData (b : Bytes) : Option (Bytes × Bytes × Bytes × Bytes) :=
  let ni := leAt b 16 1
  let nr := leAt b (17 + ni) 1
  if b.length < 18 + ni + nr then none else some (b.take 16, slice b 17 ni, slice b (18 + ni) nr, b.drop (18 + ni + nr))

/-- HS_OPEN: a context, the server's share, and the shared secret (log 58). -/
def execHsOpen (rid : Nat) (s : State) : Out :=
  s.act fun e d => d.handle e rid 0x50 fun r => d.stepInput e r fun x =>
    let c0 := { HsCtx.fresh 0 r.tenant r.protocol r.suite r.prf x.t with peerAuth := r.wantPeerAuth }
    if r.protocol == 1 then
      if !dtlsCombination r.suite r.group then d.fail e r .paramRejected 0x13
      else if x.data.length != peerLen r.group then d.fail e r .badDescriptor 2
      else d.stepRoom e r (shareLen r.group) (d.openCtx e r c0 r.group x.data fun c z => { c with shared := z })
    else if r.protocol != 2 || !decide (1 ≤ r.suite ∧ r.suite ≤ 4) || !decide (1 ≤ r.group ∧ r.group ≤ 3) ||
        !decide (1 ≤ r.prf ∧ r.prf ≤ 3) then d.fail e r .paramRejected 0x13
    else match ikeOpenData x.data with
      | none => d.fail e r .badDescriptor 2
      | some (spis, ni, nr, peer) =>
        if peer.length != peerLen r.group then d.fail e r .badDescriptor 2
        else d.stepRoom e r (shareLen r.group) (d.openCtx e r { c0 with spis, nonceI := ni, nonceR := nr } r.group peer fun c z => c.ikeFirst z)

/-- HS_RESUME: ticket, binder, then a context whose secret is the PSK (R216) (log 59, 60). -/
def execHsResume (rid : Nat) (s : State) : Out :=
  s.act fun e d => d.handle e rid 0x58 fun r => d.stepInput e r fun x =>
    let alg := suiteHash r.suite
    let h := hashLen alg
    let peer := x.data.drop (112 + h)
    let group := if r.pskDhe then r.group else 0
    if r.protocol != 1 || !dtlsCombination r.suite (if r.pskDhe then r.group else 1) then d.fail e r .paramRejected 0x13
    else if x.data.length != 112 + h + peerLen group then d.fail e r .badDescriptor 2
    else if d.key.esk.isNone then d.fail e r .keyExpired 0
    else d.stepRoom e r (shareLen group)
      (match d.openTicket r.tenant (x.data.take 112) with
       | none => d.fail e r .noSession 5
       | some (suite, psk) =>
         if suiteHash suite != alg then d.fail e r .paramRejected 0x13
         else
           let key := expandLabel alg (deriveSecret alg (earlySecret alg psk) "res binder" []) "finished" [] h
           let binder := slice x.data 112 h
           if hmac alg key (hashBytes alg h x.t) != binder then d.fail e r .authFail 6
           else
             let hello := x.t ++ beBytes 2 (h + 1) ++ leBytes 1 h ++ binder
             let c0 := { HsCtx.fresh 0 r.tenant 1 r.suite 0 hello with resumed := true, psk }
             d.openCtx e r c0 group peer fun c z => { c with shared := z })

/-! ## Steps on an open context -/

/-- HS_ADDKE: an ML-KEM encapsulation to the peer's key; the keys are recomputed for the next exchange, or on a retained context the
secret is kept for the next install (R217, R218). -/
def execHsAddke (rid : Nat) (s : State) : Out :=
  s.act fun e d => d.handle e rid 0x51 fun r => d.stepInput e r fun x => d.withCtx e r false fun d c =>
    if c.protocol != 2 || decide (2 ≤ c.addke) then d.outOfOrder e r
    else if r.group != 0x20 && r.group != 0x21 then d.fail e r .paramRejected 0x13
    else if !x.t.isEmpty || x.data.length != peerLen r.group then d.fail e r .badDescriptor 2
    else d.stepRoom e r (shareLen r.group)
      (d.stepWork e r c.hashAlg (fun _ => groupWork r.group) (groupDraw r.group) none fun d1 a =>
        match shareParts (groupParts r.group) x.data a with
        | .error st => d1.fail e r st 0
        | .ok y =>
          let c1 := if c.retained then { c with secrets := c.secrets ++ [y.2] } else { c with nextKe := c.nextKe ++ [y.2] }
          d1.stepOk e r { c1 with addke := c.addke + 1 } y.1 0)

/-- Handshake keys exist. -/
def HsCtx.keyed (c : HsCtx) : Bool := c.protocol == 2 || c.helloDone

/-- The AAD and what follows it, of an IKEv2 protection step (R217). -/
def ikeParts (b : Bytes) : Option (Bytes × Bytes) :=
  let n := leAt b 0 2
  if b.length < 2 + n ∨ n < 32 then none else some (slice b 2 n, b.drop (2 + n))

/-- HS_PROTECT: an epoch-2 record, or an SK payload (R211, R217). -/
def execHsProtect (rid : Nat) (s : State) : Out :=
  s.act fun e d => d.handle e rid 0x52 fun r => d.stepInput e r fun x => d.withCtx e r false fun d c =>
    if !c.keyed then d.outOfOrder e r
    else if !x.t.isEmpty || x.data.isEmpty then d.fail e r .badDescriptor 2
    else if c.protocol == 1 then
      let out := c.protectDtls (d.recCfg r) x.data
      d.stepRoom e r out.length (d.stepWork e r c.hashAlg (fun _ => []) 0 none fun d1 _ =>
        d1.stepOk e r { c with prSeq := c.prSeq + 1 } out 0)
    else match ikeParts x.data with
      | none => d.fail e r .badDescriptor 2
      | some (aad, plain) => d.stepRoom e r (plain.length + 25) (d.stepWork e r c.hashAlg (fun _ => []) 8 none fun d1 a =>
          d1.stepOk e r (c.chain false aad plain).endExchange (c.protectIke aad plain (randomBytes a 8)) 0)

/-- HS_UNPROTECT: opens the same. -/
def execHsUnprotect (rid : Nat) (s : State) : Out :=
  s.act fun e d => d.handle e rid 0x53 fun r => d.stepInput e r fun x => d.withCtx e r false fun d c =>
    if !c.keyed then d.outOfOrder e r
    else if !x.t.isEmpty || x.data.isEmpty then d.fail e r .badDescriptor 2
    else if c.protocol == 1 then
      match parseDtls x.data (d.recCfg r).cidLen with
      | none => d.fail e r .badDescriptor 3
      | some h => d.stepRoom e r (x.data.length - h.len - suiteTag c.suite - 1)
        (d.stepWork e r c.hashAlg (fun _ => []) 0 none fun d1 _ =>
          match c.openDtls (d.recCfg r).cidLen x.data with
          | .error f => d1.fail e r f.1 f.2
          | .ok y => d1.stepOk e r y.1 y.2.dropLast 0)
    else match ikeParts x.data with
      | none => d.fail e r .badDescriptor 2
      | some (aad, body) => d.stepRoom e r (body.length - 25)
        (d.stepWork e r c.hashAlg (fun _ => []) 0 none fun d1 _ =>
          match c.openIke aad body with
          | .error f => d1.fail e r f.1 f.2
          | .ok plain => d1.stepOk e r (c.chain true aad plain) plain 0)

/-- HS_SIGN where its order allows it (R206): in DTLS after the ServerHello and before HS_FINISHED, and not on a resumption; in IKEv2
after HS_VERIFY_PEER. -/
def HsCtx.maySign (c : HsCtx) : Bool := if c.protocol == 1 then !(c.finished || c.retained || c.resumed) else c.verified

/-- HS_SIGN: CertificateVerify or AUTH under the tenant's key (R206, R207, R217). -/
def execHsSign (rid : Nat) (s : State) : Out :=
  s.act fun e d => d.handle e rid 0x54 fun r => d.stepInput e r fun x => d.withCtx e r false fun d c =>
    let alg := r.sigalg
    let dtls := c.protocol == 1
    if !c.maySign then d.outOfOrder e r
    else if !decide (1 ≤ alg ∧ alg ≤ 8) then d.fail e r .paramRejected 0x13
    else if if dtls then !x.data.isEmpty else !x.t.isEmpty || decide (x.data.length < 4) || decide (260 < x.data.length) then
      d.fail e r .badDescriptor 2
    else match if dtls then c.append x.t else some c with
      | none => d.outOfOrder e r
      | some c1 =>
        let msg := if dtls then certVerifyContent "server" (suiteHash c.suite) c1.transcript else c.ownOctets x.data
        d.withKey e r r.stepKey (fun d => d.workKey r fun d => d.checkKey r.tenant r.stepKey (signFits alg) useSign) fun d o =>
          d.stepRoom e r (sigRoom alg (ceilDiv o.len 8))
            (d.stepWork e r c.hashAlg (fun a => signWork alg o.len msg.length (signTries alg o msg a)) (sigDraw alg) (some (r.stepKey, useSign))
              fun d1 a =>
                match signWith alg o (d1.readExt e o) msg a with
                | none => d1.fail e r .paramRejected 0x10
                | some y => d1.stepOk e r { c1 with signed := true } y.1 y.2)

/-- The header of the D of HS_VERIFY_PEER and the lengths it states (R207). -/
def verifyLengthsOk (alg : Nat) (dtls : Bool) (x : StepIn) : Bool :=
  let b := x.data
  let tbs := leAt b 0 4
  let n := leAt b 4 4
  decide (20 ≤ b.length) && b.length == 20 + leAt b 12 2 + leAt b 14 2 + leAt b 18 2 && decide (tbs + n ≤ x.t.length) &&
    decide (leAt b 8 4 < x.t.length) && sigLenOk (leAt b 16 1) (leAt b 12 2) none && sigLenOk alg (leAt b 14 2) none &&
    (!dtls || leAt b 18 2 == 0)

/-- A CertificateVerify message as RFC 8446 lays it out. -/
def certVerifyMsg (alg : Nat) (sig : Bytes) : Bytes :=
  let scheme := [0, 0x0403, 0x0503, 0x0807, 0x0804, 0x0805, 0x0904, 0x0905, 0x0906].getD alg 0
  leBytes 1 15 ++ beBytes 3 (4 + sig.length) ++ beBytes 2 scheme ++ beBytes 2 sig.length ++ sig

/-- The public key of the leaf lies in the TBSCertificate (R213). -/
def spkiInside (b : Bytes) : Bool := decide (leAt b 0 4 ≤ leAt b 8 4 ∧ leAt b 8 4 < leAt b 0 4 + leAt b 4 4)

/-- The leaf, its place and the proof, once the work is done (R213, R217). An extension that fails its tag is a bad key (R236). -/
def Die.verifyPeer (e : Env) (d : Die) (r : Req) (c : HsCtx) (x : StepIn) (o : KeyObj) : Die :=
  let b := x.data
  let dtls := c.protocol == 1
  let tbs := slice x.t (leAt b 0 4) (leAt b 4 4)
  let leaf := slice b 20 (leAt b 12 2)
  let proof := slice b (20 + leAt b 12 2) (leAt b 14 2)
  let tr := c.transcript ++ (if dtls then x.t else [])
  let msg := if dtls then certVerifyContent "client" (suiteHash c.suite) tr else c.peerOctets (b.drop (20 + leAt b 12 2 + leAt b 14 2))
  if o.extended && (d.readExt e o).isNone then d.fail e r .paramRejected 0x10
  else if verifyWith (leAt b 16 1) o (d.readExt e o) tbs leaf && spkiInside b &&
      Config.spkiVerifies r.sigalg (tbs.drop (leAt b 8 4 - leAt b 0 4)) msg proof then
    d.stepOk e r { c with verified := true, transcript := tr ++ (if dtls then certVerifyMsg r.sigalg proof else []) } [] 0
  else d.fail e r .authFail 4

/-- HS_VERIFY_PEER: the leaf under the issuing CA key, the place of its public key, and the peer's proof (R213, R217). An RSA-PSS
signature over the leaf has the modulus length of the CA key; that of the proof shows the modulus length of the peer's (R207, log 174). -/
def execHsVerifyPeer (rid : Nat) (s : State) : Out :=
  s.act fun e d => d.handle e rid 0x55 fun r => d.stepInput e r fun x => d.withCtx e r false fun d c =>
    let dtls := c.protocol == 1
    let b := x.data
    let leafAlg := leAt b 16 1
    if dtls && (!c.finished || c.retained) then d.outOfOrder e r
    else if !decide (1 ≤ r.sigalg ∧ r.sigalg ≤ 8) || (decide (20 ≤ b.length) && !decide (1 ≤ leafAlg ∧ leafAlg ≤ 8)) then
      d.fail e r .paramRejected 0x13
    else if !verifyLengthsOk r.sigalg dtls x then d.fail e r .badDescriptor 2
    else if leAt b 17 1 != 0 then d.fail e r .badDescriptor 1
    else d.withKey e r r.stepKey (fun d => d.workKey r fun d => d.checkKey r.tenant r.stepKey (verifyFits leafAlg) useVerify) fun d o =>
      if !sigLenOk leafAlg (leAt b 12 2) (some (ceilDiv o.len 8)) then d.fail e r .badDescriptor 2
      else d.stepWork e r c.hashAlg
        (fun _ => verifyWork leafAlg (ceilDiv o.len 8) (leAt b 4 4) ++ verifyWork r.sigalg (leAt b 14 2) (x.t.length + leAt b 18 2)) 0
        (some (r.stepKey, useVerify)) fun d1 _ => d1.verifyPeer e r c x o

/-- HS_FINISHED: verify_data, the server Finished appended, and the application secrets (R207, R211). -/
def execHsFinished (rid : Nat) (s : State) : Out :=
  s.act fun e d => d.handle e rid 0x56 fun r => d.stepInput e r fun x => d.withCtx e r false fun d c =>
    let alg := suiteHash c.suite
    if c.protocol != 1 || c.finished || !(c.signed || c.resumed) then d.outOfOrder e r
    else if !x.data.isEmpty then d.fail e r .badDescriptor 2
    else match c.append x.t with
      | none => d.outOfOrder e r
      | some c1 =>
        let vd := c1.verifyData c1.hsServer
        let tr := c1.transcript ++ finishedMsg vd
        let c2 := { c1 with transcript := tr, finished := true, appClient := deriveSecret alg c1.master "c ap traffic" tr,
                            appServer := deriveSecret alg c1.master "s ap traffic" tr }
        d.stepRoom e r vd.length (d.stepWork e r c.hashAlg (fun _ => []) 0 none fun d1 _ => d1.stepOk e r c2 vd 0)

/-! ## HS_INSTALL (R211, R212, R218) -/

/-- A session that an install has learned: what its LEARNED notification and the output name. -/
structure Learned where
  handle : Nat
  proto : Nat
  suite : Nat
  slots : Nat
  crumb : Bool
  origin : Nat
  deriving DecidableEq, Repr

def Session.learned (s : Session) (origin : Nat) : Learned :=
  { handle := s.handle, proto := s.proto, suite := s.suite, slots := s.slots.length, crumb := s.crumb, origin }

/-- The sessions are learned: LEARNED for each, the output, the context freed or retained. `ls` names first the session that the
reply and the output name first (log 34). -/
def Die.installed (e : Env) (d : Die) (r : Req) (c : HsCtx) (ls : List Learned) (ticket : Bytes) : Die :=
  let d1 : Die := ls.reverse.foldl (fun d l => d.notifyLearned e r l.origin l.handle l.proto l.suite l.slots l.crumb) d
  let c1 := { c with step := c.step + 1, half := 0, retained := true, addke := 0, secrets := [], handle := (ls.head?.map Learned.handle).getD 0 }
  let d2 := (if r.wantRetain then d1.putCtx c1 else d1.dropCtx c.ctxId).wrap .NTT_HS_DONE_COUNT 1
  let out := (ls.flatMap fun l => leBytes 8 l.handle) ++ ticket
  ((d2.output e r r.ctxAddr (d2.blobBytes c1)).output e r r.outAddr out).completeWritten e r
    { Reply.done out.length with detail := stepDetail c.ctxId 0, flags := flagLearned, session := c1.handle }

/-- Sends a step's work on a session to the die that serves its slice; the step goes on at the completion. While that
position has no serving die the step stays as it is. -/
def Die.sendStep (d : Die) (r : Req) (c : HsCtx) (home : Nat) (body : Bytes) : Die :=
  let dest := d.serverOf home
  if d.unserved home then d
  else
    let d1 := (d.setStage r.rid .forwarded).putCtx c
    let d2 := { d1 with ens := { d1.ens with awaiting := d1.ens.awaiting ++ [(d1.ens.nextMsg, r.rid, dest)] } }
    d2.sendRing .fwdReq (some dest) (leBytes 1 d2.pos ++ leBytes 2 d2.ens.nextMsg ++ leBytes 1 1 ++ leBytes 2 r.tenant ++ r.desc ++
      zeros 8 ++ leBytes 1 home ++ body)

/-- The window of an install: a W_CODE above 15 names none, and the tenant's default is taken (R89, R118; DESIGN CHOICE, log 175). -/
def Die.windowCode (d : Die) (r : Req) (w : Nat) : Nat :=
  if w ≤ 15 then w else (r.fn?.map fun fn => d.getAt .REC_TEN_CFG0_REPLAY_WIN fn).getD 0

/-- A DTLS session of an install (R212). -/
def HsCtx.dtlsSession (c : HsCtx) (b : Bytes) (wCode : Nat) : Session :=
  let rd := trafficKeys c.suite c.appClient
  let wr := trafficKeys c.suite c.appServer
  { Session.parse c.tenant [] with
      proto := 3, suite := c.suite, sflags := if leAt b 0 1 = 0 then 0 else 8, idLen := leAt b 0 1,
      wCode := wCode, ident := slice (b.take (1 + leAt b 0 1)) 1 20, peerCid := slice b 22 (leAt b 21 1), rdEpoch := 3, wrEpoch := 3,
      rdKey := rd.1, rdIv := rd.2.1, rdSn := rd.2.2, wrKey := wr.1, wrIv := wr.2.1, wrSn := wr.2.2 }

/-- The home position of a session that this die learns (R115). -/
def Die.learnHome (d : Die) (s : Session) : Nat := if s.searchable then d.steer (s.ident.take s.idLen) else d.pos

/-- Learns the last session of an install here, or sends it to the die that serves its home; `before` is what was learned
first, from `d0`. That one is out of every lookup until the other is learned too: a step that ends before leaves it to
TBL_DELETE_COMPLETE, as R138 removes a session (R209, R218). -/
def Die.learnLast (e : Env) (d d0 : Die) (r : Req) (c : HsCtx) (s : Session) (before : Option Session) (ticket : Bytes) : Die :=
  let home := d.learnHome s
  if d.unserved home then d0
  else if d.serverOf home != d.pos then
    let d1 := match before with | some y => d.updSession y.uid fun x => { x with deleting := some r.rid } | none => d
    d1.sendStep r { c with half := (before.map Session.uid).getD 0 } home s.content
  else match d.learn e s home r.rid with
    | .waits k => d0.waitInterlock k r.rid
    | .locked m => d0.waitLock r m
    | .learned d1 s1 => d1.installed e r c (s1.learned d.pos :: (before.map fun x => x.learned d.pos).toList) ticket
    | .refused d1 st x => (match before with | some y => d1.removeSession e y r.rid | none => d1).fail e r st x

/-- The D of a DTLS install is in range. -/
def dtlsInstallOk (b : Bytes) (ticket : Bool) : Bool :=
  b.length == 45 && decide (leAt b 0 1 ≤ 20) && decide (leAt b 21 1 ≤ 20) &&
    (!ticket || decide (1 ≤ leAt b 43 2 ∧ leAt b 43 2 ≤ 10080))

/-- The ticket and ticket_age_add of an install (R212, R215), from the 16 random bytes of draw `a`. -/
def Die.installTicket (d : Die) (r : Req) (c : HsCtx) (t b : Bytes) (a : Nat) : Bytes :=
  if !r.wantTicket then []
  else
    let alg := suiteHash c.suite
    let res := deriveSecret alg c.master "res master" (c.transcript ++ t)
    let psk := expandLabel alg res "resumption" Config.ticketNonce (hashLen alg)
    d.ticketBytes r.tenant c.suite (leAt b 43 2) psk (randomBytes a 12) (randomBytes (a + 12) 4) ++ randomBytes (a + 12) 4

def Die.installDtls (e : Env) (d : Die) (r : Req) (c : HsCtx) (x : StepIn) : Die :=
  if !c.finished || c.retained || (c.peerAuth && !c.verified) then d.outOfOrder e r
  else if !dtlsInstallOk x.data r.wantTicket then d.fail e r .badDescriptor 2
  else d.stepRoom e r (if r.wantTicket then 124 else 8)
    (d.stepWork e r c.hashAlg (fun _ => []) (if r.wantTicket then 16 else 0) none fun d1 a =>
      if x.t.drop (x.t.length - hashLen (suiteHash c.suite)) != c.verifyData c.hsClient then d1.fail e r .authFail 6
      else d1.learnLast e d1 r c (c.dtlsSession x.data (d1.windowCode r (leAt x.data 42 1))) none (d1.installTicket r c x.t x.data a))

/-- The nonces that end the D of an IKEv2 install: the context's own, or those of a CREATE_CHILD_SA exchange (R218). -/
def HsCtx.childNonces (c : HsCtx) (b : Bytes) : Option Bytes :=
  let rest := b.drop 11
  let n := leAt rest 0 1
  let m := leAt rest (1 + n) 1
  if rest.isEmpty then some (c.nonceI ++ c.nonceR)
  else if rest.length != 2 + n + m then none
  else some (slice rest 1 n ++ slice rest (2 + n) m)

/-- A Child SA session (R218). The numbers of an outbound one count from 1 (R83). -/
def childSession (tenant proto suite sflags wCode : Nat) (spi keys : Bytes) : Session :=
  let k := suiteKeyLen suite
  { Session.parse tenant [] with
    proto, suite, sflags, idLen := 4, wCode, ident := spi ++ zeros 16, key := keys.take k, salt := keys.drop k,
    seq := if proto = 2 then 1 else 0 }

/-- KEYMAT of a Child SA (R218). -/
def HsCtx.keymat (c : HsCtx) (nonces : Bytes) (n : Nat) : Bytes :=
  prfPlus c.prf c.skD (c.secrets.headD [] ++ nonces ++ (c.secrets.drop 1).flatMap fun z => z) n

/-- The two sessions of an IKEv2 install: outbound, then inbound. -/
def HsCtx.childPair (c : HsCtx) (b nonces : Bytes) (wCode : Nat) : Session × Session :=
  let suite := leAt b 8 1
  let k := suiteKeyLen suite + 4
  let mat := c.keymat nonces (2 * k)
  let flags := bits (leAt b 10 1) 1 0 + bits (leAt b 10 1) 3 2 * 16
  (childSession c.tenant 2 suite flags 0 (slice b 4 4) (mat.drop k), childSession c.tenant 1 suite (flags + 8) wCode (slice b 0 4) (mat.take k))

/-- An IKEv2 install comes after both AUTH signatures: the peer's verified and the responder's made (R205, R206; DEDUCED, log 176). -/
def Die.installIke (e : Env) (d : Die) (r : Req) (c : HsCtx) (x : StepIn) : Die :=
  let b := x.data
  let suite := leAt b 8 1
  let icv := bits (leAt b 10 1) 3 2
  if !c.verified || !c.signed then d.outOfOrder e r
  else if !x.t.isEmpty || decide (b.length < 11) then d.fail e r .badDescriptor 2
  else if bits (leAt b 10 1) 7 4 != 0 then d.fail e r .badDescriptor 1
  else match c.childNonces b with
    | none => d.fail e r .badDescriptor 2
    | some nonces =>
      if !decide (1 ≤ suite ∧ suite ≤ 4) || icv == 3 || (suite == 4 && icv != 0) then d.fail e r .paramRejected 0x13
      else d.stepRoom e r 16 (d.stepWork e r c.hashAlg (fun _ => []) 0 none fun d _ =>
        let ss := c.childPair b nonces (d.windowCode r (leAt b 9 1))
        match d.learn e ss.1 d.pos r.rid with
        | .waits k => d.waitInterlock k r.rid
        | .locked m => d.waitLock r m
        | .refused d1 st y => d1.fail e r st y
        | .learned d1 s1 => d1.learnLast e d r c ss.2 (some s1) [])

/-! ## A key update in a session, forwarded steps, HS_INSTALL, HS_KEYUPDATE and HS_FREE (R214, R207) -/

/-- The next traffic secret of a direction. -/
def HsCtx.nextSecret (c : HsCtx) (write : Bool) : HsCtx :=
  let alg := suiteHash c.suite
  let f (x : Bytes) : Bytes := expandLabel alg x "traffic upd" [] (hashLen alg)
  if write then { c with appServer := f c.appServer } else { c with appClient := f c.appClient }

/-- Puts new keys of a direction in force in a session, with the next epoch and cleared counts. -/
def Session.rekey (s : Session) (write : Bool) (keys : Bytes) : Session :=
  let k := suiteKeyLen s.suite
  if write then
    { s with wrKey := keys.take k, wrIv := slice keys k 12, wrSn := slice keys (k + 12) k, wrEpoch := (s.wrEpoch + 1) % 65536, seq := 0, hostSeq := 0 }
  else
    { s with rdKey := keys.take k, rdIv := slice keys k 12, rdSn := slice keys (k + 12) k, rdEpoch := (s.rdEpoch + 1) % 65536,
             h := 0, bitmap := 0, fails := 0 }

/-- How a key update ends on the die that serves the session: done, waiting, or refused. -/
inductive RekeyResult where
  | done (d : Die)
  | waits (d : Die)
  | refused (st : Status) (detail : Nat)

/-- A key update on the die that serves the session: it waits while records of it are in flight or its bucket's interlock is held. Keys
that stand there already, from a step whose completion was lost, stay (log 57). -/
def Die.rekeyHere (e : Env) (d : Die) (tenant handle rid : Nat) (write : Bool) (keys : Bytes) : RekeyResult :=
  match d.kft.sessions.find? fun s => s.matches tenant (.handle handle) && s.deleting.isNone with
  | none => .refused .noSession 1
  | some s =>
    let b := d.bucketOf s
    let new := s.rekey write keys
    if d.bucketPoisoned b then .refused .storeIntegrity 0
    else if s.inFlight != 0 then .waits d
    else if d.heldFor b rid then .waits (d.waitInterlock b rid)
    else
      let d0 := d.passInterlock b rid
      if if write then new.wrKey == s.wrKey && new.wrIv == s.wrIv else new.rdKey == s.rdKey && new.rdIv == s.rdIv then .done d0
      else
        let d1 := d0.updSession s.uid fun x => x.rekey write keys
        .done (match d1.session? s.uid with | some x => d1.writeSession e x rid | none => d1)

/-- Bit 9 of the DETAIL of a forwarded learning's completion. -/
def stepLearned : Nat := 512

/-- A forwarded step on the die that serves the session's slice (R23, R125): learns, or rekeys; while it waits the command of its
opcode may come again here. The reply of a learning carries in DETAIL the slots taken and whether they lie in the Crumb bucket. -/
def Die.stepHere (e : Env) (d : Die) (r : Req) : Die :=
  let home := leAt r.input 8 1
  let body := r.input.drop 9
  if r.opcode == 0x57 then
    match d.learn e (Session.parse r.tenant body) home r.rid with
    | .waits k => d.waitInterlock k r.rid
    | .locked m => d.waitLock r m
    | .refused d1 st x => d1.fail e r st x
    | .learned d1 s => d1.completeWritten e r
        { Reply.done 0 with flags := flagLearned, session := s.handle, detail := s.slots.length + 256 * ofBool s.crumb + stepLearned }
  else match d.rekeyHere e r.tenant (leAt body 0 8) r.rid (leAt body 8 1 == 1) (body.drop 9) with
    | .waits d1 => d1
    | .refused st x => d.fail e r st x
    | .done d1 => d1.completeWritten e r (Reply.done 0)

/-- HS_INSTALL: the client Finished, the traffic keys, and the session or sessions. -/
def execHsInstall (rid : Nat) (s : State) : Out :=
  s.act fun e d => d.handle e rid 0x57 fun r => if r.fn?.isNone then d.stepHere e r else d.stepInput e r fun x => d.withCtx e r false fun d c =>
    if c.protocol == 1 then d.installDtls e r c x
    else if r.wantTicket then d.fail e r .badDescriptor 2 else d.installIke e r c x

/-- HS_KEYUPDATE: the next secret of one direction, once records in flight are over (log 57). -/
def execHsKeyupdate (rid : Nat) (s : State) : Out :=
  s.act fun e d => d.handle e rid 0x59 fun r => if r.fn?.isNone then d.stepHere e r else d.stepInput e r fun x => d.withCtx e r false fun d c =>
    let h := leAt x.data 0 8
    let write := leAt x.data 8 1 == 1
    if c.protocol != 1 || !c.retained then d.outOfOrder e r
    else if !x.t.isEmpty || x.data.length != 9 || decide (1 < leAt x.data 8 1) then d.fail e r .badDescriptor 2
    else if h != c.handle then d.fail e r .noSession 1
    else d.stepWork e r c.hashAlg (fun _ => []) 0 none fun d _ =>
      let c1 := c.nextSecret write
      let ks := trafficKeys c.suite (if write then c1.appServer else c1.appClient)
      let keys := ks.1 ++ ks.2.1 ++ ks.2.2
      let home := handleHome h
      if d.unserved home || d.serverOf home != d.pos then d.sendStep r c home (leBytes 8 h ++ leBytes 1 (ofBool write) ++ keys)
      else match d.rekeyHere e r.tenant h rid write keys with
        | .waits d1 => d1
        | .refused st y => d.fail e r st y
        | .done d1 => d1.stepOk e r c1 [] 0

/-- HS_FREE: the context of a valid blob, whatever its STEP. -/
def execHsFree (rid : Nat) (s : State) : Out :=
  s.act fun e d => d.handle e rid 0x5F fun r => d.stepInput e r fun x => d.withCtx e r true fun d c =>
    if !x.t.isEmpty || !x.data.isEmpty then d.fail e r .badDescriptor 2
    else (d.dropCtx c.ctxId).complete e r { Reply.done 0 with detail := stepDetail c.ctxId 0 }

/-- The time that a context may see no step for, in ms (R209, R219). -/
def Die.ctxTime (d : Die) (retained : Bool) : Nat :=
  if retained then clamp 1 168 (d.get .NTT_HS_CTL_RETAIN_H) * 3600000 else max 1 (d.get .NTT_HS_CTL_IDLE_S) * 1000

/-- A context's timeout (R209): it has seen no step for its time, and none runs. -/
def Die.expireCtx (d : Die) (id : Nat) (retained : Bool) : Die :=
  match d.ctx? id with
  | some c =>
    if c.retained == retained && !d.ctxBusy c && decide (c.lastMs + d.ctxTime retained ≤ d.nowMs)
    then (d.dropCtx id).wrap .NTT_HS_EXPIRED_COUNT 1 else d
  | none => d

def execHsContextIdleTimeout (ctx : Nat) (s : State) : Out := s.act fun _ d => d.expireCtx ctx false
def execHsContextRetainTimeout (ctx : Nat) (s : State) : Out := s.act fun _ d => d.expireCtx ctx true

/-! ## The return of a forwarded step (R23) -/

/-- A forwarded learning was refused for want of room: it counts on the tenant's page (R125, R127). -/
def Die.countBack (d : Die) (r : Req) (rep : Reply) : Die :=
  if rep.status == .tableFull then d.countRefused r.tenant .KFT_TEN_FULL_TABLE_FULL
  else if rep.status == .limitReached && rep.detail == 4 then d.countRefused r.tenant .KFT_TEN_FULL_QUOTA_REFUSED else d

/-- A session that was learned at another die for a step that has ended meanwhile is deleted there (R209, R218; DESIGN CHOICE, log 177). -/
def Die.undoLearned (d : Die) (dest : Nat) (rep : Reply) : Die :=
  if rep.status != .ok || !bit rep.detail 9 then d
  else d.sendRing .fwdReq (some dest) (leBytes 1 d.pos ++ leBytes 2 d.ens.nextMsg ++ leBytes 1 1 ++ leBytes 2 (handleTenant rep.session) ++
    leBytes 1 0x85 ++ zeros 47 ++ leBytes 8 rep.session ++ zeros 8)

/-- A forwarded step's completion comes back to its context. -/
def Die.stepBack (e : Env) (d : Die) (r : Req) (rep : Reply) : Die :=
  match d.ntt.ctxs.find? fun c => c.busy == r.rid with
  | none => d.fail e r .noSession 6
  | some c0 =>
    let c := { c0 with half := 0 }
    let d1 := ((d.setStage r.rid .running).putCtx c).countBack r rep
    let half := d1.session? c0.half
    let tn := leNat (dmaRead e d r.inAddr 4)
    let x : StepIn := { t := dmaRead e d (r.inAddr + 8) tn, data := dmaRead e d (r.inAddr + 8 + tn) (r.inLen - 8 - tn) }
    if rep.status != .ok then
      (match half with | some y => d1.removeSession e y r.rid | none => d1).fail e r rep.status (rep.detail % stepLearned)
    else if r.opcode == 0x57 then
      let proto := if c.protocol == 1 then 3 else 1
      let l : Learned := { handle := rep.session, proto, suite := if c.protocol == 1 then c.suite else leAt x.data 8 1,
                           slots := rep.detail % 256, crumb := bit rep.detail 8, origin := rep.pos }
      let d2 := match half with | some y => d1.updSession y.uid fun z => { z with deleting := none } | none => d1
      d2.installed e r c (l :: (half.map fun y => y.learned d.pos).toList) (if c.protocol == 1 then d2.installTicket r c x.t x.data r.drawn else [])
    else d1.stepOk e r (c.nextSecret (leAt x.data 8 1 == 1)) [] 0

end Sys2Proof.Machine
end

