-- ==== Sys2Proof/Machine/Forward.lean ====
section
/-! DEFINITION. Requests forwarded over the ring: at the die that does the work, and the completion at the die that
received them (R23, R57, R81, R328). -/
namespace Sys2Proof.Machine

/-- The status of a code (R15). -/
def Status.ofCode (n : Nat) : Status :=
  ([.ok, .authFail, .replay, .noSession, .busy, .operandRange, .notInvertible, .invalidPoint, .aborted, .rngNotReady, .rngFault,
    .keyExhausted, .keyExpired, .policyDeny, .faultRetry, .quiesced, .storeIntegrity, .paramRejected, .badDescriptor, .accessFault,
    .tamperHalt, .untrustedOutput, .tableFull, .limitReached] : List Status).getD n .busy

/-- Goes on with a forwarded request that has arrived, by its opcode. A die in Halt answers TAMPER_HALT (R376), and one whose host link is
down BUSY (R70); the output is checked against the tenant's DMA rules as this die holds them (R23). -/
def Die.arrived (e : Env) (d : Die) (r : Req) : Die :=
  if !d.dispatches && d.get .PWR_STATUS_STATE ≤ 1 then d.fail e r .tamperHalt 0
  else if !d.has .HLK_STATUS_LINK_UP then d.fail e r .busy 0
  else if r.opcode / 16 != 5 && !d.dmaOk r.tenant r.outAddr r.outLen true then
    (d.dmaFault e r.tenant r.outAddr r.outLen true).fail e r .accessFault 0
  else if isRecordOp r.opcode then d.lookupRequest e r
  else if r.opcode / 16 == 8 then d.tableRequest e r fun k d => d.unlock e k
  else if r.opcode / 16 == 5 then d.stepHere e r
  else d.fail e r .badDescriptor 1

/-- RING_FWD_REQ: a forwarded request arrives. -/
def execRingFwdReq (src msg hops tenant : Nat) (desc input : Bytes) (s : State) : Out :=
  s.act fun e d =>
    let r : Req := { rid := d.que.nextRid, tenant, origin := .ring src msg hops, desc := slice desc 0 64, stage := .fetched, stop := none,
                     stopBy := 0, input, use := none, allowed := false, sess := 0, behind := [], stamp := none, spoiled := none, work := [],
                     worked := false, drawn := 0, relaned := false, orig := [], rest := [], fetchMs := d.nowMs }
    let d1 := { d with que := { d.que with reqs := d.que.reqs ++ [r], nextRid := d.que.nextRid + 1 } }
    (d1.ringIn src (desc.length + input.length)).arrived e r

/-- FLUSH_READ_DONE: the output writes of a forwarded request are in host memory; the completion goes to the die that
received it. -/
def execFlushReadDone (rid : Nat) (s : State) : Out :=
  s.act fun _ d =>
    match d.req? rid, d.ens.flushing.find? fun f => f.1 == rid with
    | some r, some f =>
      let d1 := { d.dropReq rid with ens := { d.ens with flushing := d.ens.flushing.filter fun x => x.1 != rid } }
      match r.origin with
      | .ring src msg _ => d1.sendRing .fwdCpl (some src) (leBytes 2 msg ++ f.2)
      | .pair .. => d1
    | _, _ => d

/-- The fields of a completion. -/
def cplReply (b : Bytes) : Reply :=
  { status := Status.ofCode (leAt b 0 1), flags := leAt b 1 1, pos := leAt b 2 1, length := leAt b 3 5, detail := leAt b 8 4,
    session := leAt b 12 8 }

/-- RING_FWD_CPL: the completion of a forwarded request reaches the die that holds it. What it learned for a step that has ended here
meanwhile is undone. -/
def execRingFwdCpl (src msg : Nat) (body : Bytes) (s : State) : Out :=
  s.act fun e d0 =>
    let d := d0.ringIn src body.length
    match d.ens.awaiting.find? fun a => a.1 == msg with
    | none => d
    | some a =>
      let d1 := { d with ens := { d.ens with awaiting := d.ens.awaiting.filter fun x => x.1 != msg } }
      let rep := cplReply body
      match (d1.req? a.2.1).filter fun r => !r.done with
      | none => d1.undoLearned a.2.2 rep
      | some r =>
        if r.opcode / 16 == 5 then d1.stepBack e r rep
        else (d1.markDirty e r.tenant r.outAddr rep.length).complete e r { rep with flags := rep.flags ||| flagForwarded }

end Sys2Proof.Machine
end

