-- ==== Sys2Proof/Machine/Ensemble.lean ====
section
/-! DEFINITION. Die failure, adoption, the serve map, handback and standby functions (spec/12 R322 to R330). -/
namespace Sys2Proof.Machine

/-! ## Heartbeats and reports (R327) -/

/-- HEARTBEAT_TIMER: a HEARTBEAT flit on each connected link. -/
def execHeartbeatTimer (s : State) : Out :=
  s.act fun _ d => if d.clk.booted then (d.sendLink false .heartbeat [BitVec.ofNat 8 d.pos]).sendLink true .heartbeat [BitVec.ofNat 8 d.pos] else d

/-- The neighbour on a ring link (R313). -/
def Die.neighbour (d : Die) (b : Bool) : Nat := d.peerPos b d.size

/-- The mirror holder of a position. -/
def Die.holderOf (d : Die) (f : Nat) : Nat := (f + 1) % d.size

/-- This die acts on reports about position `f`: the lead die, or the lead's mirror holder where the lead itself is meant (R322). -/
def Die.judges (d : Die) (f : Nat) : Bool :=
  d.isLead || (d.get .ENS_STATUS_ACTING_LEAD == f && d.holderOf f == d.pos)

/-- Lead duties pass to the mirror holder of a failed lead: an open ceremony closes, and a Tin operation that the lead had not committed
is abandoned (R322). -/
def Die.takeOver (d : Die) (f : Nat) : Die :=
  if d.get .ENS_STATUS_ACTING_LEAD != f then d
  else
    let d1 := (d.set .ENS_STATUS_ACTING_LEAD (d.holderOf f)).closeCeremony
    { d1 with key := { d1.key with dealing := none } }.set .TIN_STATUS_BUSY 0

/-- Position `f` is failed as this die sees it: what goes to the positions that it served is held, volatile objects of its tenants expire
(R237), nothing waits for it any more, and the slices that it served fall to other dies. -/
def Die.failed (e : Env) (d : Die) (f : Nat) : Die :=
  let lost := ((d.newServers f).map fun x => x.1).filter fun p => !d.ens.declared.contains p
  let d0 := if d.ens.declared.contains f then d
    else (d.raiseVgens f) |> fun x => { x with ens := { x.ens with declared := x.ens.declared ++ lost } }
  let d1 := { d0 with ens := { d0.ens with reports := d0.ens.reports.filter (fun r => r.1 != f), hostDown := d0.ens.hostDown.filter fun x => x.1 != f },
                      mlf := { d0.mlf with bumpWait := d0.mlf.bumpWait.filter (· != f) } }
  (((d1.takeOver f).dealingLoses e f).tinAnswered e f none).adopt e f

/-- The declaration (R327, R328). A 1-die ensemble declares nothing. -/
def Die.declare (e : Env) (d : Die) (f : Nat) : Die :=
  if d.size == 1 || f == d.pos || decide (d.size ≤ f) || d.ens.declared.contains f || d.get .ENS_STATUS_STATE != 2 then d
  else
    let d1 := ((d.takeOver f).raise21 .ENS_EVENT_DIE_FAILED).reportOf e 0x0801
    (d1.sendRing .declared none [BitVec.ofNat 8 f]).failed e f

/-- A report that position `f` misses its heartbeats: `b` the link of the reporter. Both links of `f` must be reported: by two
neighbours, or by the only neighbour of a 2-die ensemble on both links. -/
def Die.noteReport (e : Env) (d : Die) (src : Nat) (b : Bool) : Die :=
  let f := if b then (src + d.size - 1) % d.size else (src + 1) % d.size
  if !d.judges f then d
  else
    let rs := (d.ens.reports.filter fun r => r != (f, ofBool b)) ++ [(f, ofBool b)]
    let d1 := { d with ens := { d.ens with reports := rs } }
    if rs.contains (f, 0) && rs.contains (f, 1) then d1.declare e f else d1

/-- HEARTBEAT_MISS: the neighbour on a link has missed 4 heartbeats in a row. -/
def execHeartbeatMiss (b : Bool) (s : State) : Out :=
  s.act fun e d =>
    if d.size == 1 || d.get .ENS_STATUS_STATE != 2 then d
    else
      let f := d.neighbour b
      let d1 := d.updLink b fun l => { l with missed := 4 }
      let dest := if d1.get .ENS_STATUS_ACTING_LEAD == f then d1.holderOf f else d1.get .ENS_STATUS_ACTING_LEAD
      if dest == d1.pos then d1.noteReport e d1.pos b
      else d1.sendRing .report (some dest) [BitVec.ofNat 8 d1.pos, BitVec.ofNat 8 (ofBool b)]

/-- NEIGHBOUR_REPORT: such a report of position `src` about its link `b` reaches this die. -/
def execNeighbourReport (src : Nat) (b : Bool) (s : State) : Out :=
  s.act fun e d => (d.ringIn src 2).noteReport e src b

/-- FAILING_RECEIVED: position `pos` resets. Marked DISCARD, its mirror is zeroized (R378). -/
def execFailingReceived (pos : Nat) (discard : Bool) (s : State) : Out :=
  s.act fun e d0 =>
    let d := d0.ringIn pos 2
    let d1 := if discard && d.holderOf pos == d.pos then { d with mlf := { d.mlf with mirror := .empty, mirrorToo := .empty } } else d
    if d1.judges pos then d1.declare e pos else d1

/-- The host link of a position has been down for longer than LINK_GRACE, in units of 100 µs; 0 never declares (R327). -/
def Die.graceOver (d : Die) (pos : Nat) : Bool :=
  d.has .ENS_CTL_LINK_GRACE && d.ens.hostDown.any fun x => x.1 == pos && decide (x.2 * 10 + d.get .ENS_CTL_LINK_GRACE < d.nowMs * 10)

/-- The lead die's own host link is down past the grace (R327): it declares its own position, and, still running, stops and warm-resets
itself (log 212). -/
def Die.declareSelf (e : Env) (d : Die) : Die :=
  if d.size == 1 || d.get .ENS_STATUS_STATE != 2 then d
  else
    let d1 := (d.raise21 .ENS_EVENT_DIE_FAILED).reportOf e 0x0801
    (d1.sendRing .declared none [BitVec.ofNat 8 d.pos]).startReset e 2 .RST_CAUSE_DECLARED false

/-- LINK_GRACE_TIMEOUT: a die's host link has been down for longer than LINK_GRACE. -/
def execLinkGraceTimeout (pos : Nat) (s : State) : Out :=
  s.act fun e d =>
    if d.isLead && d.graceOver pos then (if pos == d.pos then d.declareSelf e else d.declare e pos) else d

/-- DECLARATION_RECEIVED: the die that is declared resets itself; any other die holds what goes to it, and its mirror holder
adopts and tells the lead die. -/
def execDeclarationReceived (pos : Nat) (s : State) : Out :=
  s.act fun e d =>
    if d.size == 1 then d
    else if pos == d.pos then d.startReset e 2 .RST_CAUSE_DECLARED false
    else
      let d1 := d.failed e pos
      if d1.has .MLF_STATUS_ADOPTED && !d.has .MLF_STATUS_ADOPTED && !d1.isLead
      then d1.sendRing .state (some (d1.get .ENS_STATUS_ACTING_LEAD)) [BitVec.ofNat 8 (d1.get .MLF_STATUS_ADOPTED_POS)] else d1

/-! ## The serve map (R324, R328) -/

/-- Tenants of a position that have a standby function on this die. -/
def Die.standbysHere (d : Die) (pos : Nat) : List (Nat × Nat) :=
  (List.range 256).filterMap fun k =>
    let t := pos * 256 + k
    if d.hasAt .ENS_STANDBY_VALID t && d.getAt .ENS_STANDBY_STANDBY t / 256 == d.pos
    then some (d.getAt .ENS_STANDBY_STANDBY t % 256, t) else none

/-- Function `fn` has the shares, the mode and the DMA regions that a tenant's section gives. -/
def Die.asTenant (d : Die) (fn tenant : Nat) : Die :=
  match d.section? 4 tenant with
  | some s => (d.bootTenant fn s).committed fn
  | none => (d.clearRegions fn).committed fn

/-- A standby function becomes ACTIVE as an alias: the tenant's shares and DMA regions are its own now (R326). -/
def Die.activateAlias (d : Die) (a : Nat × Nat) : Die :=
  let kept : List (Nat × Nat) := d.ens.aliases.filter fun x => x.1 != a.1
  let d1 : Die := { d with ens := { d.ens with aliases := kept ++ [a] } }
  ((d1.setAt .TEN_STATE_STATE a.1 2).setAt .QUE_PAGE_STATUS_READY a.1 1).asTenant a.1 a.2

/-- A request that was held goes on: one of a ring pair from its command on, one that another die forwarded at once. -/
def Die.goOn (e : Env) (d : Die) (rid : Nat) : Die :=
  let d1 := d.setStage rid .fetched
  match d1.req? rid with
  | some r => (match r.origin with | .ring .. => d1.arrived e r | .pair .. => d1)
  | none => d1

/-- Requests held for a position are released, and those that went to it and lost their completion are issued again (log 110). -/
def Die.releaseHeld (e : Env) (d : Die) (pos : Nat) : Die :=
  let held := (d.ens.held.filter fun h => h.pos == pos).map Held.rid
  let lost := (d.ens.awaiting.filter fun a => a.2.2 == pos).map fun a => a.2.1
  let d1 := { d with ens := { d.ens with held := d.ens.held.filter fun h => h.pos != pos,
                                         awaiting := d.ens.awaiting.filter fun a => a.2.2 != pos } }
  (held ++ lost).foldl (Die.goOn e) d1

/-- ENS_SERVE takes an entry. -/
def Die.setServer (d : Die) (pos server : Nat) : Die :=
  d.set .ENS_SERVE_SERVER (putBits (d.get .ENS_SERVE_SERVER) (4 * pos + 3) (4 * pos) (server % 8 + (if server = pos then 0 else 8)))

/-- The lead die tells every die. -/
def Die.sendServe (d : Die) (pos server : Nat) : Die :=
  if d.isLead then d.sendRing .serveMap none [BitVec.ofNat 8 pos, BitVec.ofNat 8 server] else d

/-- SERVE_MAP_UPDATE: the adopter serves the slice; the map changes, standbys of the position's tenants become ACTIVE, and held
requests are released. -/
def execServeMapUpdate (pos server : Nat) (s : State) : Out :=
  s.act fun e d =>
    if decide (8 ≤ pos) || decide (8 ≤ server) || d.get .ENS_STATUS_STATE != 2 then d
    else
      let d1 := (d.setServer pos server).sendServe pos server
      let d2 := { d1 with ens := { d1.ens with declared := d1.ens.declared.filter fun p => p != pos } }
      let d3 : Die :=
        if server = pos then d2
        else (List.range 256).foldl (fun d k =>
          let t := pos * 256 + k
          if d.hasAt .ENS_STANDBY_VALID t then d.setAt .ENS_STANDBY_ALIASED t 1 else d) d2
      let d4 : Die := if server == d.pos && server != pos then (d3.standbysHere pos).foldl Die.activateAlias d3 else d3
      d4.releaseHeld e pos

/-! ## Handback (R329) -/

/-- The standby functions here that act for tenants of a position. -/
def Die.aliasesOf (d : Die) (pos : Nat) : List (Nat × Nat) := d.ens.aliases.filter fun a => a.2 / 256 == pos

/-- The slice that this die gives back, once nothing of its aliases is in flight: dirty sessions and blocks are written back, and the
nonce and the upper levels go to the returning die. -/
def Die.giveSlice (e : Env) (d : Die) : Die :=
  match d.ens.giving with
  | none => d
  | some pos =>
    if (d.aliasesOf pos).any fun a => d.fnBusy a.1 then d
    else
      let d1 := { d with ens := { d.ens with giving := none } }.flushSlice e pos
      (d1.sendRing .handback (some pos) (d1.handbackBody pos)).dropSlice pos

/-- The server of a position gives its slice back: it quiesces its aliases of the position's tenants first (R278, R329). -/
def Die.giveBack (e : Env) (d : Die) (pos : Nat) : Die :=
  let stop (d : Die) (a : Nat × Nat) : Die :=
    if d.getAt .TEN_STATE_STATE a.1 == 2 then (d.setTenant a.1 3 1).startDrain e a.1 1 .quiesced else d
  let d1 : Die := (d.aliasesOf pos).foldl stop { d with ens := { d.ens with giving := some pos } }
  d1.giveSlice e

/-- QUIESCE_DONE (R279); the last alias that a handback waits for lets it go on (R329). -/
def execQuiesceDone (fn : Nat) (s : State) : Out := s.act fun e d => (d.quiesceDone e fn).giveSlice e

/-- HANDBACK: on the lead die a write of ENS_CTL.HANDBACK with POS, ignored unless that die is STARTING; on every other die the
lead's message. Records for the position are held from here on. -/
def execHandback (pos : Nat) (starting : Bool) (s : State) : Out :=
  s.act fun e d0 =>
    let d := if d0.isLead then d0.access 0 else d0
    if !starting || decide (8 ≤ pos) || d.serverOf pos == pos then d
    else
      let hold (d : Die) : Die := { d with ens := { d.ens with declared := (d.ens.declared.filter fun p => p != pos) ++ [pos] } }
      let d1 : Die :=
        if d.isLead then ((d.set .ENS_CTL_HANDBACK 1).set .ENS_CTL_POS pos).sendRing .handback none [BitVec.ofNat 8 pos]
        else d
      if d1.has .MLF_STATUS_ADOPTED && d1.get .MLF_STATUS_ADOPTED_POS == pos then hold (d1.giveBack e pos) else hold d1

/-- An alias ends and its function is a standby again, IDLE, with the shares and regions of its own. -/
def Die.endAlias (d : Die) (a : Nat × Nat) : Die :=
  let d1 := { d with ens := { d.ens with aliases := d.ens.aliases.filter fun x => x.1 != a.1 } }
  (((d1.setAt .TEN_STATE_STATE a.1 1).setAt .TEN_STATE_CMD_RESULT a.1 2).setAt .QUE_PAGE_STATUS_READY a.1 0).asTenant a.1 (d1.tenantOf a.1)

/-- HANDBACK_DONE: the returning die has its slice; the serve map changes on every die, lead duties return to the strapped
lead, and its neighbour mirrors to it again. -/
def execHandbackDone (pos : Nat) (body : Bytes) (s : State) : Out :=
  s.act fun e d =>
    if decide (8 ≤ pos) || !((pos == d.pos && d.get .MLF_STATUS_STATE == 3) || (pos != d.pos && d.serverOf pos != pos)) then d
    else
      let d1 := if pos == d.pos then d.takeBack body else d
      let d2 : Die :=
        if d.isLead then (((d1.set .ENS_CTL_HANDBACK 0).raise21 .ENS_EVENT_HANDBACK_DONE).reportOf e 0x0803).sendServe pos pos
        else d1
      let d3 : Die := if pos == d.get .ENS_STATUS_LEAD_POS then d2.set .ENS_STATUS_ACTING_LEAD pos else d2
      let d4 : Die := ((d3.aliasesOf pos).foldl Die.endAlias (d3.setServer pos pos))
      let d5 : Die := (List.range 256).foldl (fun d k => d.setAt .ENS_STANDBY_ALIASED (pos * 256 + k) 0) d4
      let d6 := { d5 with ens := { d5.ens with declared := d5.ens.declared.filter fun p => p != pos } }
      let d7 := if d6.mirrorHolder == pos && d6.get .MLF_STATUS_STATE == 1 && d6.pos != pos then d6.startMirror else d6
      d7.releaseHeld e pos

/-! ## Standby functions (R326) -/

/-- What a standby must meet: a function on the mirror holder of the tenant's die, assigned, IDLE with no key object (of a function
of another die as `idle` says), and standby for no other tenant. -/
def Die.standbyOk (d : Die) (tenant standby : Nat) (idle : Bool) : Bool :=
  standby / 256 == d.holderOf (tenant / 256) && (d.section? 4 standby).isSome &&
    (if standby / 256 = d.pos then d.getAt .TEN_STATE_STATE (standby % 256) == 1 && !d.key.objs.any fun o => o.tenant == standby && !o.isTombstone
     else idle) &&
    !(List.range 2048).any fun t => t != tenant && d.hasAt .ENS_STANDBY_VALID t && d.getAt .ENS_STANDBY_STANDBY t == standby

/-- STANDBY_WRITE: a write of ENS_STANDBY on the lead die, or what the lead die sends of one (`received`) (log 112). -/
def execStandbyWrite (tenant : Nat) (valid : Bool) (standby : Nat) (idle received : Bool) (s : State) : Out :=
  s.act fun _ d0 =>
    let t := tenant % 2048
    let sb := standby % 2048
    let put (d : Die) : Die := (d.setAt .ENS_STANDBY_VALID t (ofBool valid)).setAt .ENS_STANDBY_STANDBY t sb
    if received then (if d0.isLead then d0 else put d0)
    else
      let d := d0.access 0
      if !d.isLead then d
      else if valid && !d.standbyOk t sb idle then d.event .ENS_EVENT_STEER_REFUSED
      else (put d).sendRing .standby none (leBytes 2 t ++ leBytes 1 (ofBool valid) ++ leBytes 2 sb)

end Sys2Proof.Machine
end

