-- ==== Sys2Proof/Machine/Domain.lean ====
section
/-! DEFINITION. Domains (spec/12 R331 to R340): envelopes, joining, tuples and presence, staged activation, quarantine. -/
namespace Sys2Proof.Machine

/-! ## Envelopes (R332) -/

def envMagic : Nat := 0x564E4544

/-- The 48-byte header of an envelope made now. -/
def Die.envHeader (d : Die) (kind source length : Nat) (tag : Bytes) : Bytes :=
  leBytes 4 envMagic ++ [1] ++ leBytes 1 kind ++ leBytes 2 source ++ leBytes 4 length ++ zeros 4 ++ tag ++
    leBytes 8 (d.get .ENS_DOMAIN_EPOCH_VALUE) ++ leBytes 8 (d.get .ENS_DOMAIN_TIME_VALUE)

def envKind (b : Bytes) : Nat := leAt b 5 1
def envSource (b : Bytes) : Nat := leAt b 6 2
def envTag (b : Bytes) : Bytes := slice b 16 16
def envEpoch (b : Bytes) : Nat := leAt b 32 8
def envSeq (b : Bytes) : Nat := leAt b 40 8

/-- MAGIC, FORMAT, LENGTH and the reserved bytes of a header are what R332 says. -/
def envOk (b : Bytes) (n : Nat) : Bool :=
  leAt b 0 4 == envMagic && leAt b 4 1 == 1 && leAt b 8 4 == n && leAt b 12 4 == 0 && b.length == n

/-- The member number of this die (R331). -/
def Die.member (d : Die) : Nat := 8 * d.ens.slot + d.pos

/-- The domain requests run on the lead die's physical function, and complete POLICY_DENY on that of another die (R333); `k` goes on. On
a virtual function R14 says BAD_DESCRIPTOR of every management opcode and R333 POLICY_DENY of these: the model takes R14's answer, which
tells nothing of where the lead die is (DESIGN CHOICE, log 193, 200). -/
def Die.envRequest (e : Env) (d : Die) (r : Req) (arg : Nat) (k : Die) : Die :=
  if r.fn? != some 0 then d.fail e r .badDescriptor 1
  else if !d.isLead then d.fail e r .policyDeny 0
  else if r.handle != 0 || !r.zeroBytes (56 + arg) 64 then d.fail e r .badDescriptor 1
  else k

/-- Input length, ranges and space for `out` bytes of output. -/
def Die.envInput (e : Env) (d : Die) (r : Req) (inOk : Nat → Bool) (out : Nat) (k : Die) : Die :=
  if !inOk r.inLen then d.fail e r .badDescriptor 2
  else d.rangesOk e r (if r.outLen < out then d.complete e r (tooSmall out) else k)

/-- ENS_ENVELOPE_MAKE for one KIND; KIND values that R333 does not list are refused. -/
def Die.makeEnvelope (e : Env) (d : Die) (rid kind : Nat) (inOk : Nat → Bool) (k : Req → Die) : Die :=
  d.handle e rid 0xFC fun r => d.envRequest e r 1
    (if r.byte 56 < 2 || 4 < r.byte 56 then d.fail e r .badDescriptor 1
     else if r.byte 56 != kind then d else d.envInput e r inOk 0 (k r))

/-- ENS_ENVELOPE_TAKE for one KIND, as the header of the input names it; an input whose header R332 does not describe is
refused as one whose tag fails (log 45). -/
def Die.takeEnvelope (e : Env) (d : Die) (rid kind : Nat) (inOk : Nat → Bool) (k : Req → Bytes → Die) : Die :=
  d.handle e rid 0xFD fun r => d.envRequest e r 0
    (let b := dmaRead e d r.inAddr (min r.inLen 65536)
     if envKind b < 1 || 5 < envKind b then d.envInput e r (fun _ => true) 0 (d.fail e r .paramRejected 0x30)
     else if envKind b != kind then d
     else d.envInput e r inOk 0 (k r b))

/-! ## Joining (R335) -/

/-- The join keys of a serial (R332): the P-384 scalar and the ML-KEM-1024 seed. -/
def Die.joinScalar (d : Die) (serial : Bytes) : Nat := p384Scalar (kdf (d.key.drk.getD []) (ascii "JOIN-EC") serial 64)
def Die.joinSeed (d : Die) (serial : Bytes) : Bytes := kdf (d.key.drk.getD []) (ascii "JOIN-KEM") serial 64

/-- A pending admission whose ROOT envelope was not asked for within 300 s is gone (log 121). -/
def Die.lapseAdmission (d : Die) : Die :=
  match d.ens.admission with
  | some a =>
    if a.root.isSome && decide (a.rootMs + 300000 < d.nowMs) then
      ({ d with ens := { d.ens with admission := none } }.set .ENS_DOMAIN_STATUS_ADMIT_PENDING 0).setDigest .ENS_ADMIT_IDENTITY_DIGEST (zeros 48)
    else d
  | none => d

/-- The body of a JOIN_REQUEST before its statement, with the join serial that is drawn at `a`. -/
def Die.joinBody (d : Die) (a : Nat) : Bytes :=
  p384Point (d.joinScalar (randomBytes a 16)) ++ mlkemEk 3 (d.joinSeed (randomBytes a 16)) ++ randomBytes a 16

/-- What its statement holds (R332, R335). -/
def Die.joinAsk (d : Die) (a : Nat) : AttestAsk :=
  { nonce := sha384 (d.joinBody a), chain := true, tenant := none, key := none, imports := false }

/-- A whole JOIN_REQUEST: header, body, and its statement with the random bytes that follow the serial. -/
def Die.joinRequest (d : Die) (a : Nat) : Bytes :=
  let st := (d.statement (d.joinAsk a) (a + 16)).1
  d.envHeader 2 0xFFFF (48 + (d.joinBody a).length + st.length) (zeros 16) ++ d.joinBody a ++ st

/-- ENS_ENVELOPE_MAKE, JOIN_REQUEST: of an ensemble in Mission with no domain root. -/
def execEnsEnvelopeMakeJoin (rid : Nat) (s : State) : Out :=
  s.act fun e d => d.makeEnvelope e rid 2 (· == 0) fun r =>
    if d.get .LCS_STATE_STATE != 4 || d.has .ENS_DOMAIN_STATUS_ROOT then d.fail e r .policyDeny 0x0F
    else
      let size := (d.joinRequest r.drawn).length
      if r.outLen < size then d.complete e r (tooSmall size)
      else d.withWork e r (fun a => d.statementWork (d.joinAsk a) (a + 16)) (16 + statementDraw) none (fun d st x => d.fail e r st x) fun d1 a =>
        let d2 := { d1.countStatement with ens := { d1.ens with joinSerial := some (randomBytes a 16) } }.set .ENS_DOMAIN_STATUS_JOIN_OUT 1
        d2.finishOut e r (d1.joinRequest a)

/-! ### Reading a statement -/

/-- The head of a CBOR item: major type, argument, and the bytes after it. -/
def cborRead (b : Bytes) : Nat × Nat × Bytes :=
  let x := leAt b 0 1 % 32
  let n := if x = 24 then 1 else if x = 25 then 2 else if x = 26 then 4 else if x = 27 then 8 else 0
  (leAt b 0 1 / 32, if x < 24 then x else beAt b 1 n, b.drop (1 + n))

/-- Skips `k` items. -/
def cborSkip : Nat → Nat → Bytes → Bytes
  | 0, _, b => b
  | _, 0, b => b
  | f + 1, k + 1, b =>
    match cborRead b with
    | (2, n, r) | (3, n, r) => cborSkip f k (r.drop n)
    | (4, n, r) => cborSkip f (k + n) r
    | (5, n, r) => cborSkip f (k + 2 * n) r
    | (_, _, r) => cborSkip f k r

/-- The first item. -/
def cborItem (b : Bytes) : Bytes := b.take (b.length - (cborSkip b.length 1 b).length)

/-- The value of a key of a map with `n` entries. -/
def cborFind : Nat → Nat → Bytes → Option Bytes
  | 0, _, _ => none
  | n + 1, key, b =>
    let v := cborSkip b.length 1 b
    if (cborRead b).1 = 0 ∧ (cborRead b).2.1 = key then some (cborItem v) else cborFind n key (cborSkip v.length 1 v)

/-- A claim of a payload. -/
def claim (payload : Bytes) (key : Nat) : Option Bytes :=
  match cborRead payload with
  | (5, n, r) => cborFind n key r
  | _ => none

/-- The content of a byte string item. -/
def cborString (b : Bytes) : Bytes := match cborRead b with | (2, n, r) => r.take n | _ => []

/-- Payload, chain and signature of the i-th COSE_Sign1 of a statement. -/
def coseParts (st : Bytes) (i : Nat) : Bytes × Bytes × Bytes :=
  let one := cborSkip st.length i (st.drop 1)
  let f (k : Nat) : Bytes := cborItem (cborSkip one.length k (one.drop 1))
  let chain := match cborRead (f 1) with
    | (5, n, r) => (cborFind n 33 r).getD []
    | _ => []
  (cborString (f 2), chain, cborString (f 3))

/-- A statement whose two structures share one payload, and whose signatures and chains verify to the Vailador roots. -/
def statementPayload (st : Bytes) : Option Bytes :=
  let a := coseParts st 0
  let b := coseParts st 1
  let root := romPair 4
  if a.1 == b.1 && Config.chainVerifies 4 root.1 a.2.1 (coseToSign false a.1) a.2.2 &&
     Config.chainVerifies 5 root.2 b.2.1 (coseToSign true b.1) b.2.2 then some a.1 else none

/-- The joiner that a JOIN_REQUEST speaks for, by its identity; none where a check of R335 step 2 fails. -/
def Die.joiner (d : Die) (b : Bytes) (slot : Nat) : Option Bytes :=
  match statementPayload (b.drop 1729) with
  | none => none
  | some p =>
    let present := (List.range 8).any fun k => (tget d.ens.members (8 * slot + k)).present
    if envOk b b.length && ((claim p 1).map cborString) == some (sha384 (slice b 48 1681)) && (claim p 5) == some (cborUint 4) &&
       ((claim p 7).map cborString) == some (d.digestOf .TIN_DIGEST_DIGEST) && decide (slot < 512) && !present && slot != d.ens.slot
    then (claim p 3).map cborString else none

/-- ENS_ENVELOPE_TAKE, JOIN_REQUEST. An outstanding join of this die's own is looked at before the root (log 211). The slot that the
admission names is an operand: no field of the envelope carries it (log 46). -/
def execEnsEnvelopeTakeJoin (rid slot : Nat) (s : State) : Out :=
  s.act fun e d0 =>
    let d := d0.lapseAdmission
    d.takeEnvelope e rid 2 (fun n => decide (1729 < n ∧ n ≤ 65536)) fun r b =>
      if d.ens.joinSerial.isSome then d.fail e r .limitReached 9
      else if !d.has .ENS_DOMAIN_STATUS_ROOT then d.fail e r .policyDeny 0x0F
      else if d.ens.admission.isSome then d.fail e r .limitReached 9
      else if d.key.ceremony.isSome then d.fail e r .busy 0
      else match d.joiner b slot with
        | none => d.fail e r .paramRejected 0x32
        | some i =>
          let d1 := { d with ens := { d.ens with admission := some { identity := i, slot, request := slice b 48 1665, root := none, rootMs := 0 } } }
          ((d1.set .ENS_DOMAIN_STATUS_ADMIT_PENDING 1).setDigest .ENS_ADMIT_IDENTITY_DIGEST i).complete e r (Reply.done 0)

/-- x-coordinate of the product of a P-384 point, as SEC 1 writes it, and a scalar. -/
def p384Ecdh (x : Nat) (pt : Bytes) : Bytes :=
  match (builtinCurve 2).mul x (some (beAt pt 1 48, beAt pt 49 48)) with
  | some q => beBytes 48 q.1
  | none => zeros 48

/-- The KEK of R249: SP 800-108 of the two secrets under "IMPORT". -/
def importKek (ecdh kem context : Bytes) : Bytes := kdf (ecdh ++ kem) (ascii "IMPORT") context 32

/-- The ROOT envelope for an admission, sealed with 108 random bytes from draw `a` on: ephemeral scalar, encapsulation, nonce. Its
AAD is the header and body bytes 0 to 15, its context empty (log 47). -/
def Die.sealRoot (d : Die) (ad : Admission) (dr : Bytes) (a : Nat) : Bytes :=
  let x := p384Scalar (randomBytes a 64)
  let m := randomBytes (a + 64) 32
  let nonce := randomBytes (a + 96) 12
  let ek := slice ad.request 97 1568
  let hdr := d.envHeader 3 d.member (48 + 64 + 97 + 1568 + 12 + 4 + 48) d.ens.domainTag
  let front := ad.identity ++ leBytes 2 ad.slot ++ zeros 14
  let kek := importKek (p384Ecdh x (ad.request.take 97)) (mlkemSs 3 ek m) []
  hdr ++ front ++ p384Point x ++ mlkemCt 3 ek m ++ nonce ++ leBytes 4 48 ++ gcmSeal kek nonce (hdr ++ front.take 16) dr

/-- ENS_ENVELOPE_MAKE, ROOT: the envelope that a DOMAIN_SPLIT ceremony sealed is handed out once, and the admission is over. -/
def execEnsEnvelopeMakeRoot (rid : Nat) (s : State) : Out :=
  s.act fun e d0 =>
    let d := d0.lapseAdmission
    d.makeEnvelope e rid 3 (· == 0) fun r =>
      match d.ens.admission.bind Admission.root with
      | none => d.fail e r .policyDeny 0x0F
      | some b =>
        if r.outLen < b.length then d.complete e r (tooSmall b.length)
        else
          let d1 := ({ d with ens := { d.ens with admission := none } }.set .ENS_DOMAIN_STATUS_ADMIT_PENDING 0).setDigest .ENS_ADMIT_IDENTITY_DIGEST (zeros 48)
          d1.finishOut e r b

/-- The root that a ROOT envelope holds for this ensemble; none where it is for another, or its tag fails (log 120). -/
def Die.openRoot (d : Die) (serial b : Bytes) : Option Bytes :=
  let kek := importKek (p384Ecdh (d.joinScalar serial) (slice b 112 97)) (mlkemDec 3 (d.joinSeed serial) (slice b 209 1568)) []
  if slice b 48 48 == d.digestOf .ENS_IDENTITY_DIGEST && leAt b 1789 4 == 48
  then gcmOpen kek (slice b 1777 12) (b.take 64) (slice b 1793 48) else none

/-- ENS_ENVELOPE_TAKE, ROOT: the joiner deals its own shares with SHARE_GEN 1, and once they are committed it derives its keys and serves
its slices; no reset follows (R335 step 5). While another dealing waits, so does the request. -/
def execEnsEnvelopeTakeRoot (rid : Nat) (s : State) : Out :=
  s.act fun e d => d.takeEnvelope e rid 3 (· == 1841) fun r b =>
    match d.ens.joinSerial with
    | none => d.fail e r .policyDeny 0x0F
    | some serial =>
      match if envOk b 1841 then d.openRoot serial b else none with
      | none => d.fail e r .paramRejected 0x30
      | some dr =>
        if (hmac 2 dr (ascii "DOMAIN-ID")).take 16 != envTag b then d.fail e r .paramRejected 0x31
        else if d.key.dealing.isSome then d
        else d.withEntropy e r (32 * (thresholdOf d.size - 1)) fun d1 a =>
          (d1.extendMeas 7 (sha384 b)).dealShares e a
            { rid, gen := 1, root := dr, join := some (leAt b 96 2 % 512, envEpoch b), wait := [], rep := Reply.done 0, cer := false }

/-! ## Key transport (R336, R340) -/

/-- A slot of the domain holds a quarantined member. -/
def Die.slotQuarantined (d : Die) (slot : Nat) : Bool := (List.range 8).any fun k => (tget d.ens.members (8 * slot + k)).quarantined

/-- The keys of transport need a root that is combined. -/
def Die.domainKeys (e : Env) (d : Die) (r : Req) (key : Option Bytes) (k : Bytes → Die) : Die :=
  if !d.has .ENS_DOMAIN_STATUS_ROOT then d.fail e r .policyDeny 0x0F
  else match key with
    | none => d.fail e r .keyExpired 0
    | some x => k x

/-- The object of a source tenant, with its content as it is to travel: the payload, and for an extended object its extension's content;
no content where the extension fails its check. The object of a tenant whose slice another die serves is what that die sent (`far`)
(log 119). -/
def Die.withSource (e : Env) (d : Die) (r : Req) (tenant handle : Nat) (far : Bytes) (k : Die → KeyObj → Option Bytes → Die) : Die :=
  if d.servesSlice (tenant / 256) || far.length < 112 then
    d.withKeyOf e r tenant handle (fun d => d.readKey tenant handle) fun d o =>
      k d o (if o.extended then (d.readExt e o).map (o.payload ++ ·) else some o.payload)
  else k d (parseObj tenant handle (far.take 112)) (some far)

/-- ENS_ENVELOPE_MAKE, KEY. -/
def execEnsEnvelopeMakeKey (rid : Nat) (far : Bytes) (s : State) : Out :=
  s.act fun e d => d.makeEnvelope e rid 4 (· == 16) fun r =>
    let b := dmaRead e d r.inAddr 16
    if leAt b 10 6 != 0 then d.fail e r .badDescriptor 1
    else d.domainKeys e r d.ens.dxk fun dxk =>
      if d.slotQuarantined (leAt b 4 2) then d.fail e r .policyDeny 0x0B
      else d.withSource e r (leAt b 0 2 % 2048) (leAt b 2 2) far fun d o content? =>
        if !o.exportable || o.volatile || o.uses != uncounted then d.fail e r .policyDeny 0
        else match content? with
          | none => d.fail e r .paramRejected 0x10
          | some content =>
            let n := 48 + 16 + 12 + content.length + 16
            if r.outLen < n then d.complete e r (tooSmall n)
            else d.withDraw e r 12 fun d1 a =>
              let hdr := d1.envHeader 4 d1.member n d1.ens.domainTag
              let target := slice b 4 6 ++ zeros 10
              let nonce := randomBytes a 12
              d1.finishOut e r (hdr ++ target ++ nonce ++ gcmSeal (kdf dxk (ascii "KEY") (hdr ++ target) 32) nonce [] content)

/-- ENS_ENVELOPE_TAKE, KEY: the object lands at its target with ORIGIN 0x05. For a tenant whose slice another die serves, the
object goes there over the ring, and the request completes with what that die answers (log 195). -/
def execEnsEnvelopeTakeKey (rid : Nat) (s : State) : Out :=
  s.act fun e d => d.takeEnvelope e rid 4 (fun n => decide (204 ≤ n ∧ n ≤ 65536)) fun r b => d.domainKeys e r d.ens.dxk fun dxk =>
    let tenant := leAt b 50 2 % 2048
    let handle := leAt b 52 2
    let epoch := d.get .ENS_DOMAIN_EPOCH_VALUE
    if !envOk b r.inLen || slice b 54 10 != zeros 10 then d.fail e r .paramRejected 0x30
    else if envTag b != d.ens.domainTag || leAt b 48 2 != d.ens.slot || !(envEpoch b == epoch || envEpoch b + 1 == epoch)
    then d.fail e r .paramRejected 0x31
    else match gcmOpen (kdf dxk (ascii "KEY") (b.take 64) 32) (slice b 64 12) [] (b.drop 76) with
      | none => d.fail e r .paramRejected 0x30
      | some content =>
        if (tget d.ens.members (envSource b)).quarantined then d.fail e r .policyDeny 0x0B
        else
          let o := { parseObj tenant handle (content.take 112) with origin := 5 }
          if d.servesSlice (tenant / 256) then
            d.withDestOf e r tenant handle fun d =>
              if o.extended then d.installObj e r { o with aflags := o.aflags - 8 } (content.drop 112) r.outAddr (Reply.done 0)
              else d.createAt e r o (Reply.done 0)
          else
            d.askDie { rid, gen := 0, root := [], join := none, wait := [], rep := Reply.done 0, cer := false } (d.serverOf (tenant / 256))
              (installBody o r.outAddr (content.drop 112))

/-! ## Tuples, presence and convergence (R334, R337, R338) -/

/-- The tag of a TUPLE: over the header, with no plaintext (R332) (log 118). -/
def tupleTag (dtk hdr : Bytes) : Bytes := aeadTag 1 16 (kdf dtk (ascii "TUPLE") hdr 32) (zeros 12) hdr []

/-- This die's TUPLE envelope: 224 bytes. -/
def Die.tuple (d : Die) (dtk : Bytes) : Bytes :=
  let hdr := d.envHeader 1 d.member 224 d.ens.domainTag
  hdr ++ d.ownTuple.drop 8 ++ leBytes 4 (d.get .TIN_SERIAL_VALUE) ++ leBytes 4 (d.get .TIN_DELTA_SEQ_VALUE) ++
    leBytes 1 (d.get .LCS_STATE_STATE) ++ zeros 7 ++ tupleTag dtk hdr

/-- A member's tuple is accepted: it is present, and its mismatch bit follows; a matching tuple ends its quarantine. -/
def Die.acceptTuple (d : Die) (b : Bytes) : Die :=
  let k := envSource b % 4096
  let m := tget d.ens.members k
  let t := slice b 32 8 ++ slice b 48 144
  let m1 := d.judged { m with lastSeq := envSeq b, lastMs := d.nowMs, present := true, tuple := t }
  let d1 := d.setMember k { m1 with quarantined := m1.mismatch && m.quarantined }
  if m1.mismatch && !m.mismatch then d1.event .ENS_EVENT_MISMATCH else d1

/-- A TUPLE is accepted as R337 says. -/
def Die.tupleOk (d : Die) (dtk b : Bytes) : Bool :=
  envOk b 224 && envKind b == 1 && slice b 208 16 == tupleTag dtk (b.take 48) && envTag b == d.ens.domainTag &&
    decide ((tget d.ens.members (envSource b % 4096)).lastSeq < envSeq b)

/-- What a die learns of the domain over the ring: 0 a tuple that was accepted, or that a die of the ensemble made; and from the lead die
1 an armed activation, 2 one that is over, with the epoch that it set (0 for none) and the end of its window, 3 the domain time, 4
LINK_GRACE (R18, R337, R340; log 195). -/
def Die.domainMessage (d : Die) (b : Bytes) : Die :=
  match leAt b 0 1 with
  | 0 => d.acceptTuple (slice b 1 224)
  | 1 =>
    if d.isLead then d
    else
      let a : Armed := { serial := leAt b 1 4, digest := slice b 5 48, epoch := leAt b 53 8, actTime := leAt b 61 8, windowS := leAt b 69 4, tried := none }
      ({ d with ens := { d.ens with armed := some a } }.set .ENS_DOMAIN_STATUS_ARMED 1).set .ENS_ACT_TIME_VALUE a.actTime
  | 2 =>
    if d.isLead then d
    else
      let d1 := { d.disarm with ens := { d.disarm.ens with windowEnd := leAt b 9 8 } }
      if leAt b 1 8 = 0 then d1 else (d1.set .ENS_DOMAIN_EPOCH_VALUE (leAt b 1 8)).rematch
  | 3 => if d.isLead then d else d.set .ENS_DOMAIN_TIME_VALUE (leAt b 1 8)
  | _ => if d.isLead then d else d.set .ENS_CTL_LINK_GRACE (leAt b 1 2 % 4096)

/-- ENS_ENVELOPE_TAKE, TUPLE: up to 256 envelopes back to back. A refused one fails nothing else. `received` is a message of the domain
from another die of the ensemble. -/
def execEnsEnvelopeTakeTuple (rid : Nat) (received : Option Bytes) (s : State) : Out :=
  s.act fun e d =>
    match received with
    | some m => d.domainMessage m
    | none => d.takeEnvelope e rid 1 (fun n => n % 224 == 0 && decide (224 ≤ n ∧ n ≤ 57344)) fun r b =>
      d.domainKeys e r d.ens.dtk fun dtk =>
        let x := (List.range (r.inLen / 224)).foldl (fun (acc : Die × Nat) k =>
          let t := slice b (224 * k) 224
          if acc.1.tupleOk dtk t then ((acc.1.acceptTuple t).sendDomain ([0] ++ t), acc.2 + 1) else acc) (d, 0)
        x.1.complete e r { Reply.done 0 with detail := min 255 x.2 + 256 * min 255 (r.inLen / 224 - x.2) }

/-- TUPLE_PUBLISH: once per second; the own member is present, the other dies learn the tuple over the ring, and the outbound
ring takes it or loses it (R334). The entry's PHASE is bit 7 of its byte 3 (R55, log 48). -/
def execTuplePublish (s : State) : Out :=
  s.act fun e d =>
    match d.ens.dtk with
    | none => d
    | some dtk =>
      if !d.has .ENS_DOMAIN_STATUS_ROOT then d
      else
        let t := d.tuple dtk
        let d1 := (d.acceptTuple t).sendDomain ([0] ++ t)
        if !d1.has .ENS_ENV_OUT_CTL_ENABLE then d1
        else
          let size := 2 ^ clamp 4 12 (d1.get .ENS_ENV_OUT_CTL_SIZE_LOG2)
          let tail := d1.get .ENS_ENV_OUT_TAIL_INDEX
          let a := d1.get .ENS_ENV_OUT_BASE_ADDR / 4096 * 4096 + tail % size * 256
          if size ≤ idxSub tail (d1.get .ENS_ENV_OUT_HEAD_INDEX) then d1.add .ENS_ENV_OUT_CTL_LOST 1
          else if !d1.dmaOk (d1.tenantOf 0) a 256 true then (d1.dmaFault e (d1.tenantOf 0) a 256 true).add .ENS_ENV_OUT_CTL_LOST 1
          else
            let phase := if tail / size % 2 = 0 then leAt t 3 1 + 128 else leAt t 3 1
            (d1.dmaWrite a (patch t 3 (leBytes 1 phase) ++ zeros 32)).set .ENS_ENV_OUT_TAIL_INDEX (tail + 1)

/-- PRESENCE_EXPIRE: 5 s without an accepted tuple. A member that is absent is neither mismatched nor quarantined. -/
def execPresenceExpire (member : Nat) (s : State) : Out :=
  s.act fun _ d =>
    let m := tget d.ens.members (member % 4096)
    if m.present && decide (m.lastMs + 5000 ≤ d.nowMs)
    then d.setMember (member % 4096) { m with present := false, mismatch := false, inWindow := false, quarantined := false } else d

/-- MEMBER_QUARANTINE: the Tin image asks for it, and the mismatch has lasted 10 s outside a window, or has outlived its
window (R340). -/
def execMemberQuarantine (member : Nat) (s : State) : Out :=
  s.act fun e d =>
    let m := tget d.ens.members (member % 4096)
    let due := !d.windowOpen && (m.inWindow || decide (m.mismatchSince + 10000 ≤ d.nowMs))
    if bit (leAt (bodyOf d.tin.running 1 0) 3 1) 0 && m.present && m.mismatch && due && !m.quarantined
    then ((d.setMember (member % 4096) { m with quarantined := true }).event .ENS_EVENT_QUARANTINE).reportOf e 0x0804
    else d

/-- The bits of a map of members, 512 bytes. -/
def memberMap (ms : List (Nat × Member)) (f : Member → Bool) : Bytes :=
  (List.range 512).map fun j => BitVec.ofNat 8 ((ms.filter fun x => f x.2 && x.1 / 8 == j).foldl (fun a x => a + 2 ^ (x.1 % 8)) 0)

/-- Tuples and how many present members hold each. -/
def tupleCounts : List Bytes → List (Bytes × Nat)
  | [] => []
  | t :: r =>
    let rest := tupleCounts r
    if rest.any fun x => x.1 == t then rest.map fun x => if x.1 == t then (x.1, x.2 + 1) else x else (t, 1) :: rest

/-- Puts a count in its place, largest first. -/
def insertCount (x : Bytes × Nat) : List (Bytes × Nat) → List (Bytes × Nat)
  | [] => [x]
  | y :: r => if y.2 < x.2 then x :: y :: r else y :: insertCount x r

/-- The report of R338. -/
def Die.ensReport (d : Die) : Bytes :=
  let ms := d.ens.members
  let cs := (tupleCounts ((ms.filter fun x => x.2.present).map fun x => x.2.tuple)).foldr insertCount []
  let top := (cs.take 8).flatMap fun x => (sha384 x.1).take 24 ++ leBytes 4 x.2 ++ zeros 4
  memberMap ms Member.present ++ memberMap ms Member.mismatch ++ slice (top ++ zeros 256) 0 256 ++
    leBytes 4 ((cs.drop 8).map fun x => x.2).sum ++ zeros 252

def execEnsReport (rid : Nat) (s : State) : Out :=
  s.act fun e d => d.handle e rid 0xFE fun r => d.envRequest e r 0 (d.envInput e r (· == 0) 1536 (d.finishOut e r d.ensReport))

/-! ## Staged activation (R339) -/

/-- The staged image is the one an armed envelope names. -/
def Die.stagedIs (d : Die) (serial : Nat) (digest : Bytes) : Bool :=
  d.tin.staged.any fun x => x.serial == serial && configDigest x.sections x.serial 0 == digest

/-- The checks of an ACTIVATION envelope. -/
def Die.activationOk (d : Die) (b : Bytes) : Bool :=
  envOk b 4867 && envSource b == 0xFFFF && envTag b == d.ens.domainTag && envEpoch b == d.get .ENS_DOMAIN_EPOCH_VALUE &&
    leAt b 100 8 == d.get .ENS_DOMAIN_EPOCH_VALUE + 1 && decide (1 ≤ leAt b 116 4 ∧ leAt b 116 4 ≤ 3600) && slice b 120 24 == zeros 24 &&
    d.stagedIs (leAt b 48 4) (slice b 52 48) &&
    (match d.ownerPair with
     | some k => pairVerifies k.1 k.2 "TY8K40 domain activation" (sha384 (b.take 144)) (b.drop 144)
     | none => false)

/-- ENS_ENVELOPE_TAKE, ACTIVATION: arms the lead die. -/
def execEnsEnvelopeTakeActivation (rid : Nat) (s : State) : Out :=
  s.act fun e d => d.takeEnvelope e rid 5 (fun _ => true) fun r b =>
    if !d.has .ENS_DOMAIN_STATUS_ROOT then d.fail e r .policyDeny 0x0F
    else if !d.activationOk b then d.fail e r .paramRejected 0x33
    else
      let a : Armed := { serial := leAt b 48 4, digest := slice b 52 48, epoch := leAt b 100 8, actTime := leAt b 108 8, windowS := leAt b 116 4, tried := none }
      let d1 := ({ d with ens := { d.ens with armed := some a } }.set .ENS_DOMAIN_STATUS_ARMED 1).set .ENS_ACT_TIME_VALUE a.actTime
      let d2 := d1.sendDomain ([1] ++ leBytes 4 a.serial ++ a.digest ++ leBytes 8 a.epoch ++ leBytes 8 a.actTime ++ leBytes 4 a.windowS)
      (d2.event .ENS_EVENT_ARMED).complete e r (Reply.done 0)

/-- An armed activation at or after its time, when an attempt is due: performed, or delayed by a Tin operation that is running. The new
epoch is committed with the bank, before an ensemble reset (`Die.tinDone`). -/
def Die.tryActivation (e : Env) (d : Die) (due : Option Nat → Bool) : Die :=
  match d.ens.armed with
  | none => d
  | some a =>
    let wend := a.actTime + 1000 * a.windowS
    if !due a.tried || !d.isLead || d.get .ENS_DOMAIN_TIME_VALUE < a.actTime || wend < d.get .ENS_DOMAIN_TIME_VALUE || !d.stagedIs a.serial a.digest then d
    else
      let d0 := { d with ens := { d.ens with windowEnd := wend, armed := some { a with tried := some d.nowMs } } }
      if d0.tin.op.isSome then d0 else d0.activateStaged e 0 a.serial

/-- ACTIVATION_TIME: ACT_TIME on ENS_DOMAIN_TIME. -/
def execActivationTime (s : State) : Out := s.act fun e d => d.tryActivation e Option.isNone

/-- ACTIVATION_RETRY: 10 ms after an attempt that a Tin operation delayed, or that was refused. -/
def execActivationRetry (s : State) : Out :=
  s.act fun e d => d.tryActivation e fun x => x.any fun t => decide (t + 10 ≤ d.nowMs)

/-- ACTIVATION_MISSED: the window has closed, or another image is staged, or none. -/
def execActivationMissed (s : State) : Out :=
  s.act fun e d =>
    match d.ens.armed with
    | none => d
    | some a =>
      if a.actTime + 1000 * a.windowS < d.get .ENS_DOMAIN_TIME_VALUE || !d.stagedIs a.serial a.digest
      then ((d.disarm.event .ENS_EVENT_ACTIVATION_MISSED).reportOf e 0x0805).sendDomain
        ([2] ++ leBytes 8 0 ++ leBytes 8 d.ens.windowEnd) else d

end Sys2Proof.Machine
end

