-- ==== Sys2Proof/Machine/Worlds.lean ====
section
/-! DEFINITION. Control cores, worlds, GATE, the page owner table, the secure watchdog, held blocks, MPU commits and policy
evaluations (spec/13). -/
namespace Sys2Proof.Machine

/-! ## Control cores -/

/-- Changes core `c`. -/
def Die.setCore (d : Die) (c : Nat) (x : Core) : Die := { d with wld := { d.wld with cores := d.wld.cores.set c x } }

/-- The core with the program counter and the registers that its firmware has left in it. -/
def Core.load (c : Core) (pc : Nat) (regs : List Nat) : Core :=
  { c with pc := pc % 2 ^ 64, g := (List.range 24).map fun k => regs.getD k 0 % 2 ^ 64 }

/-- The world that a page owner KIND stands for (R345); a FREE page has none. -/
def worldOf : Nat → Option World
  | 1 => some .secure
  | 2 => some .hypervisor
  | 3 => some .guest
  | _ => none

/-- The calls permitted between worlds (R349). -/
def callPermitted (caller callee : World) : Bool :=
  match caller, callee with
  | .secure, .hypervisor => true
  | .hypervisor, .secure => true
  | .hypervisor, .guest => true
  | .guest, .hypervisor => true
  | _, _ => false

/-- A GATE word names register g0 to g23 for a call (R348). -/
def gateReg (word : Nat) : Option Nat := if word / 2 ^ 5 == 0x7E000000 / 2 ^ 5 && word % 32 < 24 then some (word % 32) else none

/-- An entry tag that a caller of world `w` may enter at (R348). -/
def tagAdmits (tag : Nat) (w : World) : Bool :=
  tag / 2 ^ 16 == 0xE47A && !bit tag 15 && bit tag (match w with | .guest => 14 | .hypervisor => 13 | .secure => 12)

/-- The frame of a call, on the core's gate stack, and the callee's start: g0 to g5 as they are, the others zero (R350). -/
def Core.enter (c : Core) (ret : Nat) (w : World) (guest entry : Nat) : Core :=
  { world := w, guest, pc := (entry + 4) % 2 ^ 64, g := c.g.take 6 ++ List.replicate 18 0,
    stack := { world := c.world, guest := c.guest, ret := ret % 2 ^ 64, saved := c.g.drop 6 } :: c.stack }

/-- A GATE that faults in the caller's own world (R349): counted and recorded with the core, its world and the target (log 92). -/
def Die.gateFault (e : Env) (d : Die) (core target : Nat) : Die :=
  let c := d.core core
  let t := if c.world == .guest then c.guest else 0xFFFF
  ((d.add .WLD_GATE_FAULTS_COUNT 1).event .WLD_EVENT_GATE_FAULT).report e
    { Report.of 0x0902 with unit := core, kind := c.world.code, address := target, tenant := t }

/-- An interrupt or exception of world `w` enters it as a GATE call would, to return to `ret`; with a full stack the secure fault vector is
entered without a frame (R351) (log 93). -/
def Die.deliver (e : Env) (d : Die) (core : Nat) (w : World) (g ret : Nat) : Die :=
  let c := d.core core
  if c.stack.length < 8 then d.setCore core (c.enter ret w g (Config.vectorEntry w.code g))
  else
    let t := if c.world == .guest then c.guest else 0xFFFF
    let r := { Report.of 0x0902 with unit := core, kind := c.world.code, address := Config.vectorEntry w.code g, tenant := t }
    (d.report e r).setCore core
      { c with world := .secure, guest := 0, pc := Config.vectorEntry 3 0 % 2 ^ 64, g := c.g.take 6 ++ List.replicate 18 0 }

/-- A fault that the hypervisor takes: by itself, or from a guest as a call (R345, R351). -/
def Die.toHypervisor (e : Env) (d : Die) (core : Nat) : Die :=
  if (d.core core).world == .hypervisor then d else d.deliver e core .hypervisor 0 (d.core core).pc

/-- An access that the page owner refuses (R345). -/
def Die.potFault (e : Env) (d : Die) (core addr : Nat) : Die :=
  ((d.add .WLD_POT_FAULTS_COUNT 1).event .WLD_EVENT_POT_FAULT).report e { Report.of 0x0903 with unit := core, address := addr }

/-- The core exists, is not halted by a debugger and not gated. -/
def Die.coreRuns (d : Die) (core : Nat) : Bool :=
  decide (core < 4) && d.clk.booted && !d.lcs.halted.contains core && !d.wld.gated.contains core

/-- GATE_CALL (R348 to R350): core `core`, with the program counter and the registers g0 to g23 that its firmware left, runs
the GATE word `word`; `tag` is the word that stands at the target. The target's page decides the destination world; a page
that belongs to no world is read under the caller's own rights (R345) (log 91). -/
def execGateCall (core word tag pc : Nat) (regs : List Nat) (s : State) : Out :=
  s.act fun e d =>
    match gateReg word with
    | none => d
    | some k =>
      if !d.coreRuns core then d
      else
        let c := (d.core core).load pc regs
        let target := c.g.getD k 0
        let page := target / 4096
        let d1 := d.setCore core c
        match (if page < 8192 then worldOf (d.getAt .WLD_POT_KIND page) else none) with
        | none => (if c.world == .secure then d1 else d1.potFault e core target).gateFault e core target
        | some w =>
          if callPermitted c.world w && target % 4 == 0 && tagAdmits (tag % 2 ^ 32) c.world && decide (c.stack.length < 8) then
            d1.setCore core (c.enter (pc + 4) w (if w == .guest then d.getAt .WLD_POT_TENANT page else 0) target)
          else d1.gateFault e core target

/-- GATE_RETURN (R350): the word 0x7E00_001F on core `core`, whose firmware has left the results in g0 to g5. -/
def execGateReturn (core : Nat) (regs : List Nat) (s : State) : Out :=
  s.act fun e d =>
    if !d.coreRuns core then d
    else
      let c := (d.core core).load (d.core core).pc regs
      match c.stack with
      | [] => (d.setCore core c).gateFault e core 0
      | f :: rest =>
        d.setCore core { world := f.world, guest := f.guest, pc := f.ret, g := c.g.take 6 ++ f.saved, stack := rest }

/-- The world a WORLD code names (R366). -/
def worldOfCode : Nat → World
  | 0 => .secure
  | 1 => .hypervisor
  | _ => .guest

/-- WORLD_INTERRUPT (R343, R351): an interrupt or exception for world `world` (0 secure, 1 hypervisor, 2 guest `guest`) on a
core whose firmware has left this program counter and these registers. A gated core wakes (R402). With a full stack
the secure fault vector is entered without a frame (log 93). -/
def execWorldInterrupt (core world guest pc : Nat) (regs : List Nat) (s : State) : Out :=
  s.act fun e d0 =>
    let d := { d0 with wld := { d0.wld with gated := d0.wld.gated.filter (· != core) } }
    if !d.coreRuns core then d0
    else
      let w := worldOfCode world
      let g := if w == .guest then guest % 2048 else 0
      let c := (d.core core).load pc regs
      if w == c.world && g == c.guest then d else (d.setCore core c).deliver e core w g pc

/-! ## The page owner table and the accesses of the cores (R344 to R347) -/

/-- Pages of control-core memory that the CARVE section leaves (R342). -/
def Die.corePages (d : Die) : Nat := min 4096 (10240 - d.get .KFT_GEOMETRY_CACHE_UNITS * 128)

/-- Where an address of a core leads: a byte of the cores' address space, nothing, or a page whose owner refuses (R345). -/
inductive CoreReach where
  | at_ (a : Nat)
  | unmapped
  | refused
  deriving DecidableEq, Repr

/-- The owner of a page lets a world reach it (R345). -/
def Die.ownerAdmits (d : Die) (w : World) (guest page : Nat) : Bool :=
  match w, worldOf (d.getAt .WLD_POT_KIND page) with
  | .secure, _ => true
  | .hypervisor, some .hypervisor | .hypervisor, some .guest => true
  | .guest, some .guest => d.getAt .WLD_POT_TENANT page == guest
  | _, _ => false

/-- The page that a guest's page is mapped to (R347). -/
def Die.mapped (d : Die) (guest page : Nat) : Option Nat := (d.wld.stage2.find? fun x => x.1 == 2 ^ 36 * guest + page).map Prod.snd

/-- An address of the world that a core runs: through the second-stage translation for a guest, and the owner is checked whatever an entry
says. What the translation does not map, or lies beyond the table, leads nowhere (log 196). -/
def Die.coreReach (d : Die) (c : Core) (a : Nat) : CoreReach :=
  let page := a / 4096
  match if c.world == .guest then d.mapped c.guest page else some page with
  | none => .unmapped
  | some p => if 8192 ≤ p then .unmapped else if d.ownerAdmits c.world c.guest p then .at_ (p * 4096 + a % 4096) else .refused

/-- A byte of the cores' address space: control-core memory, or what a window page points at (R344) (log 185). The secure world's part is
unreadable from a zeroization on (R376). -/
def Die.coreByte (e : Env) (d : Die) (a : Nat) : Byte :=
  if d.tmp.clearing != 0 && decide (a < 0x1000000) && d.getAt .WLD_POT_KIND (a / 4096) == 1 then Config.windowByte (a / 4096) (a % 4096) d.wld.loads
  else if a < 0x1000000 then sget (fun _ => 0) d.wld.pages a
  else match (d.wld.windows.find? fun x => x.1 == a / 4096).map Prod.snd with
    | some (true, t) => BitVec.ofNat 8 (d.readWord e 0 (t % 8192 * 4096 + a % 4096 / 4 * 4) / 2 ^ (8 * (a % 4)))
    | some (false, t) => (dmaRead e d (t / 4096 * 4096 + a % 4096) 1).getD 0 0
    | none => Config.windowByte (a / 4096) (a % 4096) d.wld.loads

/-- Stores bytes at a place of the cores' address space, within a page. A store to a register page is a register write, of the secure world
where a core runs that, and as the host's otherwise (log 185). -/
def Die.coreStore (d : Die) (w : World) (a : Nat) (b : Bytes) : Die :=
  if a < 0x1000000 then
    if d.corePages ≤ a / 4096 then d
    else
      { d with wld := { d.wld with pages := (List.range b.length).foldl (fun m k => sput (fun _ => 0) m (a + k) (b.getD k 0)) d.wld.pages } }
  else match (d.wld.windows.find? fun x => x.1 == a / 4096).map Prod.snd with
    | some (true, t) => d.registerWrite (if w == .secure then .secure else .host 0) (t % 8192 * 4096 + a % 4096) b.length (leNat b)
    | some (false, t) => d.dmaWrite (t / 4096 * 4096 + a % 4096) b
    | none => d

/-- The regions that a core's user mode allows (R354, R355); an access that none of them holds faults to the hypervisor. -/
def Die.userAllows (d : Die) (core a size : Nat) (write : Bool) : Bool :=
  (firstRefused (d.mpuRegions (259 + core)) write (a + size) 17 a).isNone

/-- An access of a core within one page: of user mode its MPU is asked first, then the owner of the page; `k` performs it. -/
def Die.coreAccessAt (e : Env) (d : Die) (core a size : Nat) (write user : Bool) (k : Die → Nat → Die) : Die :=
  if !d.coreRuns core || 4096 < a % 4096 + size then d
  else if user && !d.userAllows core a size write then (d.mpuFault e (259 + core) a size write false).toHypervisor e core
  else match d.coreReach (d.core core) a with
    | .unmapped => d
    | .refused => (d.potFault e core a).toHypervisor e core
    | .at_ x => k d x

/-- A map with one key's entry replaced. -/
def putKey {α : Type} (m : List (Nat × α)) (k : Nat) (v : α) : List (Nat × α) := (m.filter fun x => x.1 != k) ++ [(k, v)]

/-- What a control core does in memory. The hypervisor builds second-stage entries, and the secure world points window pages. -/
def Die.coreAccess (e : Env) (d : Die) (x : CoreAccess) : Die :=
  match x with
  | .load core reg a size user =>
    d.coreAccessAt e core a (min size 8) false user fun d p =>
      let v := leNat ((List.range (min size 8)).map fun k => d.coreByte e (p + k))
      let c := d.core core
      let d1 := d.setCore core { c with g := c.g.set reg v }
      { d1 with wld := { d1.wld with loads := d1.wld.loads + 1 } }
  | .store core a data user => d.coreAccessAt e core a data.length true user fun d p => d.coreStore (d.core core).world p data
  | .map core guest from_ page =>
    if d.coreRuns core && (d.core core).world == .hypervisor
    then { d with wld := { d.wld with stage2 := putKey d.wld.stage2 (2 ^ 36 * (guest % 2048) + from_ % 2 ^ 36) page } } else d
  | .window core page onDie target =>
    if d.coreRuns core && (d.core core).world == .secure && decide (4096 ≤ page ∧ page < 8192)
    then { d with wld := { d.wld with windows := putKey d.wld.windows page (onDie, target) } } else d

/-- Accesses one after another. -/
def Die.coreAccesses (e : Env) (d : Die) (l : List CoreAccess) : Die := l.foldl (fun d x => d.coreAccess e x) d

/-- A page is zeroized and has a new owner. A page beyond the carved memory cannot be assigned (R344). -/
def Die.ownPage (d : Die) (page kind tenant : Nat) : Die :=
  if 8192 ≤ page || (decide (page < 4096) && decide (d.corePages ≤ page)) then d
  else
    let rest : List (Nat × Byte) := d.wld.pages.filter fun x => x.1 / 4096 != page
    let d1 := { d with wld := { d.wld with pages := rest } }
    (((d1.setAt .WLD_POT_KIND page kind).setAt .WLD_POT_TENANT page (if kind % 4 == 3 then tenant else 0)).setAt
      .WLD_POT_PENDING page 0)

/-- POT_OWNER_CHANGE (R346): PENDING, invalidation, zeroization and the new owner are one step. The accesses that were checked before it
complete first under the old owner, and those that waited for it are checked against the new one (log 94). -/
def execPotOwnerChange (page kind tenant : Nat) (before after : List CoreAccess) (s : State) : Out :=
  s.act fun e d => ((d.coreAccesses e before).ownPage page kind tenant).coreAccesses e after

/-! ## The secure watchdog (R352) -/

/-- WDOG_KICK: a secure-world write of WLD_WDOG_KICK; only 0x5A5A restarts the count, with the period as it is now. -/
def execWdogKick (value : Nat) (s : State) : Out :=
  s.act fun _ d =>
    if value % 65536 == 0x5A5A then d.set .WLD_WDOG_STATUS_REMAINING_MS (clamp 1 1000 (d.get .WLD_WDOG_CTL_PERIOD_MS)) else d

/-- WDOG_EXPIRE: the count reaches zero. Its warm reset is absorbed by a reset that runs, whose boot goes on under a fresh count (R408). -/
def execWdogExpire (s : State) : Out :=
  s.act fun e d =>
    if !d.wdogRuns || d.has .WLD_WDOG_STATUS_REMAINING_MS then d
    else
      let d1 := d.add .WLD_WDOG_STATUS_EXPIRIES 1
      ((d1.reportOf e 0x0901).startReset e 2 .RST_CAUSE_WATCHDOG false).set .WLD_WDOG_STATUS_REMAINING_MS 100

/-! ## Held blocks (R353) -/

/-- HOLD_RELEASE: the secure world clears bits of WLD_HOLD. -/
def execHoldRelease (blocks : Nat) (s : State) : Out := s.act fun _ d => d.releaseHolds blocks

/-! ## Commits of MPU regions (R357 to R359) -/

/-- Two enabled regions share a byte. -/
def Region.overlaps (a b : Region) : Bool :=
  a.enable && b.enable && decide (a.base < b.base + 2 ^ b.sizeLog2) && decide (b.base < a.base + 2 ^ a.sizeLog2)

/-- The region's base and size are as R355 has them. -/
def Region.shaped (r : Region) : Bool :=
  !r.enable || (decide (12 ≤ r.sizeLog2) && decide (r.sizeLog2 ≤ 48) && r.base % 2 ^ r.sizeLog2 == 0)

/-- The lower region of the first overlapping pair of a set. -/
def firstOverlap (rs : List Region) : Option Nat :=
  (List.range 16).find? fun a => (List.range 16).any fun b =>
    decide (a < b) && match rs[a]?, rs[b]? with | some x, some y => x.overlaps y | _, _ => false

/-- The first region of a set that is misshapen, or that may not change: regions 0 to 3 of the debug master (R359). -/
def Die.firstMisshapen (d : Die) (m : Nat) (rs : List Region) : Option Nat :=
  (List.range 16).find? fun a => match rs[a]? with
    | some x => !x.shaped || (m == 258 && decide (a < 4) && x != d.activeRegion m a)
    | none => false

/-- A refused commit: the active set stays (R357). -/
def Die.refuseCommit (e : Env) (d : Die) (m result region : Nat) : Die :=
  (((d.setAt .MPU_STATUS_LAST_RESULT m result).setAt .MPU_STATUS_FAULT_REGION m region).event
    .WLD_EVENT_MPU_COMMIT_REFUSED).report e { Report.of 0x0905 with unit := m % 256 }

/-- MPU_COMMIT: a secure-world write of 1. The whole shadow set is checked; a set that passes waits for the earlier bursts (log 95). -/
def execMpuCommit (mpu : Nat) (s : State) : Out :=
  s.act fun e d =>
    if 263 ≤ mpu || d.hasAt .MPU_STATUS_DRAINING mpu then d
    else
      let rs := (List.range 16).map (d.shadowRegion mpu)
      match firstOverlap rs, d.firstMisshapen mpu rs with
      | some a, _ => d.refuseCommit e mpu 2 a
      | none, some a => d.refuseCommit e mpu 3 a
      | none, none =>
        { d.setAt .MPU_STATUS_DRAINING mpu 1 with wld := { d.wld with commits := d.wld.commits ++ [(mpu, rs)] } }

/-- Makes a region active. -/
def Die.putRegion (d : Die) (m r : Nat) (x : Region) : Die :=
  (((((d.setAt2 .MPU_RGN_BASE_BASE m r (x.base / 4096)).setAt2 .MPU_RGN_ATTR_SIZE_LOG2 m r x.sizeLog2).setAt2
    .MPU_RGN_ATTR_ENABLE m r (ofBool x.enable)).setAt2 .MPU_RGN_ATTR_R m r (ofBool x.r)).setAt2
    .MPU_RGN_ATTR_W m r (ofBool x.w)).setAt2 .MPU_RGN_ATTR_X m r (ofBool x.x)

/-- MPU_COMMIT_EFFECT: the earlier bursts have left; the new set is active (R358). -/
def execMpuCommitEffect (mpu : Nat) (s : State) : Out :=
  s.act fun _ d =>
    match d.wld.commits.find? fun x => x.1 == mpu with
    | none => d
    | some (_, rs) =>
      let d1 : Die := (List.range 16).foldl (fun d r => match rs[r]? with | some x => d.putRegion mpu r x | none => d) d
      let left : List (Nat × List Region) := d.wld.commits.filter fun x => x.1 != mpu
      let d2 := (((d1.setAt .MPU_STATUS_DRAINING mpu 0).setAt .MPU_STATUS_LAST_RESULT mpu 1).wrapAt2
        .MPU_STATUS_COMMIT_GEN mpu 0 1)
      { d2 with wld := { d2.wld with commits := left } }

/-! ## Policy programs (R364) -/

/-- The usage bit that the dispatch of a waiting compute request needs of its key. -/
def Die.waitingUse (d : Die) (r : Req) : Option Nat :=
  match d.con.jobs.find? fun j => j.rid == r.rid && j.place == .waiting with
  | some j => if r.opcode == 0x30 then (if (parsePrim j.input).usesKey then some useDerive else none) else (conKeyNeed r).map fun x => x.2
  | none => if d.ntt.jobs.any fun j => j.rid == r.rid && j.place == .waiting then (nttKeyNeed r).map fun x => x.2 else none

/-- POLICY_EVAL: the dispatch of a request that waits for a core reaches the policy check of its key ahead of the core: the
program runs, and its answer refuses the request or stands for the use that the dispatch will count. Where a request
is dispatched in one step, that step runs the program itself (R239) (log 96). -/
def execPolicyEval (rid : Nat) (s : State) : Out :=
  s.act fun e d =>
    match d.req? rid with
    | none => d
    | some r =>
      match d.waitingUse r with
      | none => d
      | some usage =>
        if r.stage != .waiting || r.allowed then d
        else match d.readKey r.tenant r.keyHandle with
          | .bad _ _ => d
          | .ok o =>
            if !bit o.aflags 2 then d
            else match d.runPolicy e r.opcode r.tenant o (2 ^ usage) r.inLen 0 r.pair with
              | (d1, none) => d1.updReq rid fun x => { x with allowed := true }
              | (d1, some x) => ((d1.dropCon rid).dropNtt rid).fail e r .policyDeny x

end Sys2Proof.Machine
end

