-- ==== Sys2Proof/Machine/LifeCycle.lean ====
section
/-! DEFINITION. The life cycle and debug authorisation (spec/16): codewords, transition requests, LCS_SUBMIT, the test access
port and the debug master. -/
namespace Sys2Proof.Machine

/-! ## Codewords (R416, R417) -/

/-- The number of toggles of a codeword, where its TOGGLE field is contiguous from its lowest bit. -/
def togglesOf (v : Nat) : Option Nat := (List.range 17).find? fun n => bits v 23 8 == 2 ^ n - 1

/-- The state of a voted value, and whether the value was invalid. -/
def lcsOf (v : Nat) : Nat × Bool :=
  let scrap := bits v 63 56
  let upper := (bits v 55 48, bits v 47 40, bits v 39 32)
  if scrap != 0 then (6, false)
  else if v == 0 then (0, false)
  else match togglesOf v with
    | none => (6, true)
    | some n =>
      if bits v 7 0 != 0x5A || bits v 31 24 != 0 then (6, true)
      else if upper = (0, 0, 0) then (if n % 2 = 0 then 1 else 2, false)
      else if n % 2 = 1 then (6, true)
      else if upper = (0, 0, 0x96) then (3, false)
      else if upper = (0, 0x69, 0x96) then (4, false)
      else if upper = (0xC3, 0x69, 0x96) then (5, false)
      else (6, true)

/-- The state that a TARGET code names (R421). -/
def targetState : Nat → Option Nat
  | 0x1E => some 1 | 0x2D => some 2 | 0x4B => some 3 | 0x78 => some 4 | 0x87 => some 5 | 0xB4 => some 6 | _ => none

/-- Tokens still to use (R418). -/
def tokensLeft (state toggles : Nat) : Nat := if state = 1 ∨ state = 2 then 8 - (toggles + 1) / 2 else 0

/-! ## Transition requests (R418 to R420) -/

def lcsMagic : Nat := 0x4C435251
def reqTarget (b : Bytes) : Nat := leAt b 5 1
def reqSigner (b : Bytes) : Nat := leAt b 6 1
def reqPayload (b : Bytes) : Bytes := slice b 72 (leAt b 68 4)

/-- The payload length that a request's target and signer call for. -/
def reqPayloadLen (b : Bytes) : Nat :=
  if reqTarget b = 0x2D then 32 else if reqTarget b = 0x1E ∧ reqSigner b = 1 then 384 else 0

/-- Layout, MAGIC, FORMAT and lengths. -/
def reqLayoutOk (b : Bytes) : Bool :=
  leAt b 0 4 == lcsMagic && leAt b 4 1 == 1 && decide (reqSigner b ≤ 2) && leAt b 7 1 == 0 && leAt b 68 4 == reqPayloadLen b &&
    b.length == 72 + reqPayloadLen b + (if reqSigner b = 0 then 0 else 4723)

/-- The key pair of a signer: Vailador's life-cycle keys, or the registered owner's. -/
def Die.signerPair (d : Die) (signer : Nat) : Option (Bytes × Bytes) :=
  if signer = 1 then some (romPair 2)
  else if d.key.ownerEc.isEmpty then none else some (d.key.ownerEc, d.key.ownerMldsa)

/-- Two signatures at the end of a message verify under a signer's keys. -/
def Die.signedBy (d : Die) (signer : Nat) (ctx : String) (b : Bytes) : Bool :=
  match d.signerPair signer with
  | some k => pairVerifies k.1 k.2 ctx (sha384 (b.take (b.length - 4723))) (b.drop (b.length - 4723))
  | none => false

/-- The transitions and who must sign them (R418). -/
def transitionSigned (from_ to_ signer : Nat) : Bool :=
  match from_, to_ with
  | 0, 1 => signer == 1
  | 1, 2 => signer == 1
  | 2, 1 => signer == 0
  | 1, 3 => signer == 1
  | 3, 4 => signer == 2
  | 4, 5 => signer == 1
  | 6, 6 => false
  | f, 6 => signer == 1 || (signer == 2 && decide (3 ≤ f))
  | _, _ => false

/-- The IDENTITY that a request for this die names. -/
def Die.reqIdentity (d : Die) : Bytes := if isTestState (d.get .LCS_STATE_STATE) then zeros 48 else d.dieIdentity

/-- The checks of R420 on a transition request. `ceremony`: it is the body of a RETURN ceremony; `image`: a Tin image is committed;
`fresh`: it is new, not the pending one checked again at a boot (log 128). -/
def Die.requestFault (o : Otp) (d : Die) (b : Bytes) (ceremony image fresh : Bool) : Option (Status × Nat) :=
  let st := d.get .LCS_STATE_STATE
  let to_ := (targetState (reqTarget b)).getD 7
  let toggles := (togglesOf o.voted).getD 0
  let k := toggles / 2
  let next := o.journal.length
  if !reqLayoutOk b then some (.badDescriptor, 2)
  else if reqSigner b != 0 && !d.signedBy (reqSigner b) "TY8K40 life cycle" b then some (.paramRejected, 0x40)
  else if leAt b 8 8 != o.serial || slice b 16 48 != d.reqIdentity || leAt b 64 4 != next then some (.paramRejected, 0x41)
  else if !transitionSigned st to_ (reqSigner b) then some (.paramRejected, 0x42)
  else if (to_ == 2 && decide (7 < k)) || (to_ == 5 && !ceremony) ||
      (to_ == 4 && !(!d.key.ownerEc.isEmpty && !d.key.custodians.isEmpty && image)) then some (.paramRejected, 0x43)
  else if to_ == 2 && sha384 (reqPayload b) != o.tokens.getD k [] then some (.paramRejected, 0x44)
  else if fresh && !d.lcs.pending.isEmpty && to_ != 6 then some (.limitReached, 0x0A)
  else if (if to_ = 6 then 24 else 23) ≤ next then some (.limitReached, 0x0B)
  else none

/-- The pending request in NVM, as the registers show it. -/
def Die.setPending (d : Die) (b : Bytes) : Die :=
  ({ d with lcs := { d.lcs with pending := b } }.set .LCS_STATUS_PENDING (ofBool !b.isEmpty)).set .LCS_STATUS_PENDING_TARGET
    (if b.isEmpty then 0 else reqTarget b)

/-- KIND 0x01: a request that passes becomes pending (R420). -/
def Die.submitTransition (e : Env) (d : Die) (b : Bytes) (ceremony : Bool) : Die × Status × Nat :=
  match d.requestFault e.otp b ceremony (d.get .TIN_STATUS_SOURCE == 1) true with
  | some x => (d, x)
  | none =>
    (((d.setPending b).event .LCS_EVENT_ACCEPTED).reportOf e 0x0C02, .ok, 0)

/-- KIND 0x02. -/
def Die.submitWithdraw (d : Die) : Die × Status × Nat :=
  if d.lcs.pending.isEmpty then (d, .noSession, 9) else (d.setPending [], .ok, 0)

/-! ## Debug authorisation (R426 to R428) -/

def dbgMagic : Nat := 0x44424741

/-- A challenge, none for no bytes. -/
def Die.setChallenge (d : Die) (b : Bytes) : Die :=
  { d with lcs := { d.lcs with challenge := b, challengeMs := d.nowMs } }.set .DBG_STATUS_CHALLENGE_VALID (ofBool !b.isEmpty)

/-- NEW_CHALLENGE: ignored while the generator is not READY. -/
def Die.newChallenge (d : Die) : Die :=
  if d.get .RNG_STATUS_STATE != 1 || d.rng.drbgBytes < 32 then d
  else
    { d with rng := { d.rng with draws := d.rng.draws + 32, drbgBytes := d.rng.drbgBytes - 32 } }.setChallenge (randomBytes d.rng.draws 32)

/-- The layout of an authorisation. -/
def authLayoutOk (b : Bytes) : Bool :=
  leAt b 0 4 == dbgMagic && leAt b 4 1 == 1 && leAt b 5 1 == 1 && (leAt b 6 1 == 1 || leAt b 6 1 == 2) && leAt b 7 1 == 0 &&
    decide (1 ≤ leAt b 48 4 ∧ leAt b 48 4 ≤ 3600) && leAt b 52 4 == 0 && b.length == 56 + 4723

/-- Who may authorise in a state. -/
def Die.maySign (d : Die) (signer : Nat) : Bool :=
  match d.get .LCS_STATE_STATE with
  | 3 => signer == 1 || !d.key.ownerEc.isEmpty
  | 4 => signer == 2
  | 5 => signer == 1
  | _ => false

/-- KIND 0x03. The challenge is consumed by the first authorisation that names it (log 126). -/
def Die.submitDebugAuth (e : Env) (d : Die) (b : Bytes) : Die × Status × Nat :=
  if !authLayoutOk b then (d, .badDescriptor, 2)
  else if !d.maySign (leAt b 6 1) then
    (if !d.lcs.challenge.isEmpty && slice b 16 32 == d.lcs.challenge then d.setChallenge [] else d, .paramRejected, 0x42)
  else if d.lcs.challenge.isEmpty then (d, .noSession, 9)
  else if slice b 16 32 != d.lcs.challenge then (d, .paramRejected, 0x41)
  else
    let d1 := d.setChallenge []
    if leAt b 8 8 != e.otp.serial then (d1, .paramRejected, 0x41)
    else if !d1.signedBy (leAt b 6 1) "TY8K40 debug" b then (d1, .paramRejected, 0x40)
    else
      let d2 := { d1 with lcs := { d1.lcs with auth := true } }
      let d3 := (((d2.set .DBG_STATUS_LEVEL 1).set .DBG_STATUS_SIGNER (leAt b 6 1 - 1)).set .DBG_STATUS_REMAINING_S (leAt b 48 4))
      ((d3.event .LCS_EVENT_DEBUG_AUTH).reportOf e 0x0C04, .ok, 0)

/-! ## LCS_SUBMIT (R420) -/

/-- The frame of LCS_SUBMIT for one KIND: on the physical function of any die; R14 has BAD_DESCRIPTOR for a virtual one. -/
def Die.lcsSubmit (e : Env) (d : Die) (rid kind : Nat) (input : Bool) (k : Bytes → Die × Status × Nat) : Die :=
  d.handle e rid 0xFF fun r =>
    if r.fn? != some 0 then d.fail e r .badDescriptor 1
    else if r.byte 56 < 1 || 3 < r.byte 56 then d.fail e r .badDescriptor 1
    else if r.byte 56 != kind then d
    else if r.handle != 0 || !r.zeroBytes 57 64 then d.fail e r .badDescriptor 1
    else if (!input && r.inLen != 0) || 8192 < r.inLen then d.fail e r .badDescriptor 2
    else d.rangesOk e r
      (match k (dmaRead e d r.inAddr r.inLen) with
       | (d1, .ok, _) => d1.complete e r (Reply.done 0)
       | (d1, st, x) => d1.fail e r st x)

def execLcsSubmitTransition (rid : Nat) (s : State) : Out :=
  s.act fun e d => d.lcsSubmit e rid 1 true fun b => d.submitTransition e b false

def execLcsSubmitWithdraw (rid : Nat) (s : State) : Out := s.act fun e d => d.lcsSubmit e rid 2 false fun _ => d.submitWithdraw

def execLcsSubmitDebugAuth (rid : Nat) (s : State) : Out :=
  s.act fun e d => d.lcsSubmit e rid 3 true fun b => d.submitDebugAuth e b

/-! ## DBG_CTL and the ends of a challenge and an authorisation -/

/-- DBG_NEW_CHALLENGE: a write of DBG_CTL.NEW_CHALLENGE from the host. -/
def execDbgNewChallenge (s : State) : Out := s.act fun _ d => (d.access 0).newChallenge

/-- DBG_REVOKE: a write of DBG_CTL.REVOKE from the host. -/
def execDbgRevoke (s : State) : Out := s.act fun e d => (d.access 0).endDebug e

/-- CHALLENGE_EXPIRE: 300 s after the challenge was drawn (R426). -/
def execChallengeExpire (s : State) : Out :=
  s.act fun _ d => if d.lcs.challenge.isEmpty || d.nowMs < d.lcs.challengeMs + 300000 then d else d.setChallenge []

/-- DEBUG_AUTH_EXPIRE: the lifetime has run out on CLK_SLOW. -/
def execDebugAuthExpire (s : State) : Out := s.act fun e d => if d.has .DBG_STATUS_REMAINING_S then d else d.endDebug e

/-! ## The debug master (R359, R424; its address space: log 50) -/

/-- Where the debug master reaches what: control-core memory at its own addresses, BAR0, the recorder's NVM ring, and the operand and
lattice memories. -/
def dbgBar : Nat := 0x10000000
def dbgRing : Nat := 0x20000000
def dbgCon : Nat := 0x31000000
def dbgNtt : Nat := 0x31800000

/-- The operand memory of the Constantan cores lies at `a`; the lattice memory does (R164, R196). -/
def inConMem (a : Nat) : Bool := decide (dbgCon ≤ a ∧ a < dbgCon + 24 * 65536)
def inNttMem (a : Nat) : Bool := decide (dbgNtt ≤ a ∧ a < dbgNtt + 4 * 262144)

/-- A byte of operand memory or of lattice memory: zeroized in a context that nothing has written since, a free value in one that a job
uses. -/
def Die.conByte (d : Die) (x : Nat) : Byte :=
  if d.con.jobs.any fun j => j.ctx == some (x / 65536, x % 65536 / 16384) then Config.contextByte (dbgCon + x) d.lcs.reads
  else sget (fun _ => 0) d.con.mem x
def Die.nttByte (d : Die) (x : Nat) : Byte :=
  if d.ntt.jobs.any fun j => j.ctx == some (x / 262144, x % 262144 / 131072) then Config.contextByte (dbgNtt + x) d.lcs.reads
  else sget (fun _ => 0) d.ntt.mem x

/-- A byte of the NVM ring. -/
def Die.ringByte (d : Die) (a : Nat) : Byte := BitVec.ofNat 8 (leAt (tget d.evr.ring (a / 256)) (a % 256) 1)

/-- A byte as the debug master reads it at a level; none where the level does not let it. -/
def Die.dbgRead (e : Env) (d : Die) (level a : Nat) : Option Byte :=
  if a < 0x1000000 then
    let kind := d.getAt .WLD_POT_KIND (a / 4096)
    if level = 2 ∨ 2 ≤ kind then some (sget (fun _ => 0) d.wld.pages a) else none
  else if dbgBar ≤ a ∧ a < dbgBar + 0x2000000 then
    some (BitVec.ofNat 8 (d.readWord e 0 ((a - dbgBar) / 4 * 4) / 2 ^ (8 * (a % 4))))
  else if dbgRing ≤ a ∧ a < dbgRing + 0x40000 then some (d.ringByte (a - dbgRing))
  else if level != 2 then none
  else if inConMem a then some (d.conByte (a - dbgCon))
  else if inNttMem a then some (d.nttByte (a - dbgNtt))
  else some 0

/-- A byte may be written by the debug master at a level. -/
def Die.dbgMayWrite (d : Die) (level a : Nat) : Bool :=
  level == 2 || (decide (a < 0x1000000) && decide (2 ≤ d.getAt .WLD_POT_KIND (a / 4096)))

/-- Writes one byte of control-core memory, operand memory or lattice memory; in a context that a job uses the job's numbers
overwrite it. -/
def Die.dbgPoke (d : Die) (a : Nat) (b : Byte) : Die :=
  if a < 0x1000000 then { d with wld := { d.wld with pages := sput (fun _ => 0) d.wld.pages a b } }
  else if inConMem a then { d with con := { d.con with mem := sput (fun _ => 0) d.con.mem (a - dbgCon) b } }
  else if inNttMem a then { d with ntt := { d.ntt with mem := sput (fun _ => 0) d.ntt.mem (a - dbgNtt) b } }
  else d

/-- An access meets a locked region. -/
def Die.lockedAt (d : Die) (a len : Nat) : Bool :=
  (d.mpuRegions 258).any fun w => decide (a < w.base + 2 ^ w.sizeLog2) && decide (w.base < a + max 1 len)

/-- A refused access of the debug master: an error response, with zeros read and nothing written. -/
def Die.dbgRefuse (d : Die) (len : Nat) (write : Bool) : Die :=
  (d.add .DBG_VIOLATION_COUNT_COUNT 1).emit (.tap (if write then [] else zeros len))

/-- An access of the debug master at the level that holds. -/
def Die.debugAccess (e : Env) (d : Die) (a len : Nat) (write : Bool) (data : Bytes) : Die :=
  let level := d.get .DBG_STATUS_LEVEL
  let n := min len 4096
  if level = 0 then d.dbgRefuse n write
  else if level = 1 && d.lockedAt a n then
    let d1 := (d.dbgRefuse n write).mpuFault e 258 a n write true
    (d1.event .WLD_EVENT_DBG_VIOLATION).report e { Report.of 0x0908 with address := a, kind := ofBool write }
  else if write then
    if (List.range n).all fun k => d.dbgMayWrite level (a + k) then
      let d1 : Die := (List.range n).foldl (fun d k => d.dbgPoke (a + k) (data.getD k 0)) d
      if level = 2 ∧ dbgBar ≤ a ∧ a < dbgBar + 0x2000000 then d1.registerWrite .secure (a - dbgBar) n (leNat (slice data 0 n)) else d1
    else d.dbgRefuse n true
  else
    let bs := (List.range n).map fun k => d.dbgRead e level (a + k)
    let d1 := { d with lcs := { d.lcs with reads := d.lcs.reads + 1 } }
    if bs.all Option.isSome then d1.emit (.tap (bs.map fun b => b.getD 0)) else d1.dbgRefuse n false

def execDebugMasterAccess (addr len : Nat) (write : Bool) (data : Bytes) (s : State) : Out :=
  s.act fun e d => d.debugAccess e addr len write data

/-! ## The test access port (R424, R425, R429) -/

/-- DBG_MAILBOX: one LCS_SUBMIT input with its KIND first; the answer is the status code and the REASON. -/
def Die.mailbox (e : Env) (d : Die) (input : Bytes) : Die :=
  let b := input.drop 1
  let x : Die × Status × Nat :=
    if 8192 < input.length then (d, .badDescriptor, 2)
    else if d.scrapped then (d, .policyDeny, 0x0F)
    else match leAt input 0 1 with
      | 1 => d.submitTransition e b false
      | 2 => if b.isEmpty then d.submitWithdraw else (d, .badDescriptor, 2)
      | 3 => d.submitDebugAuth e b
      | _ => (d, .badDescriptor, 1)
  ({ x.1 with lcs := { x.1.lcs with mailbox := some (x.2.1.code, x.2.2) } }).emit (.tap (leBytes 1 x.2.1.code ++ leBytes 4 x.2.2))

/-- A core that the debugger may halt: one that works in the normal world. -/
def Die.normalCore (d : Die) (c : Nat) : Bool := decide (c < 4) && (d.core c).world != .secure

/-- TAP_INSTRUCTION: a shift of an instruction that the level does not permit returns zeros and changes nothing. -/
def execTapInstruction (ins : TapIns) (s : State) : Out :=
  s.act fun e d =>
    let level := d.get .DBG_STATUS_LEVEL
    let deny := d.emit (.tap (zeros 4))
    match ins with
    | .idcode => d.emit (.tap (leBytes 4 Config.idcode))
    | .lcsState => d.emit (.tap (leBytes 4 (d.readWord e 0 0x900000)))
    | .lcsSerial => d.emit (.tap (leBytes 8 (d.get .LCS_SERIAL_SERIAL)))
    | .dbgChallenge => d.emit (.tap (slice (d.lcs.challenge ++ zeros 32) 0 32))
    | .dbgNewChallenge => d.newChallenge
    | .dbgRevoke => d.endDebug e
    | .mailbox input => d.mailbox e input
    | .debugMaster a n w data => if level = 0 then (d.emit (.tap (zeros (min n 4096)))) else d.debugAccess e a n w data
    | .haltCore c =>
      if level = 0 || !d.normalCore c || d.lcs.halted.contains c then deny else { d with lcs := { d.lcs with halted := d.lcs.halted ++ [c] } }
    | .resumeCore c => if level = 0 then deny else { d with lcs := { d.lcs with halted := d.lcs.halted.filter (· != c) } }
    | .stepCore c => if level = 0 || !d.lcs.halted.contains c then deny else d
    | .scan data =>
      if level = 2 then d.emit (.tap ((List.range data.length).map fun i => Config.scanByte data i)) else d.emit (.tap (zeros data.length))

end Sys2Proof.Machine
end

