-- ==== Sys2Proof/Machine/Ceremony.lean ====
section
/-! DEFINITION. Custody and ceremonies (spec/08 R247 to R253, spec/01 R26). -/
namespace Sys2Proof.Machine

/-! ## Requests (R249) -/

def cerKind (b : Bytes) : Nat := leAt b 0 1

/-- The entries of a CUSTODIAN_SET body; none where one is not whole. -/
def custodianEntries : Nat → Bytes → Option (List Custodian)
  | 0, b => if b.isEmpty then some [] else none
  | n + 1, b =>
    let len := leAt b 2 2
    if b.length < 4 + len then none
    else (custodianEntries n (b.drop (4 + len))).map fun r => { index := leAt b 0 1, alg := leAt b 1 1, key := slice b 4 len } :: r

/-- Entries that R247 allows: indices 0 to 7 without repeats, and a key of its algorithm's length. -/
def custodiansOk : List Custodian → Bool
  | [] => true
  | c :: r => decide (c.index < 8) && ((c.alg == 1 && c.key.length == 97) || (c.alg == 2 && c.key.length == 1952)) &&
      !(r.any fun x => x.index == c.index) && custodiansOk r

/-- The set that a body holds: m and the entries. -/
def custodianSet (body : Bytes) : Option (Nat × List Custodian) :=
  let m := leAt body 0 1
  let n := leAt body 1 1
  if 2 ≤ n ∧ n ≤ 8 ∧ 2 ≤ m ∧ m ≤ n then
    (custodianEntries n (body.drop 2)).bind fun cs => if custodiansOk cs then some (m, cs) else none
  else none

/-- Registers set in a mask. -/
def maskCount (mask : Nat) : Nat := ((List.range 8).filter fun i => bit mask i).length

/-- The body of a ceremony request is what its KIND has. -/
def cerBodyOk (kind : Nat) (body : Bytes) : Bool :=
  match kind with
  | 1 | 2 => body.isEmpty
  | 3 => decide (1705 ≤ body.length) && body.length == 1705 + leAt body 1701 4 && leAt body 14 2 == 0
  | 4 => (custodianSet body).isSome
  | 5 => body.length == 2689
  | 6 => decide (1 ≤ body.length) && body.length == 1 + 48 * maskCount (leAt body 0 1)
  | 7 => reqLayoutOk body
  | _ => false

/-- Header and body of a request. -/
def cerRequestOk (b : Bytes) : Bool :=
  decide (8 ≤ b.length) && leAt b 1 1 == 1 && leAt b 2 2 == 0 && leAt b 4 4 + 8 == b.length && cerBodyOk (cerKind b) (b.drop 8)

/-- Ceremonies that a life-cycle state has the roots for (R415): the owner key and the custodian set in Provisioning, all in
Mission (log 123). -/
def cerAllowed (state kind : Nat) : Bool := state == 4 || (state == 3 && (kind == 4 || kind == 5))

/-- No custodian set is registered in Provisioning: the first OWNER_KEY needs no approval, the first CUSTODIAN_SET the owner's (R247). -/
def Die.firstSet (d : Die) : Bool := d.get .LCS_STATE_STATE == 3 && d.key.custodians.isEmpty

/-- The first OWNER_KEY of Provisioning: no owner key stands either. A later one without custodians has nobody to approve it. -/
def Die.firstOwner (d : Die) : Bool := d.firstSet && d.key.ownerEc.isEmpty

/-- Approvals that a ceremony needs. Without a custodian set no count is enough but that of R247's two cases. -/
def Die.cerNeeds (d : Die) (kind : Nat) : Nat :=
  if d.firstOwner && kind == 5 then 0 else if d.firstSet && kind == 4 then 1 else d.key.threshold

/-- Approvals counted. -/
def approvals (mask : Nat) : Nat := ((List.range 9).filter fun i => bit mask i).length

/-- DETAIL of CER_BEGIN and CER_APPROVE (R246). -/
def cerDetail (count m kind : Nat) : Nat := count + 256 * m + 65536 * kind

/-! ## Performing (R248) -/

/-- What a ceremony came to: the die; a status and its REASON; shares to deal, with coefficients from draw `a`; a message by which another
die is asked to act; or an object to install, its material and its address. -/
inductive CerResult where
  | done (d : Die)
  | refused (d : Die) (st : Status) (reason : Nat)
  | deals (d : Die) (a : Nat) (x : Dealing)
  | asks (d : Die) (pos : Nat) (body : Bytes) (x : Dealing)
  | object (d : Die) (o : KeyObj) (material : Bytes) (addr : Nat)

/-- The dealing of a ceremony's root. -/
def dealingOf (rid gen : Nat) (root : Bytes) (join : Option (Nat × Nat)) (rep : Reply) : Dealing :=
  { rid, gen, root, join, wait := [], rep, cer := true }

/-- DOMAIN_CREATE: the root is the first 32 of the full-entropy bytes, the coefficients the rest. -/
def Die.domainCreate (d : Die) (rid : Nat) (rep : Reply) (fe : Nat) : CerResult :=
  if d.has .ENS_DOMAIN_STATUS_ROOT then .refused d .policyDeny 0
  else .deals d (fe + 32) (dealingOf rid 1 (randomBytes fe 32) (some (0, 1)) rep)

/-- DOMAIN_SPLIT, with the shares that the other dies sent. While the root is combined, a pending admission gets its ROOT
envelope (R335). -/
def Die.domainSplit (d : Die) (rid : Nat) (rep : Reply) (parts : List DiePart) (a fe : Nat) : CerResult :=
  if !d.has .ENS_DOMAIN_STATUS_ROOT then .refused d .policyDeny 0x0F
  else
    let shares := d.allShares parts
    let d0 := d.set .KEY_ROOT_STATUS_SHARES_FOUND (sharesFound shares)
    match combineShares (thresholdOf d.size) shares with
    | none => .refused ((d0.set .KEY_ROOT_STATUS_COMBINE_FAIL 1).sendFound) .keyExpired 0
    | some dr =>
      let gen := shares.foldl (fun g s => max g s.gen) 0 + 1
      let d1 := match d0.ens.admission with
        | some ad => { d0 with ens := { d0.ens with admission := some { ad with root := some (d0.sealRoot ad dr a), rootMs := d0.nowMs } } }
        | none => d0
      .deals d1 fe (dealingOf rid gen dr none rep)

/-- KEY_IMPORT. -/
def Die.keyImport (d : Die) (req : Bytes) : CerResult :=
  let body := req.drop 8
  let tenant := leAt body 0 2 % 2048
  let handle := leAt body 2 2
  let kek := importKek (p384Ecdh d.importScalar (slice body 24 97)) (mlkemDec 3 d.importSeed (slice body 121 1568)) (slice body 0 4)
  let type := leAt body 4 1
  let len := leAt body 12 2
  let param := if [0x10, 0x11, 0x20, 0x21, 0x22].contains type then Config.importParam req % 256 else 0
  if d.key.esk.isNone then .refused d .keyExpired 0
  else if bits (leAt body 5 1) 7 3 != 0 || leAt body 8 4 == 0 || !typeDefined type then .refused d .badDescriptor 5
  else match gcmOpen kek (slice body 1689 12) (req.take 24) (body.drop 1705) with
    | none => .refused d .paramRejected 0x15
    | some m =>
      if m.length != travelLen type param len || !typeLenOk type len (d.curve? tenant param) then .refused d .paramRejected 0x15
      else
          let o := { tombstone tenant handle type with
            usage := leAt body 6 1, aflags := leAt body 5 1, origin := 4, policyId := leAt body 7 1, param, len, uses := leAt body 8 4,
            hostUses := leAt body 8 4, vgen := if bit (leAt body 5 1) 0 then d.vgen tenant else 0 }
          .object d o m (leAt body 16 8)

/-- A custodian set, on one die. -/
def Die.takeCustodians (d : Die) (m : Nat) (cs : List Custodian) : Die :=
  let mask (p : Custodian → Bool) : Nat := cs.foldl (fun a c => if p c then a + 2 ^ c.index else a) 0
  ({ d with key := { d.key with custodians := cs, threshold := m } }.set .KEY_CUSTODIANS_REGISTERED (mask fun _ => true)).set
    .KEY_CUSTODIANS_ALG_MLDSA (mask fun c => c.alg == 2)

/-- CUSTODIAN_SET. -/
def Die.custodianSetTo (d : Die) (body : Bytes) : CerResult :=
  match custodianSet body with
  | none => .refused d .badDescriptor 5
  | some (m, cs) => .done ((d.takeCustodians m cs).sendCer ([4] ++ body))

/-- An owner key pair, on one die. -/
def Die.takeOwner (d : Die) (body : Bytes) : Die :=
  { d with key := { d.key with ownerEc := body.take 97, ownerMldsa := body.drop 97 } }.set .KEY_CUSTODIANS_OWNER_SET 1

/-- OWNER_KEY. -/
def Die.ownerKeyTo (d : Die) (body : Bytes) : CerResult := .done ((d.takeOwner body).sendCer ([5] ++ body))

/-- MEAS_MIGRATE: a pending bank on every die, under the requested mask and the expected values (R253). -/
def Die.measMigrate (d : Die) (body : Bytes) : CerResult :=
  if d.key.nk.isNone then .refused d .policyDeny 0x0F
  else .done ((d.setMigration (leAt body 0 1) (body.drop 1)).sendCer ([6] ++ body))

/-- RETURN: the enclosed request goes to the die that IDENTITY names, whose answer is the ceremony's (R420). -/
def Die.returnDie (e : Env) (d : Die) (rid : Nat) (rep : Reply) (body : Bytes) : CerResult :=
  if slice body 16 48 == d.dieIdentity then
    match d.submitTransition e body true with
    | (d1, .ok, _) => .done d1
    | (d1, st, x) => .refused d1 st x
  else match d.ens.founded.findIdx? fun i => i == slice body 16 48 with
    | some p => if d.otherDies.contains p then .asks d p ([11] ++ body) (dealingOf rid 0 [] none rep) else .refused d .busy 0
    | none => .refused d .paramRejected 0x41

/-- The effect of a ceremony (R248). `a` and `fe` are the draws it uses. -/
def Die.performCeremony (e : Env) (d : Die) (rid : Nat) (c : Ceremony) (rep : Reply) (parts : List DiePart) (a fe : Nat) : CerResult :=
  match c.kind with
  | 1 => d.domainCreate rid rep fe
  | 2 => d.domainSplit rid rep parts a fe
  | 3 => d.keyImport c.request
  | 4 => d.custodianSetTo (c.request.drop 8)
  | 5 => d.ownerKeyTo (c.request.drop 8)
  | 6 => d.measMigrate (c.request.drop 8)
  | _ => d.returnDie e rid rep (c.request.drop 8)

/-- Space for an extension that an import writes, which is checked before the ceremony counts as performed. -/
def Die.extRefused (e : Env) (d : Die) (o : KeyObj) (m : Bytes) (addr : Nat) : Option (Die × Status × Nat) :=
  if !isExtType o.type then none
  else if addr % 64 != 0 then some (d, .badDescriptor, 2)
  else if !d.dmaOk o.tenant addr m.length true || !d.dmaOk o.tenant addr m.length false then
    some ((d.dmaFault e o.tenant addr m.length true).dmaFault e o.tenant addr m.length false, .accessFault, 0)
  else none

/-- The last approval: the request completes with the ceremony's own status, and the ceremony closes whatever that is (R252). A dealing, or
an act of another die, ends both when it ends (`Die.endDealing`). -/
def CerResult.finish (e : Env) (r : Req) (c : Ceremony) (rep : Reply) (x : CerResult) : Die :=
  match x with
  | .done d1 => (d1.closeCeremony.cerDone e c).complete e r rep
  | .refused d1 st reason => d1.closeCeremony.fail e r st reason
  | .deals d1 a deal => d1.dealShares e a deal
  | .asks d1 pos body deal => d1.askDie deal pos body
  | .object d1 o m addr =>
    if d1.servesSlice (o.tenant / 256) then
      match d1.loadKey e o.tenant o.handle with
      | (d2, some f) => d2.closeCeremony.fail e r f.status 0
      | (d2, none) =>
        match d2.destCheck o.tenant o.handle with
        | some (st, x) => d2.closeCeremony.fail e r st x
        | none =>
          match d2.extRefused e o m addr with
          | some (d3, st, x) => d3.closeCeremony.fail e r st x
          | none => (d2.closeCeremony.cerDone e c).installObj e r o m addr rep
    else
      d1.askDie (dealingOf r.rid 0 [] none rep) (d1.serverOf (o.tenant / 256))
        (installBody (if isExtType o.type then o else { o with material := slice (landed o.type o.param o.len m) 0 96 }) addr m)

/-- Random bytes that a ceremony uses: from the DRBG and at full entropy. -/
def Die.cerDraws (d : Die) (kind : Nat) : Nat × Nat :=
  match kind with
  | 1 => (0, 32 * thresholdOf d.size)
  | 2 => (108, 32 * (thresholdOf d.size - 1))
  | _ => (0, 0)

/-- Goes on with the random bytes of a ceremony; an import needs 44 in the queue, which the installing of an extension draws. A generator
that refuses them closes the ceremony, which ends with the status of its last token (R252). -/
def Die.withCerDraws (e : Env) (d : Die) (r : Req) (kind : Nat) (k : Die → Nat → Nat → Die) : Die :=
  let n := d.cerDraws kind
  if kind == 3 then
    match d.drawFor r.rid 44 with
    | .drawn _ _ => k d 0 0
    | .refused => d.closeCeremony.fail e r .rngFault 0
    | .held d1 => d1
  else
  let full (d : Die) (a : Nat) : Die := if n.2 = 0 then k d a 0 else d.withEntropy e r n.2 fun d1 fe => k d1 a fe
  if d.get .RNG_STATUS_STATE == 3 && n.2 != 0 then d.closeCeremony.fail e r .rngFault 0
  else if n.1 = 0 then full d 0
  else if d.rng.feBytes < n.2 then d.holdDraw r.rid n.2 true else d.withDraw e r n.1 full

/-! ## Commands -/

/-- The frame of the ceremony requests, which the lead die's physical function takes (R241). -/
def Die.cerRequest (e : Env) (d : Die) (rid op : Nat) (inOk : Nat → Bool) (k : Req → Die) : Die :=
  d.handle e rid op fun r =>
    if r.fn? != some 0 || !d.isLead then d.fail e r .policyDeny 0
    else if !keyHeaderOk r false false false false then d.fail e r .badDescriptor 1
    else if !inOk r.inLen then d.fail e r .badDescriptor 2
    else d.rangesOk e r (k r)

/-- CER_BEGIN (R250). -/
def execCerBegin (rid : Nat) (s : State) : Out :=
  s.act fun e d => d.cerRequest e rid 0x6A (fun n => decide (8 ≤ n ∧ n ≤ 65536)) fun r =>
    let b := dmaRead e d r.inAddr r.inLen
    let kind := cerKind b
    if !cerRequestOk b then d.fail e r .badDescriptor 5
    else if !cerAllowed (d.get .LCS_STATE_STATE) kind then d.fail e r .policyDeny 0x0F
    else if d.key.ceremony.isSome then d.fail e r .limitReached 7
    else if r.outLen < 96 then d.complete e r (tooSmall 96)
    else d.withDraw e r 32 fun d1 a =>
      let serial := (d1.get .KEY_CEREMONY_SERIAL_SERIAL + 1) % 2 ^ 64
      let digest := sha384 (ascii "TY8K40-CER" ++ d1.digestOf .ENS_IDENTITY_DIGEST ++ leBytes 8 serial ++ b)
      let c : Ceremony := { serial, kind, digest, nonce := randomBytes a 32, request := b, approved := 0 }
      let d2 := (((({ d1 with key := { d1.key with ceremony := some c } }.set .KEY_CEREMONY_SERIAL_SERIAL serial).set .KEY_CEREMONY_STATUS_STATE 1).set
        .KEY_CEREMONY_STATUS_KIND kind).set .KEY_CEREMONY_STATUS_REMAINING_S 300).sendCer ([10] ++ leBytes 8 serial)
      let out := digest ++ c.nonce ++ leBytes 8 serial ++ zeros 8
      let need := d2.cerNeeds kind
      let rep := { Reply.done 96 with detail := cerDetail 0 need kind }
      let d3 := d2.output e r r.outAddr out
      if d1.firstOwner && kind == 5 then (d3.performCeremony e rid c rep [] 0 0).finish e r c rep
      else d3.complete e r rep

/-- The open ceremony is being performed (STATE 2): it has its approvals, and waits for other dies. -/
def Die.performing (d : Die) : Bool := d.key.dealing.any fun x => x.cer

def tokenMagic : Nat := 0x4B545041

/-- The length of a token by its ALG. -/
def tokenLen : Nat → Option Nat
  | 1 => some 184 | 2 => some 3397 | 3 => some 4811 | _ => none

/-- A token's signature verifies under the key it names, which is registered with that ALG (R247, R251). -/
def Die.tokenOk (d : Die) (kind : Nat) (t : Bytes) : Bool :=
  let who := leAt t 5 1
  let alg := leAt t 6 1
  let c := builtinCurve 2
  let ecOk (key sig : Bytes) : Bool :=
    let q := (beAt key 1 48, beAt key 49 48)
    c.onCurve q.1 q.2 && c.ecdsaOk q (sha384 (t.take 88)) (beAt sig 0 48) (beAt sig 48 48)
  if who = 0xFF then
    alg == 3 && d.firstSet && kind == 4 && !d.key.ownerEc.isEmpty && ecOk d.key.ownerEc (slice t 88 96) &&
      Config.mldsaVerifies 0x13 d.key.ownerMldsa (ascii "TY8K40 approval") (t.take 88) (t.drop 184)
  else match d.key.custodians.find? fun x => x.index == who && x.alg == alg with
    | none => false
    | some x => if alg = 1 then ecOk x.key (t.drop 88)
                else Config.mldsaVerifies 0x12 x.key (ascii "TY8K40 approval") (t.take 88) (t.drop 88)

/-- A token is refused: the request completes AUTH_FAIL, and the ceremony stays open. -/
def Die.rejectToken (e : Env) (d : Die) (r : Req) (c : Ceremony) (reason : Nat) : Die :=
  ((d.event .KEY_EVENT_TOKEN_REJECTED).report e { Report.of 0x0503 with arg := c.serial }).fail e r .authFail reason

/-- The jobs that verify a token: P-384 on Constantan, ML-DSA on a lattice core (R252). -/
def tokenWork (alg : Nat) : List Work :=
  match alg with
  | 1 => verifyWork 2 0 88
  | 2 => verifyWork 7 0 88
  | _ => verifyWork 2 0 88 ++ verifyWork 8 0 88

/-- What another die does, or learns, for a ceremony of the lead die, by the first byte of the message: 1 a share to write, 2 the commit of
a generation, 3 a position that has written its share, 4 the custodian set, 5 the owner key, 6 a migration, 7 a domain entered, 8 an object
to install, 9 what a die that was asked answers, 10 the ceremony serial, 11 a transition request (R248, R420; log 195). -/
def Die.cerMessage (e : Env) (d : Die) (b : Bytes) : Die :=
  let x := b.drop 1
  match leAt b 0 1 with
  | 3 => if d.isLead then d.shareWritten e (leAt b 1 1) else d
  | 9 => if d.isLead then d.dieAnswered e (leAt b 1 1) (leAt b 2 1) (leAt b 3 2) else d
  | k =>
    if d.isLead then d
    else match k with
      | 1 => d.takeShare x
      | 2 => if d.key.nextShare.any fun s => s.gen == leAt x 0 4 then d.commitShare else d
      | 4 => match custodianSet x with
        | some (m, cs) => d.takeCustodians m cs
        | none => d
      | 5 => d.takeOwner x
      | 6 => d.setMigration (leAt x 0 1) (x.drop 1)
      | 7 => d.enterDomain (slice x 0 16) (leAt x 16 2) (leAt x 18 8)
      | 8 => d.installFar e x
      | 10 => d.set .KEY_CEREMONY_SERIAL_SERIAL (leAt x 0 8)
      | 11 =>
        let y := d.submitTransition e x true
        y.1.answerLead y.2.1 y.2.2
      | _ => d

/-- CER_APPROVE (R252). `parts` are the shares that the other dies send for a ceremony on the domain root (R26 step 4) (log 125);
`received` is a message of the ring instead. A ceremony that is being performed takes no more tokens. -/
def execCerApprove (rid : Nat) (parts : List DiePart) (received : Option Bytes) (s : State) : Out :=
  s.act fun e d =>
    match received with
    | some m => d.cerMessage e m
    | none => d.cerRequest e rid 0x6B (fun n => n == 184 || n == 3397 || n == 4811) fun r =>
    let t := dmaRead e d r.inAddr r.inLen
    match if d.performing then none else d.key.ceremony with
    | none => d.fail e r .noSession 7
    | some c =>
      if leAt t 0 4 != tokenMagic || leAt t 4 1 != 1 || leAt t 7 1 != 0 || tokenLen (leAt t 6 1) != some r.inLen then d.fail e r .badDescriptor 5
      else if slice t 8 48 != c.digest || slice t 56 32 != c.nonce then d.rejectToken e r c 7
      else d.withWork e r (fun _ => tokenWork (leAt t 6 1)) 0 none (fun d st x => d.fail e r st x) fun d _ =>
      if !d.tokenOk c.kind t then d.rejectToken e r c 4
      else
        let i := if leAt t 5 1 = 0xFF then 8 else leAt t 5 1
        let mask := if bit c.approved i then c.approved else c.approved + 2 ^ i
        let n := approvals mask
        let need := d.cerNeeds c.kind
        let rep := { Reply.done 0 with detail := cerDetail n need c.kind }
        let c1 := { c with approved := mask }
        let d1 := { d with key := { d.key with ceremony := some c1 } }.set .KEY_CEREMONY_STATUS_APPROVALS n
        if bit c.approved i || n < need then d1.complete e r rep
        else if d.key.dealing.isSome then d
        else d.withCerDraws e r c.kind fun x a fe => (x.performCeremony e rid c1 rep parts a fe).finish e r c1 rep

/-- CER_CANCEL: closes the open ceremony at once. -/
def execCerCancel (rid : Nat) (s : State) : Out :=
  s.act fun e d => d.cerRequest e rid 0x6C (· == 0) fun r =>
    if d.key.ceremony.isNone || d.performing then d.fail e r .noSession 7 else d.closeCeremony.complete e r (Reply.done 0)

/-- CEREMONY_LAPSE: 300 s after the nonce's issue. -/
def execCeremonyLapse (s : State) : Out :=
  s.act fun e d =>
    match d.key.ceremony with
    | none => d
    | some c =>
      if d.performing || d.has .KEY_CEREMONY_STATUS_REMAINING_S then d
      else (d.closeCeremony.event .KEY_EVENT_CEREMONY_LAPSED).report e { Report.of 0x0502 with arg := c.serial }

end Sys2Proof.Machine
end

