-- ==== Sys2Proof/Machine/Boot.lean ====
section
/-! DEFINITION. The boot ROM: roots, measurements, life-cycle transitions with the OTP that they write, the Tin image, and the
readiness of the physical function (spec/16 R415 to R423; spec/08 R222, R223, R229, R253; spec/11 R309; spec/14 R387). -/
namespace Sys2Proof.Machine

/-- Runs the effect of a command that also writes the OTP. -/
def State.actOtp (s : State) (f : Env → Otp × Die → Otp × Die) : Out :=
  let x := f s.env (s.otp, s.die)
  .next ({ s with otp := x.1 }.finish x.2)

/-! ## What the registers show of the OTP (R429) -/

/-- Decodes the voted codeword and shows the OTP. -/
def Die.showOtp (o : Otp) (d : Die) : Die :=
  let st := lcsOf o.voted
  let n := toggleCount o.voted
  let marks := ((o.journal.getLast?).map JournalEntry.marks).getD 0
  ((((((d.set .LCS_STATE_STATE st.1).set .LCS_STATE_TOGGLES n).set .LCS_STATUS_INVALID_CODE (ofBool st.2)).set
    .LCS_SERIAL_SERIAL o.serial).set .LCS_JOURNAL_NEXT o.journal.length).set .LCS_JOURNAL_LAST_MARKS marks).set
    .LCS_TOKENS_REMAINING (tokensLeft st.1 n)

/-! ## The root key (R222) -/

/-- A die that has been provisioned, and is not scrapped, has a DRK to rebuild. -/
def Die.hasPuf (o : Otp) (d : Die) : Bool := d.lcs.puf && o.seed.isSome && (lcsOf o.voted).1 != 6

/-- DRK from the PUF key and the OTP seed (R224). -/
def Die.rebuildDrk (o : Otp) (d : Die) : Die :=
  let puf := (List.range 32).map Config.pufKeyByte
  { d with key := { d.key with drk := some (kdf puf (ascii "DRK") (o.seed.getD []) 32) } }

/-- MEAS0 to MEAS4 (R223). -/
def Die.measureFirmware (d : Die) : Die :=
  (List.range 5).foldl (fun d i => d.extendMeas i ((List.range 48).map (Config.firmwareByte i))) d

/-! ## Transitions (R421 to R423) -/

/-- OTP bytes after programming: bits are only set (log 141). -/
def orBytes (a b : Bytes) : Bytes := (List.range (max a.length b.length)).map fun i => a.getD i 0 ||| b.getD i 0

/-- Sets codeword bits in all three copies. -/
def Otp.addCode (o : Otp) (v : Nat) : Otp := { o with code0 := o.code0 ||| v, code1 := o.code1 ||| v, code2 := o.code2 ||| v }

/-- Programs the seed. -/
def Otp.addSeed (o : Otp) (b : Bytes) : Otp := { o with seed := some (orBytes (o.seed.getD []) b) }

/-- Steps of a transition (R422), by TARGET. -/
def transitionSteps : Nat → Nat
  | 0x1E => 2 | 0x2D => 1 | 0x4B => 6 | 0x78 => 2 | 0x87 => 5 | 0xB4 => 4 | _ => 0

/-- Toggles made once the journal's last entry is complete: every entry to a test state but the first from Blank (log 132). -/
def Otp.togglesMade (o : Otp) : Nat := (o.journal.filter fun j => j.target == 0x1E || j.target == 0x2D).length - 1

/-- The codeword bits that a target sets (R416); Scrap writes 0xFF (log 131). -/
def targetCode (toggles : Nat) : Nat → Nat
  | 0x1E | 0x2D => 0x5A + (2 ^ toggles - 1) * 2 ^ 8
  | 0x4B => 0x96 * 2 ^ 32
  | 0x78 => 0x69 * 2 ^ 40
  | 0x87 => 0xC3 * 2 ^ 48
  | 0xB4 => 0xFF * 2 ^ 56
  | _ => 0

/-- The custodian set, owner key pair, ceremony state, pending migration bank and join serial are erased (log 133). -/
def Die.eraseCustody (d : Die) : Die :=
  let d1 := { d with key := { d.key with custodians := [], threshold := 0, ownerEc := [], ownerMldsa := [], ceremony := none, pendingMeas := [],
                                         pendBank := [], pendNext := [] },
                     ens := { d.ens with joinSerial := none } }
  ((((d1.set .KEY_SEAL_MASK_PENDING 0).set .KEY_SEAL_MASK_PENDING_MASK 0).set .KEY_CUSTODIANS_REGISTERED 0).set .KEY_CUSTODIANS_ALG_MLDSA 0).set
    .KEY_CUSTODIANS_OWNER_SET 0 |>.set .ENS_DOMAIN_STATUS_JOIN_OUT 0

/-- The key manager's NVM area is erased: custody, shares, the founding record and the place in a domain. -/
def Die.eraseKeyNvm (d : Die) : Die :=
  let d1 := (d.eraseCustody.eraseShares.set .KEY_SEAL_MASK_MASK 0x1F).set .ENS_DOMAIN_STATUS_ROOT 0
  { d1 with ens := { d1.ens with founded := [], domainTag := [], slot := 0 } }

def Die.zeroizeBbk (d : Die) : Die := { d with key := { d.key with bbk := none, nk := none } }.set .KEY_ROOT_STATUS_BBK_VALID 0

/-- Test state is cleared: RNG_TEST, scan state. -/
def Die.clearTest (d : Die) : Die := ((d.set .RNG_TEST_RAW_EN 0).set .RNG_TEST_INJECT_SRC 0)

/-- BBK is drawn at entry to Provisioning (R220); the boot ROM waits for the generator. -/
def Die.drawBbk (d : Die) : Die :=
  { d.draw 32 with key := { d.key with bbk := some (randomBytes d.rng.draws 32) } }.set .KEY_ROOT_STATUS_BBK_VALID 1

/-- The first transition of a die leaves Blank. -/
def Otp.fromBlank (o : Otp) : Bool :=
  decide ((o.journal.filter fun j => j.target == 0x1E || j.target == 0x2D).length ≤ 1)

/-- One step of a transition (R422) (log 134). -/
def transitionStep (target k : Nat) (x : Otp × Die) : Otp × Die :=
  let o := x.1
  let d := x.2
  if k + 1 = transitionSteps target then (o.addCode (targetCode o.togglesMade target), d)
  else match target, k with
    | 0x1E, 0 =>
      if o.fromBlank then
        ({ o with tokens := (List.range 8).map fun i => orBytes (o.tokens.getD i []) (slice (reqPayload d.lcs.pending) (48 * i) 48) }, d)
      else (o, d.clearTest)
    | 0x4B, 0 => (o.addSeed (randomBytes d.rng.draws 32), d.draw 32)
    | 0x4B, 1 => (o, { d with lcs := { d.lcs with puf := true } }.rebuildDrk o)
    | 0x4B, 2 => (o, d.drawBbk)
    | 0x4B, 3 => (o, d.eraseKeyNvm)
    | 0x4B, 4 =>
      ({ o with tokens := (List.range 8).map fun i =>
          if (toggleCount o.voted + 1) / 2 ≤ i then List.replicate 48 0xFF else o.tokens.getD i [] }, d)
    | 0x87, 0 => (o, d.set .MLF_ARCHIVE_EPOCH_EPOCH (min (2 ^ 32 - 1) (d.get .MLF_ARCHIVE_EPOCH_EPOCH + 1)))
    | 0x87, 1 => (o, d.eraseShares)
    | 0x87, 2 => (o, d.eraseCustody)
    | 0x87, 3 => (o, d.zeroizeBbk.eraseKeyNvm)
    | 0xB4, 0 => (o, d.zeroizeBbk)
    | 0xB4, 1 => (o, { d.eraseKeyNvm with tin := { d.tin with base := none, deltas := [], staged := none } })
    | 0xB4, 2 => (o.addSeed (List.replicate 32 0xFF), { d with key := { d.key with drk := none, esk := none } })
    | _, _ => (o, d)

/-- Changes the journal's last entry. -/
def Otp.mapLast (o : Otp) (f : JournalEntry → JournalEntry) : Otp :=
  match o.journal.getLast? with
  | some j => { o with journal := o.journal.dropLast ++ [f j] }
  | none => o

/-- Runs the steps from the first unwritten mark; each mark follows its step. Then the transition is recorded. -/
def runTransition (mem : List Host.Cell) (resumed : Bool) (x : Otp × Die) : Otp × Die :=
  match x.1.journal.getLast? with
  | none => x
  | some j =>
    let n := transitionSteps j.target
    let first := ((List.range n).find? fun k => !bit j.marks k).getD n
    let y := ((List.range n).filter fun k => decide (first ≤ k)).foldl (fun x k =>
      let z := transitionStep j.target k x
      (z.1.mapLast fun e => { e with marks := e.marks ||| 2 ^ k }, z.2)) x
    let d := (y.2.showOtp y.1).set .LCS_STATUS_RESUMED (ofBool resumed)
    (y.1, (d.event .LCS_EVENT_TRANSITION_DONE).report { otp := y.1, mem } { Report.of 0x0C01 with arg := d.get .LCS_STATE_STATE })

/-- A pending request begins its transition, or is dropped when it fails its checks again. -/
def startTransition (mem : List Host.Cell) (x : Otp × Die) : Otp × Die :=
  let o := x.1
  let d := x.2
  if d.lcs.pending.isEmpty then x
  else if (d.requestFault o d.lcs.pending true d.tin.base.isSome false).isNone then
    runTransition mem false ({ o with journal := o.journal ++ [{ target := reqTarget d.lcs.pending, marks := 0 }] }, d)
  else (o, (d.event .LCS_EVENT_REQUEST_DROPPED).reportOf { otp := o, mem } 0x0C03)

/-- resume_lifecycle of R423, but for the decoding at its end (log 142). -/
def resumeLifecycle (mem : List Host.Cell) (x : Otp × Die) : Otp × Die :=
  let o := x.1
  let p := reqTarget x.2.lcs.pending
  match o.journal.getLast? with
  | none => startTransition mem x
  | some j =>
    if (targetState j.target).isSome then
      if bit j.marks (transitionSteps j.target - 1) then startTransition mem x else runTransition mem true x
    else if !x.2.lcs.pending.isEmpty && (targetState p).isSome && j.target &&& p == j.target then
      runTransition mem true (o.mapLast fun e => { e with target := p, marks := 0 }, x.2)
    else startTransition mem x

/-! ## The Tin image (R309) -/

/-- The image and its chain as they are applied in order. -/
def Die.bankSecs (d : Die) : List Section :=
  match d.tin.base with
  | none => []
  | some b => d.tin.deltas.foldl (fun s x => overlay s x.sections) b.sections

/-- The bank that the boot ROM applies, none for the default configuration: no image, firmware below MIN_FW_SVN, Return, or
Scrap, which has erased it (R311, R422) (log 136). -/
def Die.bootBank (d : Die) : Option TinImage :=
  match d.tin.base with
  | none => none
  | some b =>
    let st := d.get .LCS_STATE_STATE
    if deviceFits d.tin.fwSvn (bodyOf b.sections 0x81 0) && st != 5 && st != 6 then some b else none

/-- Functions of the die that a virtual function section assigned are withdrawn outside Mission (R45). -/
def Die.hideVfs (d : Die) : Die :=
  if d.get .LCS_STATE_STATE == 4 then d
  else ((List.range 255).map (· + 1)).foldl (fun d f => d.setAt .QUE_PAGE_STATUS_ASSIGNED f 0) d

/-- Loads the configuration: MEAS5, MEAS6, the digests, the sections. `point`: the operating point is loaded too (log 137). -/
def Die.loadTin (e : Env) (d : Die) (point : Bool) : Die :=
  match d.bootBank with
  | none =>
    let d1 := (((d.bootConfig [] point).showDigests [] 0 0).set .TIN_STATUS_SOURCE 0).showBank
    (d1.event .TIN_EVENT_DEFAULT_BOOT).reportOf e 0x0707
  | some b =>
    let secs := d.bankSecs
    let seq := ((d.tin.deltas.getLast?).map fun x => imgDeltaSeq x.bytes).getD 0
    let d1 := (d.extendMeas 5 (vendorDigest b.bytes)).extendMeas 6 (ownerDigest b.bytes)
    let d2 : Die := d.tin.deltas.foldl (fun d x => d.extendMeas 6 (ownerDigest x.bytes)) d1
    let d3 := ((d2.bootConfig secs point).showDigests secs b.serial seq).set .TIN_STATUS_SOURCE 1
    (d3.set .TIN_DELTA_SEQ_VALUE seq).showBank.hideVfs

/-! ## NVM secrets (R229, R253, R387) -/

/-- NK, and the share records that open under it; with BBK lost a warm reset keeps NK (R411) (log 139). -/
def Die.openSecrets (e : Env) (d : Die) : Die :=
  let nk := match d.key.bbk with | some b => d.deriveNk b | none => d.key.nk
  ({ d with key := { d.key with nk } }.set .KEY_ROOT_STATUS_BBK_VALID (ofBool d.key.bbk.isSome)).openBanks e

/-- Log entries since the last ACK, oldest first: each word 1 of an entry (log 140). -/
def Die.newLog (d : Die) : List Nat :=
  let n := min 32 (d.get .TMP_BACKUP_STATUS_NEW)
  (List.range n).map fun k => d.getAt2 .TMP_BLOG_WORD ((d.get .TMP_BACKUP_STATUS_NEXT + 32 - n + k) % 32) 1

/-- Each new entry of the backup log latches its alarm, is recorded, and pulls TAMPER_OUT_N low where its map entry has OUT. -/
def Die.readLog (e : Env) (d : Die) : Die :=
  d.newLog.foldl (fun d w =>
    let src := w % 256
    let d1 := (d.latchAlarm src).report e { Report.of 0x0A20 with unit := src, kind := bits w 15 8 }
    if d1.hasAt .TMP_MAP_OUT src then { d1.outLow with tmp := { d1.outLow.tmp with outLog := true, outAck := false } } else d1) d

/-! ## BOOT_ROM -/

/-- The debug master's regions 0 to 3 (R356): the key manager, the operand and lattice memories, the hold buffers, and secure
control-core memory, where the model places them (log 50). -/
def Die.debugRegions (d : Die) : Die :=
  (List.range 4).foldl (fun d r =>
    d.setRegion 258 r { base := 0x30000000 + 0x1000000 * r, sizeLog2 := 24, read := false, write := false }) d

/-- The end of the boot: measurements locked, functions in their states, and the physical function ready (R44, R223, R272). A
configuration fault holds on: only a cold reset leaves it (R319). -/
def Die.becomeReady (e : Env) (d : Die) : Die :=
  let fns := (List.range 255).map (· + 1)
  let d1 : Die := fns.foldl (fun d f => if d.hasAt .QUE_PAGE_STATUS_ASSIGNED f then d.setAt .TEN_STATE_STATE f 1 else d) d
  let d2 := ((d1.setAt .TEN_STATE_STATE 0 2).setAt .QUE_PAGE_STATUS_ASSIGNED 0 1).setAt .QUE_PAGE_STATUS_READY 0 1
  let d3 := { d2 with key := { d2.key with measLocked := true }, que := { d2.que with crs := false },
                      clk := { d2.clk with booted := true, bootMs := d2.nowMs, resetClass := 0 } }
  let d4 := d3.set .DBG_STATUS_LEVEL (if d3.get .LCS_STATE_STATE == 2 then 2 else 0)
  let d5 := if d4.evr.torn.isSome then d4.set .EVR_STATUS_TORN 1 else d4
  let d6 := (d5.report e { Report.of 0x0B05 with arg := d5.word32 e false 0 0x880204 }).drawBootKeys.replaceBbk
  if d6.get .ENS_STATUS_FAULT == 0 || d6.get .ENS_STATUS_FAULT == 5 then d6 else d6.inFault

/-- The part of a boot after the life cycle is settled; `class_` is the reset that it ends (log 82, 138). -/
def Die.bootDie (e : Env) (d : Die) (class_ : Nat) : Die :=
  let d1 := (d.loadTin e (decide (3 ≤ class_))).migrate e
  let d2 := d1.openSecrets e
  let d3 := if class_ = 4 then
      let x := if d2.tmp.backup.nofro then d2.set .RST_CAUSE_NOFRO_SEEN 1 else d2
      { x with tmp := { x.tmp with backup := { x.tmp.backup with nofro := false } } }.readLog e
    else d2
  d3.debugRegions.becomeReady e

/-- The boot ROM may run: a reset has ended, clocks are stable, the supply holds and nothing has locked the die down. -/
def Die.mayBoot (d : Die) : Bool :=
  !d.clk.booted && d.clk.resetClass != 0 && d.clk.stable && !d.clk.supplyHold && !d.tmp.lockdown && d.tmp.clearing == 0 && d.clk.phase != .stopped

/-- The whole boot. A PUF failure of a cold reset stops it before anything else (R222, R423). -/
def bootRom (mem : List Host.Cell) (x : Otp × Die) : Otp × Die :=
  let o := x.1
  let c := x.2.clk.resetClass
  let d := x.2.showOtp o
  let needsDrk := c == 4 && d.hasPuf o
  if needsDrk && Config.pufFails (d.get .EVR_POWER_CYCLES_VALUE) then
    (o, if d.has .KEY_ROOT_STATUS_PUF_FAIL then d else (d.set .KEY_ROOT_STATUS_PUF_FAIL 1).reportOf { otp := o, mem } 0x0505)
  else
    let d1 := (if needsDrk then d.rebuildDrk o else d).measureFirmware
    let y := resumeLifecycle mem (o, d1)
    let d2 := (y.2.setPending []).showOtp y.1
    (y.1, d2.bootDie { otp := y.1, mem } c)

/-- BOOT_ROM (log 130). -/
def execBootRom (s : State) : Out := s.actOtp fun e x => if x.2.mayBoot then bootRom e.mem x else x

end Sys2Proof.Machine
end

