-- ==== Sys2Proof/Machine/Recorder.lean ====
section
/-! DEFINITION. The event recorder's writes, freeze and read-out, and the central counter reader (spec/17 R434 to R447). -/
namespace Sys2Proof.Machine

/-! ## Writing and freezing (R434, R437, R438) -/

/-- The entry whose write comes next: class P in staging order, then, unless frozen, general ones (R437, R438). -/
def Die.nextStaged (d : Die) : Option Staged :=
  match d.evr.staging.find? fun s => isClassP s.trigger with
  | some s => some s
  | none => if d.evr.frozen then none else d.evr.staging.head?

/-- A write that has done its first step has erased VALID; after its second it has written bytes 0 to 251 as well. The slot holds no
record (log 86). -/
def Die.writeSteps (d : Die) (s : Staged) (steps : Nat) : Die :=
  let slot := d.get .EVR_STATUS_NEXT
  let old := slice (tget d.evr.ring slot ++ zeros 256) 0 252
  let new := slice s.record 0 4 ++ leBytes 4 (d.get .EVR_SEQ_VALUE + 1) ++ slice s.record 8 244
  { d with evr := { d.evr with ring := tput d.evr.ring slot ((if steps == 1 then old else new) ++ zeros 4), writing := some (s, steps) } }

/-- RECORD_WRITE: the write in progress, or that of the next staged entry, goes on: `cut` 0 to its end, 1 or 2 to the end of its first
or second step, where a reset or a power loss may cut it. A brown-out warning lets a write end and none begin (log 207). -/
def execRecordWrite (cut : Nat) (s : State) : Out :=
  s.act fun _ d =>
    let next : Option (Staged × Nat) :=
      match d.evr.writing with
      | some w => some w
      | none => if d.has .TMP_STATUS_BROWNOUT then none else d.nextStaged.map fun x => (x, 0)
    match next with
    | none => d
    | some (x, done) => if cut == 0 then d.writeRecord x else if done < min cut 2 then d.writeSteps x (min cut 2) else d

/-- FREEZE_SET: EVR_CTL.FREEZE = 1. -/
def execFreezeSet (s : State) : Out :=
  s.act fun _ d0 =>
    let d := d0.access 0
    { d.set .EVR_CTL_FREEZE 1 with
      evr := { d.evr with frozen := true, freezeMs := if d.evr.frozen then d.evr.freezeMs else d.nowMs } }

/-- The freeze is over. -/
def Die.thaw (d : Die) : Die := { d.set .EVR_CTL_FREEZE 0 with evr := { d.evr with frozen := false } }

/-- FREEZE_CLEAR: EVR_CTL.FREEZE = 0. -/
def execFreezeClear (s : State) : Out := s.act fun _ d => (d.access 0).thaw

/-- FREEZE_TIMEOUT: 1,000 ms after the freeze began. -/
def execFreezeTimeout (s : State) : Out :=
  s.act fun e d => if d.evr.frozen && decide (d.evr.freezeMs + 1000 ≤ d.nowMs) then (d.thaw.event .EVR_EVENT_FREEZE_TIMEOUT).reportOf e 0x0D01 else d

/-! ## The central reader (R443 to R447) -/

/-- Entries of the sample ring, as a power of two (log 88). -/
def Die.pmcLog2 (d : Die) : Nat := clamp 6 16 (d.get .PMC_RING_CTL_SIZE_LOG2)

/-- COUNTS entry k: level selections by the cycles given, edge selections by what was counted (R442). -/
def Die.pmcCount (d : Die) (level : List Nat) (k : Nat) : Nat :=
  let w := d.getAt .PMC_SEL_SELECTION k
  if !bit (bits w 23 16) 0 then tget d.evr.counts k
  else if bit (bits w 23 16) 1 && !eventHasTenant (bits w 7 0) (bits w 15 8) then 0
  else level.getD k 0

/-- Selections in force: the number of the section's entries (log 89). -/
def Die.pmcNsel (d : Die) : Nat :=
  ((List.range 52).filter fun k => d.getAt .PMC_SEL_SELECTION k != 0).length

/-- A sample (R444). -/
def Die.sample (d : Die) (tick : Nat) (level : List Nat) (phase : Bool) : Bytes :=
  let sflags := ofBool (d.get .CLK_STATUS_SOURCE == 1) + 2 * ofBool (d.evr.droppedNow != 0) + 4 * ofBool d.evr.changed
  leBytes 8 d.evr.windowSeq ++ leBytes 8 tick ++ leBytes 4 (d.evr.windowUs * 1000) ++ leBytes 1 sflags ++
    leBytes 1 d.pmcNsel ++ leBytes 1 d.pos ++ leBytes 1 (ofBool phase * 128) ++ leBytes 8 d.evr.droppedNow ++
    ((List.range 8).flatMap fun p => leBytes 8 (tget d.evr.ports p)) ++
    ((List.range 52).flatMap fun k => leBytes 8 (if k < d.pmcNsel then d.pmcCount level k else 0))

/-- A sample is dropped (R445). -/
def Die.dropSample (e : Env) (d : Die) : Die :=
  let d1 := { d with evr := { d.evr with droppedNow := d.evr.droppedNow + 1 } }
  ((d1.add .PMC_STATUS_DROPPED 1).event .PMC_EVENT_OVERRUN).reportOf e 0x0D02

/-- The sample goes to the ring, or is dropped: when the ring is full (R445), or when the physical function's MPU refuses
the write. Vector 24 follows every IRQ_COUNT samples (log 87). -/
def Die.putSample (e : Env) (d : Die) (tick : Nat) (level : List Nat) : Die :=
  let size := 2 ^ d.pmcLog2
  let tail := d.get .PMC_RING_TAIL_INDEX
  let a := d.get .PMC_RING_BASE_ADDR / 4096 * 4096 + tail % size * 512
  if size ≤ idxSub tail (d.get .PMC_RING_HEAD_INDEX) then d.dropSample e
  else if !d.dmaOk (d.tenantOf 0) a 512 true then (d.dmaFault e (d.tenantOf 0) a 512 true).dropSample e
  else
    let d1 := (d.dmaWrite a (d.sample tick level (tail / size % 2 == 0))).set .PMC_RING_TAIL_INDEX (tail + 1)
    let n := d.evr.sinceMsg + 1
    let d2 (k : Nat) : Die := { d1 with evr := { d1.evr with droppedNow := 0, sinceMsg := k } }
    if max 1 (d.get .PMC_RING_CTL_IRQ_COUNT) ≤ n then (d2 0).signal 0 24 else d2 n

/-- PMC_WINDOW: a window boundary. `tick` is CLK_SLOW since warm reset and `level` the cycles of the level-mode
selections. Counters restart, a new WINDOW_US and replaced selections take effect (log 90). -/
def execPmcWindow (tick : Nat) (level : List Nat) (s : State) : Out :=
  s.act fun e d =>
    if !d.has .PMC_CTL_ENABLE || !d.clk.booted then d
    else
      let d0 := { d with evr := { d.evr with windowSeq := d.evr.windowSeq + 1 } }
      let d1 := d0.putSample e tick level
      let d2 : Die := match d1.evr.nextSel with
        | some sel => d1.setSelections sel
        | none => d1
      { d2 with evr := { d2.evr with counts := [], ports := [], changed := d2.evr.nextSel.isSome, nextSel := none,
                                     windowUs := clamp 1 1000000 (d2.get .PMC_CTL_WINDOW_US) } }

end Sys2Proof.Machine
end

