-- ==== Sys2Proof/Machine/Dispatch.lean ====
section
/-! DEFINITION. One arm per command. -/
namespace Sys2Proof.Machine

def exec (i : Instr) (s : State) : Host.Outcome State Fault Refusal :=
  match i with
  | .registerWrite w off size value => Sys2Proof.Machine.execRegisterWrite w off size value s
  | .mmioBadAccess fn off size write => Sys2Proof.Machine.execMmioBadAccess fn off size write s
  | .linkUp rate tx rx received => Sys2Proof.Machine.execLinkUp rate tx rx received s
  | .linkTrainFail rate => Sys2Proof.Machine.execLinkTrainFail rate s
  | .linkTrainRetry => Sys2Proof.Machine.execLinkTrainRetry s
  | .retrain rate tx rx => Sys2Proof.Machine.execRetrain rate tx rx s
  | .laneRepairRetrain rate tx rx => Sys2Proof.Machine.execLaneRepairRetrain rate tx rx s
  | .linkDown received => Sys2Proof.Machine.execLinkDown received s
  | .correctableError => Sys2Proof.Machine.execCorrectableError s
  | .unsupportedRequest header => Sys2Proof.Machine.execUnsupportedRequest header s
  | .malformedTlp header flow => Sys2Proof.Machine.execMalformedTlp header flow s
  | .completionTimeout header what => Sys2Proof.Machine.execCompletionTimeout header what s
  | .descriptorReadError fn pair poison => Sys2Proof.Machine.execDescriptorReadError fn pair poison s
  | .bufferReadError rid poison => Sys2Proof.Machine.execBufferReadError rid poison s
  | .storeReadError rid poison => Sys2Proof.Machine.execStoreReadError rid poison s
  | .vfEnable => Sys2Proof.Machine.execVfEnable s
  | .msixVectorUnmask fn vec => Sys2Proof.Machine.execMsixVectorUnmask fn vec s
  | .functionLevelReset fn => Sys2Proof.Machine.execFunctionLevelReset fn s
  | .queReqTailDb fn pair tail => Sys2Proof.Machine.execQueReqTailDb fn pair tail s
  | .queRplHeadDb fn pair head => Sys2Proof.Machine.execQueRplHeadDb fn pair head s
  | .queNtfHeadDb fn head => Sys2Proof.Machine.execQueNtfHeadDb fn head s
  | .descriptorFetch fn pair => Sys2Proof.Machine.execDescriptorFetch fn pair s
  | .pairEnable fn pair value => Sys2Proof.Machine.execPairEnable fn pair value s
  | .pairDisable fn pair => Sys2Proof.Machine.execPairDisable fn pair s
  | .pairDrainDone fn pair => Sys2Proof.Machine.execPairDrainDone fn pair s
  | .ntfEnable fn value => Sys2Proof.Machine.execNtfEnable fn value s
  | .ntfDisable fn => Sys2Proof.Machine.execNtfDisable fn s
  | .rplIrqTimer fn pair => Sys2Proof.Machine.execRplIrqTimer fn pair s
  | .ntfIrqTimer fn => Sys2Proof.Machine.execNtfIrqTimer fn s
  | .badDescriptorOpcode rid => Sys2Proof.Machine.execBadDescriptorOpcode rid s
  | .espIn rid => Sys2Proof.Machine.execEspIn rid s
  | .espOut rid => Sys2Proof.Machine.execEspOut rid s
  | .dtlsIn rid => Sys2Proof.Machine.execDtlsIn rid s
  | .dtlsOut rid => Sys2Proof.Machine.execDtlsOut rid s
  | .aeadSeal rid => Sys2Proof.Machine.execAeadSeal rid s
  | .aeadOpen rid => Sys2Proof.Machine.execAeadOpen rid s
  | .hash rid => Sys2Proof.Machine.execHash rid s
  | .hmacGen rid => Sys2Proof.Machine.execHmacGen rid s
  | .hmacVerify rid => Sys2Proof.Machine.execHmacVerify rid s
  | .aeadCancel rid => Sys2Proof.Machine.execAeadCancel rid s
  | .ringFwdReq src msg hops tenant desc input => Sys2Proof.Machine.execRingFwdReq src msg hops tenant desc input s
  | .flushReadDone rid => Sys2Proof.Machine.execFlushReadDone rid s
  | .ringFwdCpl src msg body => Sys2Proof.Machine.execRingFwdCpl src msg body s
  | .bucketReadComplete rid => Sys2Proof.Machine.execBucketReadComplete rid s
  | .interlockGranted bucket => Sys2Proof.Machine.execInterlockGranted bucket s
  | .bucketWaitTimeout rid => Sys2Proof.Machine.execBucketWaitTimeout rid s
  | .laneRecordDone rid kind => Sys2Proof.Machine.execLaneRecordDone rid kind s
  | .streamChunkDone rid kind => Sys2Proof.Machine.execStreamChunkDone rid kind s
  | .scrubChunkDone rid => Sys2Proof.Machine.execScrubChunkDone rid s
  | .laneQuarantineCmd lane => Sys2Proof.Machine.execLaneQuarantineCmd lane s
  | .laneReleaseCmd lane => Sys2Proof.Machine.execLaneReleaseCmd lane s
  | .laneKatDone lane pass => Sys2Proof.Machine.execLaneKatDone lane pass s
  | .hashQuarantineCmd lane => Sys2Proof.Machine.execHashQuarantineCmd lane s
  | .hashReleaseCmd lane => Sys2Proof.Machine.execHashReleaseCmd lane s
  | .hashKatDone lane pass => Sys2Proof.Machine.execHashKatDone lane pass s
  | .hashBlockDone rid kind => Sys2Proof.Machine.execHashBlockDone rid kind s
  | .recSteerWrite index pos => Sys2Proof.Machine.execRecSteerWrite index pos s
  | .steerUpdateReceived index pos valid => Sys2Proof.Machine.execSteerUpdateReceived index pos valid s
  | .tblLock rid => Sys2Proof.Machine.execTblLock rid s
  | .tblUnlock rid => Sys2Proof.Machine.execTblUnlock rid s
  | .tblFind rid => Sys2Proof.Machine.execTblFind rid s
  | .tblRead rid => Sys2Proof.Machine.execTblRead rid s
  | .tblUpdate rid => Sys2Proof.Machine.execTblUpdate rid s
  | .tblDelete rid => Sys2Proof.Machine.execTblDelete rid s
  | .tblDeleteComplete rid => Sys2Proof.Machine.execTblDeleteComplete rid s
  | .lockTimeout bucket => Sys2Proof.Machine.execLockTimeout bucket s
  | .relocate bucket => Sys2Proof.Machine.execRelocate bucket s
  | .tableMinuteTick => Sys2Proof.Machine.execTableMinuteTick s
  | .sweepVisit failed => Sys2Proof.Machine.execSweepVisit failed s
  | .sweepReadRetry failed => Sys2Proof.Machine.execSweepReadRetry failed s
  | .agedBatchTimer tenant received => Sys2Proof.Machine.execAgedBatchTimer tenant received s
  | .slotWriteComplete wid => Sys2Proof.Machine.execSlotWriteComplete wid s
  | .mirrorReceived src body => Sys2Proof.Machine.execMirrorReceived src body s
  | .mirrorAck n => Sys2Proof.Machine.execMirrorAck n s
  | .mirrorAckTimeout n => Sys2Proof.Machine.execMirrorAckTimeout n s
  | .resealChildDone level index child failed => Sys2Proof.Machine.execResealChildDone level index child failed s
  | .poisonReformat index => Sys2Proof.Machine.execPoisonReformat index s
  | .poisonReformatDone => Sys2Proof.Machine.execPoisonReformatDone s
  | .archiveBump confirm bump received => Sys2Proof.Machine.execArchiveBump confirm bump received s
  | .conPrim rid => Sys2Proof.Machine.execConPrim rid s
  | .ecKeygen rid => Sys2Proof.Machine.execEcKeygen rid s
  | .ecdh rid => Sys2Proof.Machine.execEcdh rid s
  | .ecdsaSign rid => Sys2Proof.Machine.execEcdsaSign rid s
  | .ecdsaVerify rid => Sys2Proof.Machine.execEcdsaVerify rid s
  | .eddsaSign rid => Sys2Proof.Machine.execEddsaSign rid s
  | .eddsaVerify rid => Sys2Proof.Machine.execEddsaVerify rid s
  | .x25519Keygen rid => Sys2Proof.Machine.execX25519Keygen rid s
  | .x25519Agree rid => Sys2Proof.Machine.execX25519Agree rid s
  | .rsaPriv rid => Sys2Proof.Machine.execRsaPriv rid s
  | .rsaPub rid => Sys2Proof.Machine.execRsaPub rid s
  | .curveLoad rid => Sys2Proof.Machine.execCurveLoad rid s
  | .curveUnload rid => Sys2Proof.Machine.execCurveUnload rid s
  | .pointCheck rid => Sys2Proof.Machine.execPointCheck rid s
  | .conCancel rid => Sys2Proof.Machine.execConCancel rid s
  | .conDispatch core => Sys2Proof.Machine.execConDispatch core s
  | .conYieldPoint rid => Sys2Proof.Machine.execConYieldPoint rid s
  | .conJobDone rid kind => Sys2Proof.Machine.execConJobDone rid kind s
  | .conQuarantineCmd core => Sys2Proof.Machine.execConQuarantineCmd core s
  | .conReleaseCmd core => Sys2Proof.Machine.execConReleaseCmd core s
  | .conKatDone core pass => Sys2Proof.Machine.execConKatDone core pass s
  | .mlkemKeygen rid => Sys2Proof.Machine.execMlkemKeygen rid s
  | .mlkemEncaps rid => Sys2Proof.Machine.execMlkemEncaps rid s
  | .mlkemDecaps rid => Sys2Proof.Machine.execMlkemDecaps rid s
  | .mldsaKeygen rid => Sys2Proof.Machine.execMldsaKeygen rid s
  | .mldsaSign rid => Sys2Proof.Machine.execMldsaSign rid s
  | .mldsaVerify rid => Sys2Proof.Machine.execMldsaVerify rid s
  | .nttCancel rid => Sys2Proof.Machine.execNttCancel rid s
  | .nttDispatch core => Sys2Proof.Machine.execNttDispatch core s
  | .nttAttemptBoundary rid => Sys2Proof.Machine.execNttAttemptBoundary rid s
  | .nttJobDone rid kind => Sys2Proof.Machine.execNttJobDone rid kind s
  | .nttQuarantineCmd core => Sys2Proof.Machine.execNttQuarantineCmd core s
  | .nttReleaseCmd core => Sys2Proof.Machine.execNttReleaseCmd core s
  | .nttKatDone core pass => Sys2Proof.Machine.execNttKatDone core pass s
  | .hsOpen rid => Sys2Proof.Machine.execHsOpen rid s
  | .hsAddke rid => Sys2Proof.Machine.execHsAddke rid s
  | .hsProtect rid => Sys2Proof.Machine.execHsProtect rid s
  | .hsUnprotect rid => Sys2Proof.Machine.execHsUnprotect rid s
  | .hsSign rid => Sys2Proof.Machine.execHsSign rid s
  | .hsVerifyPeer rid => Sys2Proof.Machine.execHsVerifyPeer rid s
  | .hsFinished rid => Sys2Proof.Machine.execHsFinished rid s
  | .hsInstall rid => Sys2Proof.Machine.execHsInstall rid s
  | .hsResume rid => Sys2Proof.Machine.execHsResume rid s
  | .hsKeyupdate rid => Sys2Proof.Machine.execHsKeyupdate rid s
  | .hsFree rid => Sys2Proof.Machine.execHsFree rid s
  | .hsContextIdleTimeout ctx => Sys2Proof.Machine.execHsContextIdleTimeout ctx s
  | .hsContextRetainTimeout ctx => Sys2Proof.Machine.execHsContextRetainTimeout ctx s
  | .keyGenerate rid => Sys2Proof.Machine.execKeyGenerate rid s
  | .keyDerive rid => Sys2Proof.Machine.execKeyDerive rid s
  | .keyAttrSet rid => Sys2Proof.Machine.execKeyAttrSet rid s
  | .keyDelete rid => Sys2Proof.Machine.execKeyDelete rid s
  | .keyInfo rid => Sys2Proof.Machine.execKeyInfo rid s
  | .keyExport rid => Sys2Proof.Machine.execKeyExport rid s
  | .keyRestore rid => Sys2Proof.Machine.execKeyRestore rid s
  | .keyWrap rid => Sys2Proof.Machine.execKeyWrap rid s
  | .keyUnwrap rid => Sys2Proof.Machine.execKeyUnwrap rid s
  | .attest rid => Sys2Proof.Machine.execAttest rid s
  | .cerBegin rid => Sys2Proof.Machine.execCerBegin rid s
  | .cerApprove rid parts received => Sys2Proof.Machine.execCerApprove rid parts received s
  | .cerCancel rid => Sys2Proof.Machine.execCerCancel rid s
  | .ceremonyLapse => Sys2Proof.Machine.execCeremonyLapse s
  | .rngDrbg rid => Sys2Proof.Machine.execRngDrbg rid s
  | .rngFullEntropy rid => Sys2Proof.Machine.execRngFullEntropy rid s
  | .rngHeadServed full => Sys2Proof.Machine.execRngHeadServed full s
  | .rngHoldTimeout rid => Sys2Proof.Machine.execRngHoldTimeout rid s
  | .rngWindowClose rct apt => Sys2Proof.Machine.execRngWindowClose rct apt s
  | .drbgQueueFill => Sys2Proof.Machine.execDrbgQueueFill s
  | .drbgReseedTimer inst => Sys2Proof.Machine.execDrbgReseedTimer inst s
  | .rngHealthFail source apt => Sys2Proof.Machine.execRngHealthFail source apt s
  | .rngRerunClearTimer => Sys2Proof.Machine.execRngRerunClearTimer s
  | .rngInject source => Sys2Proof.Machine.execRngInject source s
  | .rngRawRead fn => Sys2Proof.Machine.execRngRawRead fn s
  | .activate fn => Sys2Proof.Machine.execActivate fn s
  | .quiesce fn => Sys2Proof.Machine.execQuiesce fn s
  | .quiesceDone fn => Sys2Proof.Machine.execQuiesceDone fn s
  | .quiesceLate fn => Sys2Proof.Machine.execQuiesceLate fn s
  | .resume fn => Sys2Proof.Machine.execResume fn s
  | .reset fn => Sys2Proof.Machine.execReset fn s
  | .tenantResetForced fn => Sys2Proof.Machine.execTenantResetForced fn s
  | .tenantResetClear fn => Sys2Proof.Machine.execTenantResetClear fn s
  | .remove fn received => Sys2Proof.Machine.execRemove fn received s
  | .handleRegionClear fn => Sys2Proof.Machine.execHandleRegionClear fn s
  | .tenCmdRefused fn cmd => Sys2Proof.Machine.execTenCmdRefused fn cmd s
  | .schedEpoch => Sys2Proof.Machine.execSchedEpoch s
  | .migLogStart rid => Sys2Proof.Machine.execMigLogStart rid s
  | .migHarvest rid => Sys2Proof.Machine.execMigHarvest rid s
  | .migLogStop rid => Sys2Proof.Machine.execMigLogStop rid s
  | .stewardSample => Sys2Proof.Machine.execStewardSample s
  | .stewardOpEval waiting uses => Sys2Proof.Machine.execStewardOpEval waiting uses s
  | .stewardRequest rid => Sys2Proof.Machine.execStewardRequest rid s
  | .tinStage rid received => Sys2Proof.Machine.execTinStage rid received s
  | .tinActivate rid received => Sys2Proof.Machine.execTinActivate rid received s
  | .tinDelta rid received => Sys2Proof.Machine.execTinDelta rid received s
  | .tinDiscard rid received => Sys2Proof.Machine.execTinDiscard rid received s
  | .ensEnvelopeMakeJoin rid => Sys2Proof.Machine.execEnsEnvelopeMakeJoin rid s
  | .ensEnvelopeMakeRoot rid => Sys2Proof.Machine.execEnsEnvelopeMakeRoot rid s
  | .ensEnvelopeMakeKey rid far => Sys2Proof.Machine.execEnsEnvelopeMakeKey rid far s
  | .ensEnvelopeTakeTuple rid received => Sys2Proof.Machine.execEnsEnvelopeTakeTuple rid received s
  | .ensEnvelopeTakeJoin rid slot => Sys2Proof.Machine.execEnsEnvelopeTakeJoin rid slot s
  | .ensEnvelopeTakeRoot rid => Sys2Proof.Machine.execEnsEnvelopeTakeRoot rid s
  | .ensEnvelopeTakeKey rid => Sys2Proof.Machine.execEnsEnvelopeTakeKey rid s
  | .ensEnvelopeTakeActivation rid => Sys2Proof.Machine.execEnsEnvelopeTakeActivation rid s
  | .ensReport rid => Sys2Proof.Machine.execEnsReport rid s
  | .tuplePublish => Sys2Proof.Machine.execTuplePublish s
  | .presenceExpire member => Sys2Proof.Machine.execPresenceExpire member s
  | .memberQuarantine member => Sys2Proof.Machine.execMemberQuarantine member s
  | .activationTime => Sys2Proof.Machine.execActivationTime s
  | .activationRetry => Sys2Proof.Machine.execActivationRetry s
  | .activationMissed => Sys2Proof.Machine.execActivationMissed s
  | .lcsSubmitTransition rid => Sys2Proof.Machine.execLcsSubmitTransition rid s
  | .lcsSubmitWithdraw rid => Sys2Proof.Machine.execLcsSubmitWithdraw rid s
  | .lcsSubmitDebugAuth rid => Sys2Proof.Machine.execLcsSubmitDebugAuth rid s
  | .ringLinkUp b chain lcs ident repaired => Sys2Proof.Machine.execRingLinkUp b chain lcs ident repaired s
  | .ringLinkDown b received => Sys2Proof.Machine.execRingLinkDown b received s
  | .ringFlitError b => Sys2Proof.Machine.execRingFlitError b s
  | .ringRekey b => Sys2Proof.Machine.execRingRekey b s
  | .discover b way found => Sys2Proof.Machine.execDiscover b way found s
  | .discoveryTimeout => Sys2Proof.Machine.execDiscoveryTimeout s
  | .ensembleStart msg => Sys2Proof.Machine.execEnsembleStart msg s
  | .eskReceived esk dxk dtk returning found => Sys2Proof.Machine.execEskReceived esk dxk dtk returning found s
  | .heartbeatTimer => Sys2Proof.Machine.execHeartbeatTimer s
  | .heartbeatMiss b => Sys2Proof.Machine.execHeartbeatMiss b s
  | .neighbourReport src b => Sys2Proof.Machine.execNeighbourReport src b s
  | .failingReceived pos discard => Sys2Proof.Machine.execFailingReceived pos discard s
  | .linkGraceTimeout pos => Sys2Proof.Machine.execLinkGraceTimeout pos s
  | .declarationReceived pos => Sys2Proof.Machine.execDeclarationReceived pos s
  | .serveMapUpdate pos server => Sys2Proof.Machine.execServeMapUpdate pos server s
  | .handback pos starting => Sys2Proof.Machine.execHandback pos starting s
  | .handbackDone pos body => Sys2Proof.Machine.execHandbackDone pos body s
  | .standbyWrite tenant valid standby idle received => Sys2Proof.Machine.execStandbyWrite tenant valid standby idle received s
  | .tamperMessageReceived pos source rank => Sys2Proof.Machine.execTamperMessageReceived pos source rank s
  | .potOwnerChange page kind tenant before after => Sys2Proof.Machine.execPotOwnerChange page kind tenant before after s
  | .gateCall core word tag pc regs => Sys2Proof.Machine.execGateCall core word tag pc regs s
  | .gateReturn core regs => Sys2Proof.Machine.execGateReturn core regs s
  | .worldInterrupt core world guest pc regs => Sys2Proof.Machine.execWorldInterrupt core world guest pc regs s
  | .wdogKick value => Sys2Proof.Machine.execWdogKick value s
  | .wdogExpire => Sys2Proof.Machine.execWdogExpire s
  | .holdRelease blocks => Sys2Proof.Machine.execHoldRelease blocks s
  | .mpuCommit mpu => Sys2Proof.Machine.execMpuCommit mpu s
  | .mpuCommitEffect mpu => Sys2Proof.Machine.execMpuCommitEffect mpu s
  | .policyEval rid => Sys2Proof.Machine.execPolicyEval rid s
  | .meshAlarm pair kind => Sys2Proof.Machine.execMeshAlarm pair kind s
  | .meshReseed => Sys2Proof.Machine.execMeshReseed s
  | .tamperPinAlarm pin kind => Sys2Proof.Machine.execTamperPinAlarm pin kind s
  | .tempSample sensor0 sensor1 aux core => Sys2Proof.Machine.execTempSample sensor0 sensor1 aux core s
  | .supplyHigh aux => Sys2Proof.Machine.execSupplyHigh aux s
  | .supplyResetLevel aux => Sys2Proof.Machine.execSupplyResetLevel aux s
  | .brownoutWarn aux => Sys2Proof.Machine.execBrownoutWarn aux s
  | .brownoutEnd aux => Sys2Proof.Machine.execBrownoutEnd aux s
  | .glitch kind => Sys2Proof.Machine.execGlitch kind s
  | .vbatSample mv => Sys2Proof.Machine.execVbatSample mv s
  | .zeroizeClearDone => Sys2Proof.Machine.execZeroizeClearDone s
  | .throttleEnd => Sys2Proof.Machine.execThrottleEnd s
  | .haltRelease => Sys2Proof.Machine.execHaltRelease s
  | .haltQuietTimer => Sys2Proof.Machine.execHaltQuietTimer s
  | .outAck => Sys2Proof.Machine.execOutAck s
  | .backupTakeover => Sys2Proof.Machine.execBackupTakeover s
  | .backupSample source kind => Sys2Proof.Machine.execBackupSample source kind s
  | .backupResample alarm => Sys2Proof.Machine.execBackupResample alarm s
  | .backupTimeSet value => Sys2Proof.Machine.execBackupTimeSet value s
  | .blogAck => Sys2Proof.Machine.execBlogAck s
  | .bistStart source window => Sys2Proof.Machine.execBistStart source window s
  | .bistWindowEnd present kind => Sys2Proof.Machine.execBistWindowEnd present kind s
  | .coldReset porst => Sys2Proof.Machine.execColdReset porst s
  | .froCheckDone count => Sys2Proof.Machine.execFroCheckDone count s
  | .settleEnd refclk lock => Sys2Proof.Machine.execSettleEnd refclk lock s
  | .refclkRetryTimer => Sys2Proof.Machine.execRefclkRetryTimer s
  | .clockFailover => Sys2Proof.Machine.execClockFailover s
  | .froFail => Sys2Proof.Machine.execFroFail s
  | .bootRom => Sys2Proof.Machine.execBootRom s
  | .parkEnter => Sys2Proof.Machine.execParkEnter s
  | .parkComplete => Sys2Proof.Machine.execParkComplete s
  | .parkExit => Sys2Proof.Machine.execParkExit s
  | .blockIdleGate block => Sys2Proof.Machine.execBlockIdleGate block s
  | .governorTick busy => Sys2Proof.Machine.execGovernorTick busy s
  | .oppointWrite point cap received => Sys2Proof.Machine.execOppointWrite point cap received s
  | .warmResetCmd confirm => Sys2Proof.Machine.execWarmResetCmd confirm s
  | .ensembleResetCmd confirm => Sys2Proof.Machine.execEnsembleResetCmd confirm s
  | .ensembleResetReceived => Sys2Proof.Machine.execEnsembleResetReceived s
  | .powerCycleCmd confirm => Sys2Proof.Machine.execPowerCycleCmd confirm s
  | .pwrReqTimeout => Sys2Proof.Machine.execPwrReqTimeout s
  | .backupReset => Sys2Proof.Machine.execBackupReset s
  | .bbkRewrap => Sys2Proof.Machine.execBbkRewrap s
  | .dbgNewChallenge => Sys2Proof.Machine.execDbgNewChallenge s
  | .dbgRevoke => Sys2Proof.Machine.execDbgRevoke s
  | .challengeExpire => Sys2Proof.Machine.execChallengeExpire s
  | .debugAuthExpire => Sys2Proof.Machine.execDebugAuthExpire s
  | .tapInstruction ins => Sys2Proof.Machine.execTapInstruction ins s
  | .debugMasterAccess addr len write data => Sys2Proof.Machine.execDebugMasterAccess addr len write data s
  | .recordWrite cut => Sys2Proof.Machine.execRecordWrite cut s
  | .freezeSet => Sys2Proof.Machine.execFreezeSet s
  | .freezeClear => Sys2Proof.Machine.execFreezeClear s
  | .freezeTimeout => Sys2Proof.Machine.execFreezeTimeout s
  | .pmcWindow tick level => Sys2Proof.Machine.execPmcWindow tick level s
  | .unparkComplete => Sys2Proof.Machine.execUnparkComplete s
  | .alarmConditionClear source => Sys2Proof.Machine.execAlarmConditionClear source s
  | .lowWordRead fn off => Sys2Proof.Machine.execLowWordRead fn off s

end Sys2Proof.Machine
end

