-- ==== Sys2Proof/Machine/Tick.lean ====
section
/-! DEFINITION. The passing of a millisecond on an empty queue. -/
namespace Sys2Proof.Machine

/-- Level-mode counters of a tenant page over a millisecond (R442, R448): the cycles counted are free values. -/
def Die.tickLevels (d : Die) (fn : Nat) : Die :=
  (List.range 8).foldl (fun d k =>
    if d.hasAt2 .PMC_TEN_SEL_ENABLE fn k && d.hasAt2 .PMC_TEN_SEL_LEVEL fn k &&
        eventHasTenant (d.getAt2 .PMC_TEN_SEL_BLOCK fn k) (d.getAt2 .PMC_TEN_SEL_EVENT fn k)
    then d.wrapAt2 .PMC_TEN_CNT_COUNT fn k (Config.levelCycles d.nowMs fn k) else d) d

/-- Counts of a tenant page that run on CLK_SLOW at its nominal 125 MHz (R448, R390). -/
def Die.tickTenants (d : Die) : Die :=
  allFns.foldl (fun d fn =>
    if d.hasAt .QUE_PAGE_STATUS_READY fn then (d.wrapAt2 .PMC_TEN_CYCLES_CYCLES fn 0 125000).tickLevels fn else d) d

/-- The backup timestamp over millisecond `t` (R386). -/
def Die.backupTick (d : Die) (t : Nat) : Die :=
  if d.has .TMP_BACKUP_STATUS_RUNNING then
    let n := 65536 * d.get .TMP_BACKUP_TIME_SECONDS + d.get .TMP_BACKUP_TIME_FRACTION + (65536 * t / 1000 - 65536 * (t - 1) / 1000)
    (d.set .TMP_BACKUP_TIME_SECONDS (n / 65536)).set .TMP_BACKUP_TIME_FRACTION n
  else d

/-- OP_HOURS: the die has run for another 0.1 h (R435). -/
def Die.hoursTick (d : Die) : Die :=
  if d.clk.phase == .stopped || d.tmp.backup.active then d
  else if d.evr.hoursMs + 1 < 360000 then { d with evr := { d.evr with hoursMs := d.evr.hoursMs + 1 } }
  else { d with evr := { d.evr with hoursMs := 0 } }.add .EVR_OP_HOURS_VALUE 1

/-- One millisecond of CLK_SLOW: the model's clock and the counters the manual drives by time alone (log 1): the domain
time, the backup timestamp, the operating hours, the watchdog and the seconds left of a ceremony and a debug authorisation.
Events at the end of a count are commands of their own (log 208). -/
def Die.tick (d : Die) : Die :=
  let t := d.nowMs + 1
  let d1 := { d with nowMs := t }
  let d2 := d1.tickTenants.wrap .ENS_DOMAIN_TIME_VALUE 1
  let d3 := if d2.wdogRuns then d2.sub .WLD_WDOG_STATUS_REMAINING_MS 1 else d2
  let d3 := (d3.backupTick t).hoursTick
  if t % 1000 == 0 then (d3.sub .KEY_CEREMONY_STATUS_REMAINING_S 1).sub .DBG_STATUS_REMAINING_S 1 else d3

/-- What a step does on an empty queue. -/
def tickStep (s : State) : Out := s.act fun _ d => d.tick

end Sys2Proof.Machine
end

