-- ==== Sys2Proof/Safety.lean ====
section
/-! DEFINITION. What counts as a sound state, and the terms in which the claims speak: what a command leaves alone, and when a
request passes the checks that every request meets first. -/
namespace Sys2Proof.Safety

open Sys2Proof.Machine

/-- No write to host memory is left posted, and no store alarm is left due: so it is between commands. -/
abbrev Settled (s : State) : Prop := s.die.posted = [] ∧ s.die.mlf.alarmDue = none

/-- Host memory is in its canonical form, and nothing of a command is left over. -/
abbrev Canonical (s : State) : Prop := memWf s.mem = true ∧ Settled s

/-- The OTP `t` holds every codeword bit that `s` holds, and no fewer journal entries (R417, R421). -/
abbrev OtpKept (s t : Otp) : Prop :=
  s.code0 &&& t.code0 = s.code0 ∧ s.code1 &&& t.code1 = s.code1 ∧ s.code2 &&& t.code2 = s.code2 ∧
    s.journal.length ≤ t.journal.length ∧ s.serial = t.serial ∧ s.settle = t.settle

/-- The blocks of a die, beside its registers; `mem` is host memory, which a die changes by the writes it posts. -/
inductive Block where
  | mem | out | nowMs | que | rcp | kft | mlf | con | ntt | key | rng | ten | tin | ens | wld | tmp | clk | lcs | evr
  deriving DecidableEq, Repr

/-- A block is the same in two dies. -/
def Block.Same (a b : Die) : Block → Prop
  | .mem => b.posted = a.posted
  | .out => b.out = a.out
  | .nowMs => b.nowMs = a.nowMs
  | .que => b.que = a.que
  | .rcp => b.rcp = a.rcp
  | .kft => b.kft = a.kft
  | .mlf => b.mlf = a.mlf
  | .con => b.con = a.con
  | .ntt => b.ntt = a.ntt
  | .key => b.key = a.key
  | .rng => b.rng = a.rng
  | .ten => b.ten = a.ten
  | .tin => b.tin = a.tin
  | .ens => b.ens = a.ens
  | .wld => b.wld = a.wld
  | .tmp => b.tmp = a.tmp
  | .clk => b.clk = a.clk
  | .lcs => b.lcs = a.lcs
  | .evr => b.evr = a.evr

/-- Every element of every register field but those of `fs` reads as before. -/
def RegsBut (fs : List Fld) (a b : Die) : Prop := ∀ (f : Fld) (i j : Nat), f ∉ fs → b.getAt2 f i j = a.getAt2 f i j

/-- From `a` to `b` nothing changes but the blocks `bs` and the register fields `fs`. -/
def Keeps (bs : List Block) (fs : List Fld) (a b : Die) : Prop := (∀ k : Block, k ∉ bs → k.Same a b) ∧ RegsBut fs a b

/-- From `a` to `b` nothing changes but the blocks `bs`, the register fields `fs`, and the fields of the page of function `fn` that a
tenant reset clears. -/
def KeepsPage (fn : Nat) (bs : List Block) (fs : List Fld) (a b : Die) : Prop :=
  (∀ k : Block, k ∉ bs → k.Same a b) ∧
    ∀ (f : Fld) (i j : Nat), f ∉ fs → ¬(f.info.page = true ∧ f.info.cls = .tenant ∧ i % 65536 = fn) → b.getAt2 f i j = a.getAt2 f i j

/-- From `s` to `t` nothing changes but the blocks `bs` and the register fields `fs`: not host memory, where `bs` does not hold
it, not the other blocks and fields, not the queue of commands, not the OTP. -/
def Frame (bs : List Block) (fs : List Fld) (s t : State) : Prop :=
  t.pending = s.pending ∧ t.otp = s.otp ∧ (.mem ∉ bs → t.mem = s.mem) ∧ Keeps (.mem :: bs) fs s.die t.die

/-- As `Frame`, for a command that may write the store: the die that the command leaves differs from the one before in the blocks
`bs` and the fields `fs` alone; the end of the command then presents the alarm of an integrity failure that found the poison list
full, where one is due (R160), and takes the posted writes to host memory. -/
def StoreFrame (bs : List Block) (fs : List Fld) (s t : State) : Prop := ∃ d : Die, Keeps bs fs s.die d ∧ t = s.finish d

/-- Command `c` answers a next state: the one that the effect `f` on the die leaves, with its posted writes in host memory. -/
abbrev Answers (c : Instr) (s : State) (f : Env → Die → Die) : Prop := exec c s = .next (s.after f)

/-- Command `c` answers a next state, of which `P` holds. -/
def Does (c : Instr) (s : State) (P : State → Prop) : Prop := ∃ t, exec c s = .next t ∧ P t

/-- The fields that a report changes when it is lost (R436). -/
def lossFlds : List Fld := [.EVR_LOST_VALUE, .EVR_EVENT_LOST]

/-- The fields that a refused burst changes (R355). -/
def mpuFlds : List Fld :=
  [.MPU_FAULT_INFO_COUNT, .MPU_FAULT_ADDR_ADDR, .MPU_FAULT_INFO_WRITE, .MPU_FAULT_INFO_LOCKED, .MPU_FAULT_INFO_LEN, .WLD_EVENT_MPU_FAULT]

/-- What a write of a store slot changes, with its path in the version tree, its mirroring and its failures (R145 to R150, R157, R355). -/
def storeBlocks : List Block := [.mem, .out, .que, .kft, .mlf, .ens, .evr]
def storeFlds : List Fld :=
  [.MLF_EVENT_RESEAL_STALL, .MLF_RESEAL_COUNT_COUNT, .MLF_INTEG_COUNT_COUNT, .MLF_INTEG_ADDR_OFFSET, .MLF_INTEG_INFO_TENANT,
   .MLF_INTEG_INFO_ADOPTED_SLICE, .MLF_INTEG_INFO_KIND, .MLF_INTEG_INFO_LEVEL, .MLF_EVENT_INTEGRITY, .MLF_EVENT_POISON_FULL] ++
    mpuFlds ++ lossFlds

/-- What a notification changes (R59 to R61, R68, R285). -/
def ntfBlocks : List Block := [.mem, .out, .que, .ten, .ens, .evr]
def ntfFlds : List Fld :=
  [.QUE_NTF_TAIL_INDEX, .QUE_NTF_LOST_COUNT, .TEN_MIG_UNTRACKED_VALUE, .PMC_TEN_CNT_COUNT] ++ mpuFlds ++ lossFlds

/-- What completing a request changes (R55 to R61, R68, R108, R194, R195, R209, R234, R236, R279): replies and notifications, with
what they meet, the request's use of a key, its handshake context and its place in an engine. -/
def replyBlocks : List Block := [.key, .kft, .mlf, .con, .ntt, .rng] ++ ntfBlocks
def replyFlds : List Fld :=
  [.QUE_RPL_TAIL_INDEX, .QUE_PAIR_STATUS_STATE, .QUE_PAIR_STATUS_ERR_CODE, .CON_ABORT_COUNT_COUNT, .NTT_HS_FAILED_COUNT,
   .KEY_TEN_EXHAUSTED_COUNT] ++ storeFlds ++ ntfFlds

/-- What counting a use of a key changes beside that: its policy program (R364, R366). -/
def useFlds : List Fld := [.WLD_POLICY_EVALS_COUNT, .WLD_POLICY_DENIES_COUNT, .WLD_EVENT_POLICY_STEP_LIMIT] ++ replyFlds

/-- What the mismatch of a lane changes (R95, R97, R99). -/
def laneFlds : List Fld :=
  [.LANE_MISMATCH_COUNT_COUNT, .LANE_LAST_MISMATCH_KIND, .LANE_LAST_MISMATCH_TENANT, .LANE_STATUS_STATE, .LANE_STATUS_HELD]

/-- What the mismatch of a hash lane changes (R100). -/
def hashFlds : List Fld :=
  [.HASH_MISMATCH_COUNT_COUNT, .HASH_LAST_MISMATCH_KIND, .HASH_LAST_MISMATCH_TENANT, .HASH_STATUS_STATE]

/-- What stopping work, or going on with requests that waited, changes (R58, R104, R120, R137, R278). -/
def workBlocks : List Block := [.rcp] ++ replyBlocks

/-- The fields that going on with requests that waited changes: a lock or an interlock freed lets lookups, relocations and writes go
on (R120, R121, R123, R128, R136, R137). -/
def goFlds : List Fld :=
  [.KFT_TEN_USED_SLOTS, .KFT_MAIN_USED_COUNT, .KFT_CRUMB_USED_COUNT, .KFT_RELOC_COUNT_COUNT, .KFT_EVENT_QUOTA_WARN,
   .ENS_STEER_COUNT_SESSIONS] ++ useFlds

/-- What an alarm and its response change (R376, R378 to R380, R386, R221): work stopped by a Halt, what is zeroized, and the alarm's own
registers. -/
def alarmBlocks : List Block := [.rcp, .tmp, .lcs] ++ replyBlocks
def alarmFlds : List Fld :=
  [.TMP_ALARM_SOURCES, .TMP_COND_SOURCES, .TMP_STATUS_OUT, .TMP_STATUS_RANK, .TMP_STATUS_ACTIVE, .TMP_STATUS_HALTED,
   .TMP_STATUS_THROTTLED, .TMP_BACKUP_STATUS_NEXT, .TMP_BACKUP_STATUS_NEW, .TMP_BACKUP_STATUS_BBK_ZEROIZED, .TMP_BLOG_WORD,
   .DBG_STATUS_LEVEL, .DBG_STATUS_REMAINING_S, .DBG_STATUS_SIGNER, .KEY_ROOT_STATUS_ESK_VALID, .KEY_ROOT_STATUS_SHARE_HELD,
   .KEY_ROOT_STATUS_BBK_VALID] ++ replyFlds

/-- Request `r`, named `rid`, passes what every request meets first: it is fetched and not handled yet, has the opcode, may start
(R58), needs no translation (R288), its header is clean (R63), and the die is not scrapped (R415). -/
abbrev Accepted (d : Die) (rid op : Nat) (r : Req) : Prop :=
  d.req? rid = some r ∧ r.opcode = op ∧ r.stage = .fetched ∧ d.startable r = true ∧ d.untranslated r = false ∧
    d.scrapped = false ∧ r.headerOk = true

/-- The ranges of the common body pass the checks of R63 and R64. -/
abbrev RangesOk (d : Die) (r : Req) : Prop :=
  r.lengthsOk = true ∧ d.dmaOk r.tenant r.inAddr r.inLen false = true ∧ d.dmaOk r.tenant r.outAddr r.outLen true = true

/-- The input block of a handshake step stands in the tenant's memory as the descriptor says, with the transcript bytes `t` and the
data `data` (R205). -/
abbrev StepInput (s : State) (r : Req) (t data : Bytes) : Prop :=
  RangesOk s.die r ∧ stepHeaderOk r = true ∧ r.ctxAddr % 64 = 0 ∧ s.die.dmaOk r.tenant r.ctxAddr 1024 false = true ∧
    s.die.dmaOk r.tenant r.ctxAddr 1024 true = true ∧ r.inLen = 8 + t.length + data.length ∧
    leNat (dmaRead s.env s.die r.inAddr 4) = t.length ∧ leNat (dmaRead s.env s.die (r.inAddr + 4) 4) = data.length ∧
    dmaRead s.env s.die (r.inAddr + 8) t.length = t ∧ dmaRead s.env s.die (r.inAddr + 8 + t.length) data.length = data

/-- Context `c` is open for the tenant of `r`, no other step of it runs, and the context blob at CTX_ADDR is the one the die
wrote for it (R204, R208). -/
abbrev OpenCtx (s : State) (r : Req) (c : HsCtx) : Prop :=
  s.die.ntt.ctxKeyGen ≠ 0 ∧ c.ctxId < 2 ^ 32 ∧ c.step < 2 ^ 32 ∧ s.die.ctx? c.ctxId = some c ∧ c.tenant = r.tenant ∧
    (s.die.ctxBusy c = false ∨ c.busy = r.rid) ∧ dmaRead s.env s.die r.ctxAddr 1024 = s.die.blobBytes c

end Sys2Proof.Safety
end

