-- ==== Sys2Proof/WellFormed.lean ====
section
/-! DEFINITION. Operand ranges of the commands: function, ring pair, vector, lane, core, MPU, page, source, position and
tenant numbers that exist, and access sizes of R47. A command named by a request or write identifier has no range. -/
namespace Sys2Proof

/-- A function number (R45). -/
def wfFn (n : Nat) : Bool := decide (n < 256)
/-- A ring pair (R48). -/
def wfPair (n : Nat) : Bool := decide (n < 16)
/-- A position (R2). -/
def wfPos (n : Nat) : Bool := decide (n < 8)
/-- An ensemble tenant number (R6). -/
def wfTenant (n : Nat) : Bool := decide (n < 2048)
/-- An access size (R47). -/
def wfSize (n : Nat) : Bool := n == 4 || n == 8
/-- An alarm source (R367). -/
def wfSource (n : Nat) : Bool := decide (1 ≤ n ∧ n ≤ 0x18)
/-- An instruction word. -/
def wfWord (n : Nat) : Bool := decide (n < 2 ^ 32)

/-- A command whose operands name things that the block has. -/
def Instr.wf : Instr → Bool
  | .registerWrite _ off size _ => decide (off < 0x2000000) && wfSize size
  | .mmioBadAccess fn _ _ _ => wfFn fn
  | .linkUp rate tx rx _ => decide (1 ≤ rate ∧ rate ≤ 3) && decide (tx ≤ 64) && decide (rx ≤ 64)
  | .linkTrainFail rate => decide (1 ≤ rate ∧ rate ≤ 3)
  | .linkTrainRetry => true
  | .retrain rate tx rx => decide (1 ≤ rate ∧ rate ≤ 3) && decide (tx ≤ 64) && decide (rx ≤ 64)
  | .laneRepairRetrain rate tx rx => decide (1 ≤ rate ∧ rate ≤ 3) && decide (tx ≤ 64) && decide (rx ≤ 64)
  | .linkDown _ => true
  | .correctableError => true
  | .unsupportedRequest _ => true
  | .malformedTlp _ _ => true
  | .completionTimeout _ _ => true
  | .descriptorReadError fn pair _ => wfFn fn && wfPair pair
  | .bufferReadError _ _ => true
  | .storeReadError _ _ => true
  | .vfEnable => true
  | .msixVectorUnmask fn vec => wfFn fn && decide (vec < 32)
  | .functionLevelReset fn => wfFn fn
  | .queReqTailDb fn pair _ => wfFn fn && wfPair pair
  | .queRplHeadDb fn pair _ => wfFn fn && wfPair pair
  | .queNtfHeadDb fn _ => wfFn fn
  | .descriptorFetch fn pair => wfFn fn && wfPair pair
  | .pairEnable fn pair _ => wfFn fn && wfPair pair
  | .pairDisable fn pair => wfFn fn && wfPair pair
  | .pairDrainDone fn pair => wfFn fn && wfPair pair
  | .ntfEnable fn _ => wfFn fn
  | .ntfDisable fn => wfFn fn
  | .rplIrqTimer fn pair => wfFn fn && wfPair pair
  | .ntfIrqTimer fn => wfFn fn
  | .badDescriptorOpcode _ => true
  | .espIn _ => true
  | .espOut _ => true
  | .dtlsIn _ => true
  | .dtlsOut _ => true
  | .aeadSeal _ => true
  | .aeadOpen _ => true
  | .hash _ => true
  | .hmacGen _ => true
  | .hmacVerify _ => true
  | .aeadCancel _ => true
  | .ringFwdReq src _ hops tenant desc _ => wfPos src && decide (hops ≤ 2) && wfTenant tenant && decide (desc.length = 64)
  | .flushReadDone _ => true
  | .ringFwdCpl src _ _ => wfPos src
  | .bucketReadComplete _ => true
  | .interlockGranted _ => true
  | .bucketWaitTimeout _ => true
  | .laneRecordDone _ _ => true
  | .streamChunkDone _ _ => true
  | .scrubChunkDone _ => true
  | .laneQuarantineCmd lane => decide (lane < 8)
  | .laneReleaseCmd lane => decide (lane < 8)
  | .laneKatDone lane _ => decide (lane < 8)
  | .hashQuarantineCmd lane => decide (lane < 4)
  | .hashReleaseCmd lane => decide (lane < 4)
  | .hashKatDone lane _ => decide (lane < 4)
  | .hashBlockDone _ _ => true
  | .recSteerWrite index pos => decide (index < 64) && wfPos pos
  | .steerUpdateReceived index pos _ => decide (index < 64) && wfPos pos
  | .tblLock _ => true
  | .tblUnlock _ => true
  | .tblFind _ => true
  | .tblRead _ => true
  | .tblUpdate _ => true
  | .tblDelete _ => true
  | .tblDeleteComplete _ => true
  | .lockTimeout _ => true
  | .relocate _ => true
  | .tableMinuteTick => true
  | .sweepVisit _ => true
  | .sweepReadRetry _ => true
  | .agedBatchTimer tenant _ => wfTenant tenant
  | .slotWriteComplete _ => true
  | .mirrorReceived src _ => wfPos src
  | .mirrorAck _ => true
  | .mirrorAckTimeout _ => true
  | .resealChildDone level _ child _ => decide (1 ≤ level ∧ level ≤ 5) && decide (child < 32)
  | .poisonReformat index => decide (index < 256)
  | .poisonReformatDone => true
  | .archiveBump confirm _ _ => decide (confirm < 256)
  | .conPrim _ => true
  | .ecKeygen _ => true
  | .ecdh _ => true
  | .ecdsaSign _ => true
  | .ecdsaVerify _ => true
  | .eddsaSign _ => true
  | .eddsaVerify _ => true
  | .x25519Keygen _ => true
  | .x25519Agree _ => true
  | .rsaPriv _ => true
  | .rsaPub _ => true
  | .curveLoad _ => true
  | .curveUnload _ => true
  | .pointCheck _ => true
  | .conCancel _ => true
  | .conDispatch core => decide (core < 24)
  | .conYieldPoint _ => true
  | .conJobDone _ _ => true
  | .conQuarantineCmd core => decide (core < 24)
  | .conReleaseCmd core => decide (core < 24)
  | .conKatDone core _ => decide (core < 24)
  | .mlkemKeygen _ => true
  | .mlkemEncaps _ => true
  | .mlkemDecaps _ => true
  | .mldsaKeygen _ => true
  | .mldsaSign _ => true
  | .mldsaVerify _ => true
  | .nttCancel _ => true
  | .nttDispatch core => decide (core < 4)
  | .nttAttemptBoundary _ => true
  | .nttJobDone _ _ => true
  | .nttQuarantineCmd core => decide (core < 4)
  | .nttReleaseCmd core => decide (core < 4)
  | .nttKatDone core _ => decide (core < 4)
  | .hsOpen _ => true
  | .hsAddke _ => true
  | .hsProtect _ => true
  | .hsUnprotect _ => true
  | .hsSign _ => true
  | .hsVerifyPeer _ => true
  | .hsFinished _ => true
  | .hsInstall _ => true
  | .hsResume _ => true
  | .hsKeyupdate _ => true
  | .hsFree _ => true
  | .hsContextIdleTimeout _ => true
  | .hsContextRetainTimeout _ => true
  | .keyGenerate _ => true
  | .keyDerive _ => true
  | .keyAttrSet _ => true
  | .keyDelete _ => true
  | .keyInfo _ => true
  | .keyExport _ => true
  | .keyRestore _ => true
  | .keyWrap _ => true
  | .keyUnwrap _ => true
  | .attest _ => true
  | .cerBegin _ => true
  | .cerApprove _ _ _ => true
  | .cerCancel _ => true
  | .ceremonyLapse => true
  | .rngDrbg _ => true
  | .rngFullEntropy _ => true
  | .rngHeadServed _ => true
  | .rngHoldTimeout _ => true
  | .rngWindowClose rct apt => decide (rct.length = 4) && decide (apt.length = 4)
  | .drbgQueueFill => true
  | .drbgReseedTimer inst => decide (inst < 8)
  | .rngHealthFail source _ => decide (source < 4)
  | .rngRerunClearTimer => true
  | .rngInject source => decide (source < 4)
  | .rngRawRead fn => wfFn fn
  | .activate fn => wfFn fn
  | .quiesce fn => wfFn fn
  | .quiesceDone fn => wfFn fn
  | .quiesceLate fn => wfFn fn
  | .resume fn => wfFn fn
  | .reset fn => wfFn fn
  | .tenantResetForced fn => wfFn fn
  | .tenantResetClear fn => wfFn fn
  | .remove fn _ => wfFn fn
  | .handleRegionClear fn => wfFn fn
  | .tenCmdRefused fn cmd => wfFn fn && decide (cmd < 16)
  | .schedEpoch => true
  | .migLogStart _ => true
  | .migHarvest _ => true
  | .migLogStop _ => true
  | .stewardSample => true
  | .stewardOpEval _ _ => true
  | .stewardRequest _ => true
  | .tinStage _ _ => true
  | .tinActivate _ _ => true
  | .tinDelta _ _ => true
  | .tinDiscard _ _ => true
  | .ensEnvelopeMakeJoin _ => true
  | .ensEnvelopeMakeRoot _ => true
  | .ensEnvelopeMakeKey _ _ => true
  | .ensEnvelopeTakeTuple _ _ => true
  | .ensEnvelopeTakeJoin _ _ => true
  | .ensEnvelopeTakeRoot _ => true
  | .ensEnvelopeTakeKey _ => true
  | .ensEnvelopeTakeActivation _ => true
  | .ensReport _ => true
  | .tuplePublish => true
  | .presenceExpire member => decide (member < 4096)
  | .memberQuarantine member => decide (member < 4096)
  | .activationTime => true
  | .activationRetry => true
  | .activationMissed => true
  | .lcsSubmitTransition _ => true
  | .lcsSubmitWithdraw _ => true
  | .lcsSubmitDebugAuth _ => true
  | .ringLinkUp _ _ lcs ident repaired => decide (lcs < 7) && decide (ident.length = 48) && decide (repaired ≤ 16)
  | .ringLinkDown _ _ => true
  | .ringFlitError _ => true
  | .ringRekey _ => true
  | .discover _ _ _ => true
  | .discoveryTimeout => true
  | .ensembleStart _ => true
  | .eskReceived esk _ _ _ _ => decide (esk.length = 0 ∨ esk.length = 32)
  | .heartbeatTimer => true
  | .heartbeatMiss _ => true
  | .neighbourReport src _ => wfPos src
  | .failingReceived pos _ => wfPos pos
  | .linkGraceTimeout pos => wfPos pos
  | .declarationReceived pos => wfPos pos
  | .serveMapUpdate pos server => wfPos pos && wfPos server
  | .handback pos _ => wfPos pos
  | .handbackDone pos _ => wfPos pos
  | .standbyWrite tenant _ standby _ _ => wfTenant tenant && wfTenant standby
  | .tamperMessageReceived pos source rank => wfPos pos && wfSource source && decide (rank ≤ 4)
  | .potOwnerChange page kind tenant _ _ => decide (page < 8192) && decide (kind < 4) && wfTenant tenant
  | .gateCall core word tag _ regs => decide (core < 4) && wfWord word && wfWord tag && decide (regs.length = 24)
  | .gateReturn core regs => decide (core < 4) && decide (regs.length = 24)
  | .worldInterrupt core world guest _ regs => decide (core < 4) && decide (world < 3) && wfTenant guest && decide (regs.length = 24)
  | .wdogKick _ => true
  | .wdogExpire => true
  | .holdRelease _ => true
  | .mpuCommit mpu => decide (mpu < 263)
  | .mpuCommitEffect mpu => decide (mpu < 263)
  | .policyEval _ => true
  | .meshAlarm pair _ => decide (pair < 4)
  | .meshReseed => true
  | .tamperPinAlarm pin _ => decide (pin < 3)
  | .tempSample _ _ _ _ => true
  | .supplyHigh _ => true
  | .supplyResetLevel _ => true
  | .brownoutWarn _ => true
  | .brownoutEnd _ => true
  | .glitch kind => decide (kind < 3)
  | .vbatSample _ => true
  | .zeroizeClearDone => true
  | .throttleEnd => true
  | .haltRelease => true
  | .haltQuietTimer => true
  | .outAck => true
  | .backupTakeover => true
  | .backupSample source _ => decide (1 ≤ source ∧ source ≤ 7)
  | .backupResample _ => true
  | .backupTimeSet value => decide (value < 2 ^ 64)
  | .blogAck => true
  | .bistStart source _ => wfSource source
  | .bistWindowEnd _ _ => true
  | .coldReset _ => true
  | .froCheckDone _ => true
  | .settleEnd _ _ => true
  | .refclkRetryTimer => true
  | .clockFailover => true
  | .froFail => true
  | .bootRom => true
  | .parkEnter => true
  | .parkComplete => true
  | .parkExit => true
  | .blockIdleGate block => decide (block < 20)
  | .governorTick busy => decide (busy.length = 10)
  | .oppointWrite _ _ _ => true
  | .warmResetCmd confirm => decide (confirm < 256)
  | .ensembleResetCmd confirm => decide (confirm < 256)
  | .ensembleResetReceived => true
  | .powerCycleCmd confirm => decide (confirm < 256)
  | .pwrReqTimeout => true
  | .backupReset => true
  | .bbkRewrap => true
  | .dbgNewChallenge => true
  | .dbgRevoke => true
  | .challengeExpire => true
  | .debugAuthExpire => true
  | .tapInstruction _ => true
  | .debugMasterAccess _ len _ _ => decide (len ≤ 4096)
  | .recordWrite _ => true
  | .freezeSet => true
  | .freezeClear => true
  | .freezeTimeout => true
  | .pmcWindow _ _ => true
  | .unparkComplete => true
  | .alarmConditionClear source => wfSource source
  | .lowWordRead fn off => wfFn fn && decide (off % 4 = 0)

end Sys2Proof
end

