-- ==== Sys2Proof/Certificates/Slice0/Obligations.lean ====
section
/-! DEFINITION. The statements for the provers. Each cites the rules of spec/ that it states; a premise `Settled` says that no write is
left posted, as holds between commands. -/
open Sys2Proof Sys2Proof.Machine Sys2Proof.Safety

/-! ## The host link (spec/02) -/

/-- R39, R40, R42, R44, R70: a training that succeeds, at a rate within the limit and with faults that repair covers, leaves the rate and
the repaired lanes in HLK_STATUS and clears TRAIN_FAIL, and a retrain sets RETRAINED; the Data Link Layer coming up answers
configuration requests with Request Retry Status until the physical function is ready. A fault beyond repair leaves the link down:
one met while the link runs is handled as a link that goes down. The lead die that hears of another die's link no longer counts it
as down. But for link events, waiting messages, a message to the lead and counts, nothing else changes, and no byte of host memory. -/
def Obligations.LinkTrains : Prop :=
  ∀ (s : State) (rate tx rx : Nat), Settled s →
    let up (t : State) : Prop := t.die.get .HLK_STATUS_LINK_UP = 1 ∧ t.die.get .HLK_STATUS_RATE = rate ∧
      t.die.get .HLK_STATUS_REPAIRED_TX = tx ∧ t.die.get .HLK_STATUS_REPAIRED_RX = rx ∧ t.die.get .HLK_STATUS_TRAIN_FAIL = 0
    let flds : List Fld := [.HLK_STATUS_RATE, .HLK_STATUS_REPAIRED_TX, .HLK_STATUS_REPAIRED_RX, .HLK_STATUS_TRAIN_FAIL,
      .HLK_EVENT_REPAIRED, .HLK_EVENT_RATE_CHANGED]
    (1 ≤ rate → rate ≤ s.die.maxRate → tx ≤ 4 → rx ≤ 4 →
      (s.die.clk.phase = .armed → s.die.get .HLK_STATUS_LINK_UP = 0 →
        Does (.linkUp rate tx rx none) s fun t => up t ∧ t.die.que.crs = !s.die.clk.booted ∧ t.die.que.reqs = s.die.que.reqs ∧
          Frame [.que, .out, .ens, .evr] (.HLK_STATUS_LINK_UP :: flds) s t) ∧
      (s.die.get .HLK_STATUS_LINK_UP = 1 →
        Does (.laneRepairRetrain rate tx rx) s fun t => up t ∧ t.die.get .HLK_EVENT_RETRAINED = 1 ∧ t.die.que.reqs = s.die.que.reqs ∧
          Frame [.que, .out] (.HLK_EVENT_RETRAINED :: flds) s t) ∧
      (s.die.get .HLK_STATUS_LINK_UP = 1 → s.die.clk.booted = true →
        Does (.retrain rate tx rx) s fun t => up t ∧ t.die.get .HLK_EVENT_RETRAINED = 1 ∧ t.die.get .HLK_CTL_RETRAIN = 0 ∧
          t.die.que.reqs = s.die.que.reqs ∧ Frame [.que, .out] (.HLK_EVENT_RETRAINED :: .HLK_CTL_RETRAIN :: flds) s t)) ∧
    (1 ≤ rate → rate ≤ s.die.maxRate → 4 < tx ∨ 4 < rx →
      Does (.linkUp rate tx rx none) s (Frame [] [] s) ∧
      (s.die.get .HLK_STATUS_LINK_UP = 1 → Answers (.laneRepairRetrain rate tx rx) s fun e d => d.linkDown e) ∧
      (s.die.get .HLK_STATUS_LINK_UP = 1 → s.die.clk.booted = true →
        Answers (.retrain rate tx rx) s fun e d => (d.access 0).linkDown e)) ∧
    (∀ p : Nat, s.die.isLead = true → p ≠ s.die.pos → Does (.linkUp rate tx rx (some p)) s fun t =>
      t.die.ens = { s.die.ens with hostDown := s.die.ens.hostDown.filter fun x => x.1 != p } ∧ Frame [.ens] [] s t)

/-- R39, R47, R69, R400: a training that fails at 16 GT/s sets TRAIN_FAIL and leaves a retry waiting, which the retry takes; one that
fails at a higher rate changes nothing. A correctable error is counted, up to the counter's last value. An Unsupported
Request, a malformed TLP or flow-control error, and an access of a bad size or alignment are logged with their header and class,
where the AER mask does not name them; the malformed TLP retrains a link that is up; the bad access completes with Completer
Abort. A read returns the high word that its function holds for its offset, else the word itself, and after it the function holds the
high word of the 64-bit register whose low word was read, and no other. Requests in flight are as they were. -/
def Obligations.LinkErrors : Prop :=
  ∀ s : State, Settled s →
    let logged (k : AerKind) (h : Bytes) : List AerEntry :=
      if s.die.que.aerMask.contains k then s.die.que.aer
      else s.die.que.aer ++ [{ kind := k, cls := if s.die.que.aerFatal.contains k then .fatal else .nonFatal, header := h }]
    (s.die.clk.phase = .armed → s.die.get .HLK_STATUS_LINK_UP = 0 →
      Does (.linkTrainFail 1) s fun t => t.die.get .HLK_STATUS_TRAIN_FAIL = 1 ∧ t.die.que.trainRetry = true ∧
        t.die.que.reqs = s.die.que.reqs ∧ Frame [.que, .out, .evr] (.HLK_STATUS_TRAIN_FAIL :: lossFlds) s t) ∧
    (∀ rate ∈ [2, 3], Does (.linkTrainFail rate) s (Frame [] [] s)) ∧
    (Does .linkTrainRetry s fun t => t.die.que = { s.die.que with trainRetry := false } ∧ Frame [.que] [] s t) ∧
    (Does .correctableError s fun t =>
      t.die.get .HLK_CORR_COUNT_COUNT = min (s.die.get .HLK_CORR_COUNT_COUNT + 1) (2 ^ 32 - 1) ∧
        Frame [.evr] [.HLK_CORR_COUNT_COUNT] s t) ∧
    (∀ h : Bytes, Does (.unsupportedRequest h) s fun t =>
      t.die.que = { s.die.que with aer := logged .unsupportedRequest h } ∧ Frame [.que] [] s t) ∧
    (∀ (h : Bytes) (flow : Bool), Does (.malformedTlp h flow) s fun t =>
      t.die.que.aer = logged (if flow then .flowControl else .malformedTlp) h ∧
        (s.die.get .HLK_STATUS_LINK_UP = 1 → t.die.get .HLK_EVENT_RETRAINED = 1) ∧ t.die.que.reqs = s.die.que.reqs ∧
        Frame [.que, .out] [.HLK_EVENT_RETRAINED] s t) ∧
    (∀ fn off : Nat, s.die.barOpen fn = true →
      (∀ (size : Nat) (write : Bool), ¬((size = 4 ∨ size = 8) ∧ off % size = 0) →
        Does (.mmioBadAccess fn off size write) s fun t => t.die.out = .completerAbort fn off :: s.die.out ∧
          t.die.que = { s.die.que with
            heldHigh := s.die.que.heldHigh.filter fun h => h.1 != fn,
            aer := logged .completerAbort (leBytes 8 off ++ leBytes 4 size ++ leBytes 1 (ofBool write)) } ∧
          Frame [.que, .out] [] s t) ∧
      (let held := s.die.que.heldHigh.find? fun h => h.1 == fn && h.2.1 == off
       let others := s.die.que.heldHigh.filter fun h => h.1 != fn
       Does (.lowWordRead fn off) s fun t =>
        t.die.out = .readData fn off ((held.map fun h => h.2.2).getD (s.die.readWord s.env fn off)) :: s.die.out ∧
          t.die.que = { s.die.que with
            heldHigh := if isWide fn off then others ++ [(fn, off + 4, s.die.readWord s.env fn (off + 4))] else others } ∧
          Frame [.que, .out] [] s t))

/-- R14, R64, R69, R71: a failed descriptor read, by an error, by poisoned data or by timeout, puts the running pair into ERROR with
ERR_CODE 0x03; a request that meets a failed buffer read completes ACCESS_FAULT, one that meets a failed store read before its
dispatch completes BUSY, each taken out of every queue first; an opcode that is reserved, undefined or a management operation
on a virtual function completes BAD_DESCRIPTOR with REASON 0x01. A completion that nothing waits for, a timeout and poisoned
data are logged with their header where the AER mask does not name them. -/
def Obligations.FailedReads : Prop :=
  ∀ s : State, Settled s →
    let logged (k : AerKind) (h : Bytes) : List AerEntry :=
      if s.die.que.aerMask.contains k then s.die.que.aer
      else s.die.que.aer ++ [{ kind := k, cls := if s.die.que.aerFatal.contains k then .fatal else .nonFatal, header := h }]
    let errs (h : Bytes) (c : Instr) : List AerEntry :=
      match c with
      | .completionTimeout _ _ => logged .completionTimeout h
      | .descriptorReadError _ _ (some x) | .bufferReadError _ (some x) | .storeReadError _ (some x) => logged .poisonedTlp x
      | _ => s.die.que.aer
    (∀ h : Bytes, Does (.completionTimeout h .unexpected) s fun t =>
      t.die.que = { s.die.que with aer := logged .unexpectedCompletion h } ∧ Frame [.que] [] s t) ∧
    (∀ (fn pair : Nat) (h : Bytes) (poison : Option Bytes), s.die.getAt2 .QUE_PAIR_STATUS_STATE fn pair = 1 →
      ∀ c ∈ [Instr.descriptorReadError fn pair poison, .completionTimeout h (.descriptor fn pair)],
      Does c s fun t => t.die.getAt2 .QUE_PAIR_STATUS_STATE fn pair = 3 ∧ t.die.getAt2 .QUE_PAIR_STATUS_ERR_CODE fn pair = 3 ∧
        t.die.que.reqs = s.die.que.reqs ∧ t.die.que.aer = errs h c ∧
        Frame ntfBlocks (ntfFlds ++ [.QUE_PAIR_STATUS_STATE, .QUE_PAIR_STATUS_ERR_CODE]) s t) ∧
    (∀ (rid : Nat) (r : Req) (h : Bytes) (poison : Option Bytes), s.die.req? rid = some r →
      (r.stage = .fetched ∨ r.stage = .waiting ∨ r.stage = .running →
        ∀ c ∈ [Instr.bufferReadError rid poison, .completionTimeout h (.buffer rid)],
        exec c s = .next (s.after fun e d0 =>
          let d := { d0 with que := { d0.que with aer := errs h c } }
          let rep := Reply.fail .accessFault (s.die.jobTail rid)
          match s.die.rcp.jobs.find? fun j => j.rid == rid, s.die.rcp.streams.find? fun j => j.rid == rid with
          | some j, _ => (d.forget rid).endJob e r j rep
          | none, some j => ((d.forget rid).output e r r.outAddr (zeros j.off)).complete e r { rep with length := j.off }
          | none, none =>
            (((if r.sess ≠ 0 ∧ r.stage = .running then d.leaveSession r.sess else d).forget rid).settleStamp e r .accessFault).complete
              e r rep)) ∧
      (r.stage = .fetched ∨ r.stage = .waiting →
        ∀ c ∈ [Instr.storeReadError rid poison, .completionTimeout h (.store rid)],
        exec c s = .next (s.after fun e d =>
          ({ d with que := { d.que with aer := errs h c } }.forget rid).fail e r .busy 0)) ∧
      (r.stage = .fetched → s.die.startable r = true → s.die.untranslated r = false →
        opcodeDefined r.opcode = false ∨ (0xF0 ≤ r.opcode ∧ r.fn? ≠ some 0) →
        Answers (.badDescriptorOpcode rid) s fun e d => d.fail e r .badDescriptor 1))

/-! ## Rings (spec/02) -/

/-- R45, R50, R51, R60, R68: a doorbell of a running pair or an enabled notification ring is taken as its driver wrote it; a
request tail too far from the head, or from the last accepted tail, stops the pair with ERR_CODE 0x01 or 0x02; an interrupt timer
that has run out, and the unmasking of a vector that is pending, send the vector's message; in the Mission state VF Enable presents
the virtual functions. -/
def Obligations.Doorbells : Prop :=
  ∀ (s : State) (fn pair n : Nat), Settled s →
    let quiet : QueState := (s.die.access fn).que
    (s.die.ready fn = true → s.die.getAt2 .QUE_PAIR_STATUS_STATE fn pair = 1 →
      (Does (.queRplHeadDb fn pair n) s fun t =>
        t.die.pairState fn pair = { s.die.pairState fn pair with replyHead := n % 2 ^ 32 } ∧ t.die.que = { quiet with pairs := t.die.que.pairs } ∧
          Frame [.que] [] s t) ∧
      (n % 2 ^ 32 ≠ (s.die.pairState fn pair).lastTail →
        let size := 2 ^ s.die.getAt2 .QUE_PAIR_CTL_SIZE_LOG2 fn pair
        let fromHead := idxSub n (s.die.getAt2 .QUE_REQ_HEAD_INDEX fn pair)
        let fromTail := idxSub n (s.die.pairState fn pair).lastTail
        (fromHead ≤ size → fromTail ≤ size → Does (.queReqTailDb fn pair n) s fun t =>
          t.die.pairState fn pair = { s.die.pairState fn pair with lastTail := n % 2 ^ 32 } ∧ t.die.que = { quiet with pairs := t.die.que.pairs } ∧
            Frame [.que] [] s t) ∧
        (size < fromHead ∨ size < fromTail → Does (.queReqTailDb fn pair n) s fun t =>
          t.die.getAt2 .QUE_PAIR_STATUS_STATE fn pair = 3 ∧
            t.die.getAt2 .QUE_PAIR_STATUS_ERR_CODE fn pair = (if size < fromHead then 1 else 2) ∧ t.die.que.reqs = s.die.que.reqs ∧
            Frame ntfBlocks (ntfFlds ++ [.QUE_PAIR_STATUS_STATE, .QUE_PAIR_STATUS_ERR_CODE]) s t))) ∧
    (s.die.ready fn = true → s.die.hasAt .QUE_NTF_CTL_ENABLE fn = true → s.die.getAt .QUE_NTF_LOST_COUNT fn = 0 →
      Does (.queNtfHeadDb fn n) s fun t => t.die.ntfState fn = { s.die.ntfState fn with head := n % 2 ^ 32 } ∧
        t.die.que = { quiet with ntfs := t.die.que.ntfs } ∧ Frame [.que] [] s t) ∧
    (s.die.canSend = true → ∀ vec : Nat,
      (s.die.barOpen fn = true → (s.die.msixVec fn vec).pending = true → Does (.msixVectorUnmask fn vec) s fun t =>
        t.die.out = .msi fn vec (s.die.msixVec fn vec).addr (s.die.msixVec fn vec).data :: s.die.out ∧
          t.die.msixVec fn vec = { s.die.msixVec fn vec with masked := false, pending := false } ∧ t.die.que.reqs = s.die.que.reqs ∧
          Frame [.que, .out] [] s t) ∧
      ((s.die.msixVec fn pair).masked = false → s.die.getAt2 .QUE_RPL_IRQ_TIME fn pair ≠ 0 → (s.die.pairState fn pair).sinceMsg ≠ 0 →
        Does (.rplIrqTimer fn pair) s fun t => t.die.pairState fn pair = { s.die.pairState fn pair with sinceMsg := 0 } ∧
          t.die.out = .msi fn pair (s.die.msixVec fn pair).addr (s.die.msixVec fn pair).data :: s.die.out ∧
          t.die.que.reqs = s.die.que.reqs ∧ Frame [.que, .out] [] s t) ∧
      ((s.die.msixVec fn 16).masked = false → s.die.getAt .QUE_NTF_CTL_IRQ_TIME fn ≠ 0 → (s.die.ntfState fn).sinceMsg ≠ 0 →
        Does (.ntfIrqTimer fn) s fun t => t.die.ntfState fn = { s.die.ntfState fn with sinceMsg := 0 } ∧
          t.die.out = .msi fn 16 (s.die.msixVec fn 16).addr (s.die.msixVec fn 16).data :: s.die.out ∧
          t.die.que.reqs = s.die.que.reqs ∧ Frame [.que, .out] [] s t)) ∧
    (s.die.get .LCS_STATE_STATE = 4 → s.die.que.crs = false → Does .vfEnable s fun t =>
      (∀ f : Nat, 1 ≤ f → f ≤ 255 → t.die.present f = true) ∧ t.die.que.reqs = s.die.que.reqs ∧ Frame [.que, .out, .evr] lossFlds s t)

/-- R50, R53, R54, R60, R275: enabling a pair or a notification ring, with its control register written as the command says and with a size
and ranges that pass the checks, runs it from index 0; a pair that fails them enters ERROR with ERR_CODE 0x05, a notification ring
stays disabled; disabling a pair starts its drain, disabling a notification ring stops it; a draining pair with nothing in
flight reaches DISABLED. -/
def Obligations.Rings : Prop :=
  ∀ (s : State) (fn pair value : Nat), Settled s →
    (s.die.barOpen fn = true →
     let d := (s.die.access fn).writePage (.host fn) fn (0x1000 + 0x100 * pair) value
     let d1 := ((((d.setAt2 .QUE_PAIR_CTL_ENABLE fn pair 1).setAt2 .QUE_REQ_HEAD_INDEX fn pair 0).setAt2
       .QUE_RPL_TAIL_INDEX fn pair 0).setAt2 .QUE_PAIR_STATUS_ERR_CODE fn pair 0).setPair fn pair default
     d.hasAt .QUE_PAGE_STATUS_READY fn = true → d.getAt .TEN_STATE_STATE fn = 2 → d.getAt2 .QUE_PAIR_STATUS_STATE fn pair = 0 →
     d.pairsEnabled fn < d.getAt .TEN_SHARE_PAIRS fn →
     (d1.pairChecks fn pair = true → Does (.pairEnable fn pair value) s fun t => t.die.getAt2 .QUE_PAIR_STATUS_STATE fn pair = 1 ∧
       t.die.getAt2 .QUE_PAIR_CTL_ENABLE fn pair = 1 ∧ t.die.getAt2 .QUE_REQ_HEAD_INDEX fn pair = 0 ∧
       t.die.getAt2 .QUE_RPL_TAIL_INDEX fn pair = 0 ∧ t.die.getAt2 .QUE_PAIR_STATUS_ERR_CODE fn pair = 0 ∧
       t.die.pairState fn pair = default) ∧
     (d1.pairChecks fn pair = false → Does (.pairEnable fn pair value) s fun t => t.die.getAt2 .QUE_PAIR_STATUS_STATE fn pair = 3 ∧
       t.die.getAt2 .QUE_PAIR_STATUS_ERR_CODE fn pair = 5)) ∧
    (s.die.ready fn = true → s.die.getAt2 .QUE_PAIR_CTL_ENABLE fn pair = 1 →
     s.die.getAt2 .QUE_PAIR_STATUS_STATE fn pair = 1 ∨ s.die.getAt2 .QUE_PAIR_STATUS_STATE fn pair = 3 →
     Answers (.pairDisable fn pair) s fun e d => (d.access fn).drainPair e fn pair) ∧
    (s.die.ready fn = true → s.die.getAt2 .QUE_PAIR_CTL_ENABLE fn pair = 1 → s.die.getAt2 .QUE_PAIR_STATUS_STATE fn pair = 1 →
     s.die.que.reqs = [] → Does (.pairDisable fn pair) s fun t => t.die.getAt2 .QUE_PAIR_CTL_ENABLE fn pair = 0 ∧
       t.die.getAt2 .QUE_PAIR_STATUS_STATE fn pair = 0 ∧ t.die.que.reqs = []) ∧
    (s.die.getAt2 .QUE_PAIR_STATUS_STATE fn pair = 2 → (∀ r ∈ s.die.que.reqs, r.ofPair fn pair = false) →
     Does (.pairDrainDone fn pair) s fun t => t.die.getAt2 .QUE_PAIR_STATUS_STATE fn pair = 0 ∧ Frame [] [.QUE_PAIR_STATUS_STATE] s t) ∧
    (s.die.barOpen fn = true →
     let d := (s.die.access fn).writePage (.host fn) fn 0x2000 value
     d.hasAt .QUE_PAGE_STATUS_READY fn = true → d.getAt .QUE_NTF_CTL_ENABLE fn = 0 →
     (d.ntfChecks fn = true → d.getAt .QUE_NTF_LOST_COUNT fn = 0 →
       Does (.ntfEnable fn value) s fun t => t.die.getAt .QUE_NTF_CTL_ENABLE fn = 1 ∧
         t.die.getAt .QUE_NTF_TAIL_INDEX fn = 0 ∧ t.die.ntfState fn = default) ∧
     (d.ntfChecks fn = false → Does (.ntfEnable fn value) s fun t => t.die.getAt .QUE_NTF_CTL_ENABLE fn = 0)) ∧
    (s.die.ready fn = true → Does (.ntfDisable fn) s fun t => t.die.getAt .QUE_NTF_CTL_ENABLE fn = 0 ∧
      t.die.que.reqs = s.die.que.reqs ∧ Frame [.que] [.QUE_NTF_CTL_ENABLE] s t)

/-- R43, R50, R272: a running pair of an ACTIVE tenant fetches the descriptor at its request head, where the ring holds one and the
request owns a reply entry; the request joins those in flight with the next identifier, and the head moves on. A Constantan or
lattice request does so while fewer than 4,096 or 1,024 of its kind wait (R186, R202). -/
def Obligations.Fetch : Prop :=
  ∀ (s : State) (fn pair : Nat), Settled s →
    let d := s.die
    let p := d.pairState fn pair
    let size := 2 ^ d.getAt2 .QUE_PAIR_CTL_SIZE_LOG2 fn pair
    let h := d.getAt2 .QUE_REQ_HEAD_INDEX fn pair
    let addr := d.getAt2 .QUE_REQ_BASE_ADDR fn pair / 4096 * 4096 + h % size * 64
    let r : Req :=
      { rid := d.que.nextRid, tenant := d.tenantFor fn, origin := .pair fn pair h, desc := memReads s.mem addr 64, stage := .fetched,
        stop := none, stopBy := 0, input := [], use := none, allowed := false, sess := 0, behind := [], stamp := none, spoiled := none,
        work := [], worked := false, drawn := 0, relaned := false, orig := [], rest := [], fetchMs := d.nowMs }
    d.getAt2 .QUE_PAIR_STATUS_STATE fn pair = 1 → d.fetches fn = true → h ≠ p.lastTail → idxSub h p.replyHead < size →
    d.dmaOk (d.tenantOf fn) addr 64 false = true →
    d.untranslated r = true ∨ ((r.isConJob = true → d.conWaiting s.env false + d.conWaiting s.env true < 4096) ∧
      (r.isNttJob = true → d.nttWaiting < 1024)) →
    Does (.descriptorFetch fn pair) s fun t =>
      t.die.que = { s.die.que with nextRid := s.die.que.nextRid + 1, reqs := s.die.que.reqs ++ [r] } ∧
      t.die.getAt2 .QUE_REQ_HEAD_INDEX fn pair = (h + 1) % 2 ^ 32 ∧
      Frame [.que, .evr] [.QUE_REQ_HEAD_INDEX, .PMC_TEN_CNT_COUNT] s t

/-! ## Tenants (spec/10) -/

/-- R273, R278, R281, R283: ACTIVATE of an IDLE tenant, QUIESCE of an ACTIVE one, RESUME of a QUIESCED one, RESET of one that is ACTIVE,
QUIESCING or QUIESCED, and REMOVE of one that is IDLE or QUIESCED change its state; in any other state the command is refused with no
effect but CMD_RESULT 3. A removal raises the tenant's generation and takes its cached keys' copies; another die that tells of a tenant it
removes, or whose volatile objects expire, raises the generation that this die knows (R225, R237). -/
def Obligations.TenantCommands : Prop :=
  ∀ (s : State) (fn : Nat), Settled s → 0 < fn → fn < 256 →
    let st := s.die.getAt .TEN_STATE_STATE fn
    let quiet (t : State) : Prop := t.die.que = (s.die.access 0).que ∧ Frame [.que] [.TEN_STATE_STATE, .TEN_STATE_CMD_RESULT, .QUE_PAGE_STATUS_READY] s t ∧
      ∀ (f : Fld) (g j : Nat), g % 65536 ≠ fn → t.die.getAt2 f g j = s.die.getAt2 f g j
    (st = 1 → Does (.activate fn) s fun t => t.die.getAt .TEN_STATE_STATE fn = 2 ∧ t.die.getAt .TEN_STATE_CMD_RESULT fn = 2 ∧
      t.die.getAt .QUE_PAGE_STATUS_READY fn = 1 ∧ quiet t) ∧
    (st = 4 → Does (.resume fn) s fun t => t.die.getAt .TEN_STATE_STATE fn = 2 ∧ t.die.getAt .TEN_STATE_CMD_RESULT fn = 2 ∧
      t.die.getAt .QUE_PAGE_STATUS_READY fn = s.die.getAt .QUE_PAGE_STATUS_READY fn ∧ quiet t) ∧
    (st = 2 → Does (.quiesce fn) s fun t => t.die.getAt .TEN_STATE_STATE fn = 3 ∧ t.die.getAt .TEN_STATE_CMD_RESULT fn = 1 ∧
      StoreFrame workBlocks ([.TEN_STATE_STATE, .TEN_STATE_CMD_RESULT] ++ goFlds) s t) ∧
    (st = 2 ∨ st = 3 ∨ st = 4 → Does (.reset fn) s fun t => t.die.getAt .TEN_STATE_STATE fn = 5 ∧ t.die.getAt .TEN_STATE_CMD_RESULT fn = 1 ∧
      t.die.getAt .TEN_STATE_FORCED fn = 0 ∧ t.die.getAt .QUE_PAGE_STATUS_READY fn = 0 ∧
      StoreFrame workBlocks ([.TEN_STATE_STATE, .TEN_STATE_CMD_RESULT, .TEN_STATE_FORCED, .QUE_PAGE_STATUS_READY] ++ goFlds) s t) ∧
    (st = 1 ∨ st = 4 → Does (.remove fn none) s fun t => t.die.getAt .TEN_STATE_STATE fn = 6 ∧ t.die.getAt .TEN_STATE_CMD_RESULT fn = 1 ∧
      t.die.getAt .TEN_STATE_LOGGING fn = 0 ∧ ∃ d : Die, t = s.finish d ∧ (d.ctl fn).regionClear = true ∧ (d.ctl fn).marks = [] ∧
        KeepsPage fn workBlocks ([.TEN_STATE_STATE, .TEN_STATE_CMD_RESULT, .TEN_STATE_LOGGING, .TEN_MIG_BITMAP_VALUE,
          .TEN_MIG_RANGE_BASE_VALUE, .TEN_MIG_RANGE_LEN_VALUE] ++ goFlds) s.die d ∧
        ((∀ l ∈ s.die.kft.locks, l.tenant ≠ s.die.tenantFor fn) →
          d.tenGen (s.die.tenantOf fn) = (s.die.tenGen (s.die.tenantOf fn) + 1) % 2 ^ 32)) ∧
    (∀ tenant : Nat,
      (Does (.remove fn (some (tenant, true))) s fun t => t.die.tenGen tenant = (s.die.tenGen tenant + 1) % 2 ^ 32 ∧
        Frame [.ens, .kft] [] s t) ∧
      (Does (.remove fn (some (tenant, false))) s fun t => t.die.vgen tenant = (s.die.vgen tenant + 1) % 2 ^ 32 ∧
        (∀ o ∈ t.die.key.objs, o.tenant = tenant → o.volatile = true → o.ways = []) ∧ Frame [.ens, .key] [] s t)) ∧
    (∀ cmd : Nat, s.die.accepts fn cmd = false → Does (.tenCmdRefused fn cmd) s fun t => t.die.getAt .TEN_STATE_CMD_RESULT fn = 3 ∧
      t.die.getAt .TEN_STATE_STATE fn = st ∧ t.die.getAt .QUE_PAGE_STATUS_READY fn = s.die.getAt .QUE_PAGE_STATUS_READY fn ∧ quiet t)

/-- R279, R281, R282, R283, R70: a quiesce with nothing left in flight ends QUIESCED; one that has run for 1 ms raises QUIESCE_LATE; a reset
that is not over after 1 ms discards what is left and is marked FORCED; its clearing leaves the tenant ACTIVE, ready, with its page at reset;
the clearing of a removed tenant's handle region leaves none of its key objects; an FLR of an idle or quiesced tenant leaves only the
clearing, and of a working one starts the drain; the loss of the link discards every request, and the lead die counts its own lost link
and another die's (R327). -/
def Obligations.TenantDrains : Prop :=
  ∀ (s : State) (fn : Nat), Settled s → fn < 256 →
    let d := s.die
    let st := d.getAt .TEN_STATE_STATE fn
    (d.fnBusy fn = false → st = 3 → Does (.quiesceDone fn) s fun t => t.die.getAt .TEN_STATE_STATE fn = 4 ∧
      t.die.getAt .TEN_STATE_CMD_RESULT fn = 2 ∧ t.die.getAt .TEN_QUIESCE_TIME_VALUE fn = (d.nowMs - (d.ctl fn).since) * 1000 % 2 ^ 32 ∧
      t.die.get .TEN_EVENT_QUIESCE_DONE = 1 ∧ t.die.que.reqs = d.que.reqs ∧
      Frame ntfBlocks ([.TEN_STATE_STATE, .TEN_STATE_CMD_RESULT, .TEN_QUIESCE_TIME_VALUE, .TEN_EVENT_QUIESCE_DONE] ++ ntfFlds) s t) ∧
    (st = 3 → (d.ctl fn).since < d.nowMs → Does (.quiesceLate fn) s fun t => t.die.get .TEN_EVENT_QUIESCE_LATE = 1 ∧
      t.die.que.reqs = d.que.reqs ∧ Frame [.que, .out] [.TEN_EVENT_QUIESCE_LATE] s t) ∧
    (st = 5 → (d.ctl fn).cause = 2 ∨ (d.ctl fn).cause = 3 → d.fnBusy fn = true → (d.ctl fn).since < d.nowMs →
      Does (.tenantResetForced fn) s fun t =>
        t.die.getAt .TEN_STATE_FORCED fn = 1 ∧ t.die.get .TEN_EVENT_FORCED = 1 ∧ t.die.getAt .TEN_STATE_STATE fn = 5 ∧
        (∃ d1 : Die, t = s.finish d1 ∧ d1.fnBusy fn = false) ∧
        StoreFrame workBlocks ([.TEN_STATE_FORCED, .TEN_EVENT_FORCED] ++ replyFlds) s t) ∧
    (d.fnBusy fn = false → st = 5 → (d.ctl fn).cause = 3 ∨ (d.ctl fn).cause = 4 → Does (.tenantResetClear fn) s fun t =>
      t.die.getAt .TEN_STATE_STATE fn = 2 ∧ t.die.getAt .TEN_STATE_CMD_RESULT fn = (if d.hasAt .TEN_STATE_FORCED fn then 4 else 2) ∧
      t.die.getAt .QUE_PAGE_STATUS_READY fn = 1 ∧ ∃ d1 : Die, t = s.finish d1 ∧ (d1.ctl fn).cause = 0 ∧
        KeepsPage fn workBlocks ([.TEN_STATE_STATE, .TEN_STATE_CMD_RESULT, .QUE_PAGE_STATUS_READY] ++ goFlds) d d1 ∧
        ((∀ l ∈ d.kft.locks, l.tenant ≠ d.tenantFor fn) → ∀ f : Fld, f.info.page = true → f.info.cls = .tenant → f ≠ .QUE_PAGE_STATUS_READY →
          ∀ j : Nat, d1.getAt2 f fn j = f.info.rst)) ∧
    (st = 6 → (d.ctl fn).regionClear = true → Does (.handleRegionClear fn) s fun t =>
      (d.removingTenant (d.tenantOf fn) = false → t.die.getAt .TEN_STATE_STATE fn = 1 ∧ t.die.getAt .TEN_STATE_CMD_RESULT fn = 2 ∧
        t.die.get .TEN_EVENT_REMOVE_DONE = 1) ∧
      (∃ d1 : Die, t = s.finish d1 ∧ (d1.ctl fn).regionClear = false ∧ ∀ o ∈ d1.key.objs, o.tenant ≠ d.tenantOf fn) ∧
      StoreFrame replyBlocks ([.TEN_STATE_STATE, .TEN_STATE_CMD_RESULT, .TEN_EVENT_REMOVE_DONE] ++ replyFlds) s t) ∧
    (0 < fn → st = 1 ∨ st = 4 → Does (.functionLevelReset fn) s fun t => t.die.getAt .TEN_STATE_STATE fn = st ∧
      t.die.getAt .TEN_STATE_CMD_RESULT fn = 1 ∧ t.die.getAt .QUE_PAGE_STATUS_READY fn = 0 ∧ (t.die.ctl fn).cause = 3 ∧
      Frame [.ten] [.TEN_STATE_CMD_RESULT, .QUE_PAGE_STATUS_READY] s t) ∧
    (0 < fn → st = 2 ∨ st = 3 ∨ st = 5 → Does (.functionLevelReset fn) s fun t => t.die.getAt .TEN_STATE_STATE fn = 5 ∧
      t.die.getAt .TEN_STATE_CMD_RESULT fn = 1 ∧ t.die.getAt .TEN_STATE_FORCED fn = 0 ∧ t.die.getAt .QUE_PAGE_STATUS_READY fn = 0 ∧
      StoreFrame workBlocks ([.TEN_STATE_STATE, .TEN_STATE_CMD_RESULT, .TEN_STATE_FORCED, .QUE_PAGE_STATUS_READY] ++ goFlds) s t) ∧
    (d.get .HLK_STATUS_LINK_UP = 1 → Does (.linkDown none) s fun t => t.die.get .HLK_STATUS_LINK_UP = 0 ∧ t.die.get .HLK_STATUS_RATE = 0 ∧
      t.die.get .HLK_EVENT_DOWN = 1 ∧ (∃ d1 : Die, t = s.finish d1 ∧ d1.que.reqs = []) ∧
      (d.isLead = true → (d.pos, d.nowMs) ∈ t.die.ens.hostDown) ∧
      StoreFrame workBlocks ([.HLK_STATUS_LINK_UP, .HLK_STATUS_RATE, .HLK_EVENT_DOWN, .TEN_STATE_STATE, .TEN_STATE_CMD_RESULT,
        .TEN_STATE_FORCED, .QUE_PAGE_STATUS_READY] ++ goFlds) s t) ∧
    (∀ p : Nat, d.isLead = true → p ≠ d.pos → Does (.linkDown (some p)) s fun t =>
      t.die.ens = { d.ens with hostDown := (d.ens.hostDown.filter fun x => x.1 != p) ++ [(p, d.nowMs)] } ∧ t.die.que.reqs = d.que.reqs ∧
      Frame [.ens, .que, .out] [] s t)

/-! ## Records and lookups (spec/03, spec/04) -/

/-- R22, R23, R58, R63, R74, R75, R76, R77: a record request whose descriptor, ranges and lengths are in order, that names its session, and
that stands behind no earlier record of that session, starts its lookup where this die serves the session's position, and is sent on where
another does; with KEY_CONTENT the key has been checked first. An inbound record too short for its header completes AUTH_FAIL 0x02, one
with a header of another form BAD_DESCRIPTOR 0x03, an input of more than 16,640 bytes BAD_DESCRIPTOR 0x02. -/
def Obligations.RecordRequests : Prop :=
  ∀ (s : State) (rid op : Nat) (r : Req) (c : Instr),
    (c, op) ∈ [(Instr.espIn rid, 0x10), (.espOut rid, 0x11), (.dtlsIn rid, 0x12), (.dtlsOut rid, 0x13)] →
    let d0 := s.die.orderRecord s.env rid op
    let rec_ := d0.recInput s.env r
    let cid := (d0.recCfg r).cidLen
    let goesOn (d : Die) : Prop := d.key.esk.isSome = true → ∀ key : LookKey, d.lookKey s.env r = some key →
      let home := d.keyPosition key
      d.unserved home = false →
        (d.serverOf home = d.pos → Answers c s fun e _ => (d.startLookup e r key home).port 0 r.inLen) ∧
        (d.serverOf home ≠ d.pos → r.fn? ≠ none → Answers c s fun e _ => (d.forward e r home).port 0 r.inLen)
    Accepted d0 rid op r → d0.behindSession r = false →
    (op = 0x10 ∨ op = 0x12 → r.zeroBytes 56 64 = true) →
    (op = 0x11 ∨ op = 0x13 → r.byte 59 = 0 ∧ r.zeroBytes 62 64 = true ∧ (r.byte 58 = 0 ∧ r.zeroBytes 60 62 = true ∨ r.byte 58 = 1)) →
    (op = 0x13 → r.byte 56 ≠ 0) →
      (16640 < r.inLen → Answers c s fun e _ => d0.fail e r .badDescriptor 2) ∧
      (r.inLen ≤ 16640 → RangesOk d0 r →
        (op = 0x10 ∧ r.inLen < 8 ∨ op = 0x12 ∧ dtlsShort rec_ cid = true →
          Answers c s fun e _ => (d0.fail e r .authFail 2).port 0 r.inLen) ∧
        (op = 0x12 → dtlsShort rec_ cid = false → parseDtls rec_ cid = none →
          Answers c s fun e _ => (d0.fail e r .badDescriptor 3).port 0 r.inLen) ∧
        ((op = 0x10 → 8 ≤ r.inLen) → (op = 0x12 → dtlsShort rec_ cid = false ∧ (parseDtls rec_ cid).isSome = true) →
          (r.keyContent = false → goesOn d0) ∧
          (r.keyContent = true → ∀ d1 : Die, d0.loadKey s.env r.tenant (leAt r.desc 60 2) = (d1, none) →
            (∀ o : KeyObj, d1.contentKeyCheck r = .ok o → goesOn d1) ∧
            (∀ (st : Status) (x : Nat), d1.contentKeyCheck r = .bad st x →
              Answers c s fun e _ => (d1.fail e r st x).port 0 r.inLen))))

/-- R120, R121, R136, R137, R145, R157: a bucket read is checked; one that fails completes the request with the status of the failure, and
one that holds the session named goes on with it, under the bucket's interlock, or to the next step where none stands. A free interlock
goes to the first that waits for it: a lookup goes on, a change is written, a learning is handled again. A request that has waited too
long behind a lock completes BUSY; a lock held too long is released, what waited for it goes on in order, and the event is raised. -/
def Obligations.Lookups : Prop :=
  ∀ (s : State) (rid bucket : Nat) (r : Req),
    (s.die.req? rid = some r →
      ∀ l : Lookup, s.die.kft.lookups.find? (fun l => l.rid == rid && decide (1 ≤ l.step ∧ l.step ≤ 4)) = some l → ∀ d1 : Die,
      let d0 := s.die.dropLookup rid
      (∀ f : StoreFault, d0.readBucket s.env r.tenant (d0.lookupBucket l) = (d1, some f) →
        Answers (.bucketReadComplete rid) s fun e _ => ((d1.forget rid).fail e r f.status 0).pumpReads e) ∧
      (d0.readBucket s.env r.tenant (d0.lookupBucket l) = (d1, none) →
        let new := (d1.kft.sessions.filter fun x => decide (s.die.kft.nextUid ≤ x.uid)).map Session.uid
        let l1 := { l with snap := l.snap ++ new,
                           gen := if new.isEmpty || keyKind (d1.lookupBucket l) != 0 then l.gen else (d1.bucketMeta l.bucket).moveGen }
        (d1.standing s.env r l1 = none → Answers (.bucketReadComplete rid) s fun e _ => (Die.lookOn e 4 d1 r l1).pumpReads e) ∧
        (∀ x : Session, d1.standing s.env r l1 = some x →
          (d1.held l.bucket = false → isRecordOp r.opcode = false ∨ x.ways ≠ [] →
            Answers (.bucketReadComplete rid) s fun e _ => (d1.hit e r x).pumpReads e) ∧
          (d1.held l.bucket = true → l.step ≤ 4 → Answers (.bucketReadComplete rid) s fun e _ =>
            ((d1.putLookup { l1 with step := l.step + 4, snap := [x.uid] }).waitInterlock l.bucket r.rid).pumpReads e)))) ∧
    (s.die.inWrite bucket = false → ∀ w : Nat × Nat, s.die.kft.ilWait.find? (fun w => w.1 == bucket) = some w →
      let behind := (s.die.kft.ilWait.filter fun w => w.1 == bucket).tail
      let d0 : Die := { s.die with kft := { s.die.kft with ilWait := s.die.kft.ilWait.filter fun w => w.1 != bucket } }
      let granted (f : Env → Die) : Prop := Answers (.interlockGranted bucket) s fun e _ =>
        { f e with kft := { (f e).kft with ilWait := behind ++ (f e).kft.ilWait } }
      (s.die.req? w.2 = none → granted fun e => (d0.writeThrough e bucket 0).releaseWritten e) ∧
      (s.die.req? w.2 = some r →
        (isRecordOp r.opcode = true ∨ r.opcode / 16 = 8 ∨ keyKind bucket = 2 → r.stage = .waiting → granted fun e => d0.resume e w.2) ∧
        (r.stage ≠ .waiting → r.stage ≠ .fetched → granted fun e => (d0.writeThrough e bucket w.2).releaseWritten e) ∧
        (isRecordOp r.opcode = false → r.opcode / 16 ≠ 8 → keyKind bucket ≠ 2 → r.stage = .waiting →
          Answers (.interlockGranted bucket) s fun _ d => d.setStage w.2 .fetched))) ∧
    (s.die.req? rid = some r → (s.die.kft.lockWait.any fun w => w.1 == rid) = true →
      Answers (.bucketWaitTimeout rid) s fun e d => (d.forget rid).fail e r .busy 0) ∧
    (s.die.locked bucket = true →
      (Does (.lockTimeout bucket) s fun t => t.die.get .KFT_EVENT_LOCK_TIMEOUT = 1 ∧ StoreFrame workBlocks (.KFT_EVENT_LOCK_TIMEOUT :: goFlds) s t) ∧
      Answers (.lockTimeout bucket) s fun e d =>
        let free : Die := { d with kft := { d.kft with locks := d.kft.locks.filter (fun l => l.bucket != bucket),
                                                       lockWait := d.kft.lockWait.filter fun w => w.2 != bucket } }
        let gone : Die := (d.kft.lockWait.filter fun w => w.2 == bucket).foldl (fun d w => d.resume e w.1) free
        ((gone.stepMoves e).releaseWritten e).event .KFT_EVENT_LOCK_TIMEOUT)

/-- R73, R102, R101, R108, R134, R168, R197, R204, R241, R265: the frame of the requests of families 1 to 6 and 8, of the commands that dispatch and
cancel their jobs, and of the handshake steps: replies, notifications, slot writes, work, keys and sessions change, with the counters
named, and no other register, no other block, no command in the queue and nothing of the OTP, but for what an alarm of the store changes at
the end of the command. -/
def Obligations.RequestFrames : Prop :=
  ∀ (s t : State) (rid bucket kind core : Nat),
    let learns : List Fld := [.KFT_LEARN_COUNT_COUNT, .KFT_FULL_COUNT_COUNT, .KFT_EVENT_TABLE_FULL, .KFT_TEN_FULL_QUOTA_REFUSED,
      .KFT_TEN_FULL_TABLE_FULL, .ENS_STEER_PREV_VALID]
    (∀ c ∈ [Instr.espIn rid, .espOut rid, .dtlsIn rid, .dtlsOut rid, .aeadSeal rid, .aeadOpen rid, .hash rid, .hmacGen rid, .hmacVerify rid,
        .aeadCancel rid, .tblLock rid, .tblUnlock rid, .tblFind rid, .tblRead rid, .tblUpdate rid, .tblDelete rid, .bucketWaitTimeout rid,
        .scrubChunkDone rid, .bucketReadComplete rid, .interlockGranted bucket, .flushReadDone rid],
      exec c s = .next t → StoreFrame workBlocks goFlds s t) ∧
    (∀ c ∈ [Instr.laneRecordDone rid kind, .streamChunkDone rid kind], exec c s = .next t → StoreFrame workBlocks (laneFlds ++ goFlds) s t) ∧
    (exec (.hashBlockDone rid kind) s = .next t → StoreFrame workBlocks (hashFlds ++ goFlds) s t) ∧
    (∀ c ∈ [Instr.conPrim rid, .ecKeygen rid, .ecdh rid, .ecdsaSign rid, .ecdsaVerify rid, .eddsaSign rid, .eddsaVerify rid, .x25519Keygen rid,
        .x25519Agree rid, .rsaPriv rid, .rsaPub rid, .curveLoad rid, .curveUnload rid, .pointCheck rid, .conCancel rid, .conDispatch core,
        .conYieldPoint rid, .mlkemKeygen rid, .mlkemEncaps rid, .mlkemDecaps rid, .mldsaKeygen rid, .mldsaSign rid, .mldsaVerify rid,
        .nttCancel rid, .nttDispatch core, .nttAttemptBoundary rid],
      exec c s = .next t → StoreFrame workBlocks (.CON_JOB_COUNT_COUNT :: goFlds) s t) ∧
    (∀ c ∈ [Instr.keyGenerate rid, .keyDerive rid, .keyAttrSet rid, .keyDelete rid, .keyInfo rid, .keyExport rid, .keyRestore rid,
        .keyWrap rid, .keyUnwrap rid, .attest rid, .rngDrbg rid, .rngFullEntropy rid, .policyEval rid, .badDescriptorOpcode rid],
      exec c s = .next t → StoreFrame workBlocks goFlds s t) ∧
    (∀ c ∈ [Instr.hsOpen rid, .hsAddke rid, .hsProtect rid, .hsUnprotect rid, .hsSign rid, .hsVerifyPeer rid, .hsFinished rid, .hsResume rid,
        .hsFree rid],
      exec c s = .next t → StoreFrame workBlocks goFlds s t) ∧
    (exec (.hsKeyupdate rid) s = .next t → StoreFrame workBlocks (learns ++ goFlds) s t) ∧
    (exec (.hsInstall rid) s = .next t → StoreFrame workBlocks (.NTT_HS_DONE_COUNT :: learns ++ goFlds) s t)

/-- R84, R88, R89, R94, R96, R97, R103, R157: a held raw object leaves its lane sealed, opened, or AUTH_FAIL; a record without its tag, without
its trailer or with a number seen already completes AUTH_FAIL or REPLAY and leaves its window; an accepted one moves the window and
delivers its payload; one whose slot write failed completes with the status of that. A mismatch repeats the work once on another lane where
that is asked for, or where it quarantines its lane, and else completes FAULT_RETRY. -/
def Obligations.LaneResults : Prop :=
  ∀ (s : State) (rid kind : Nat) (r : Req) (j : LaneJob), s.die.req? rid = some r →
    s.die.rcp.jobs.find? (fun j => j.rid == rid) = some j → j.lane ≠ noLane → s.die.writesPending rid = false →
    let ct := j.body.take (j.body.length - j.tagLen)
    let tagOk := j.body.drop ct.length = aeadTag j.alg j.tagLen j.key j.nonce j.aad ct
    let flags := if j.relaned then 16 else 0
    let leaves (f : Env → Die → Die) : Prop := Answers (.laneRecordDone rid 0) s fun e d =>
      ((f e (d.dropJob j.rid)).placeJobs e).retryFills e
    (∀ st : Status, r.spoiled = some st → Answers (.laneRecordDone rid kind) s fun e d =>
      ((d.endJob e r j (Reply.fail st 0)).placeJobs e).retryFills e) ∧
    (r.spoiled = none → j.uid = 0 →
      (j.enc = true → leaves fun e d =>
        let sealed := aeadText j.alg j.key j.nonce j.body
        let out := sealed ++ aeadTag j.alg j.tagLen j.key j.nonce j.aad sealed
        (d.output e r r.outAddr out).complete e r { Reply.done out.length with flags }) ∧
      (j.enc = false → tagOk → leaves fun e d =>
        (d.output e r r.outAddr (aeadText j.alg j.key j.nonce ct)).complete e r { Reply.done ct.length with flags }) ∧
      (j.enc = false → ¬tagOk → leaves fun e d => (d.count 3 3 r.tenant 1).complete e r { Reply.fail .authFail 1 with flags })) ∧
    (r.spoiled = none → j.uid ≠ 0 → ∀ x : Session, (s.die.dropJob j.rid).session? j.uid = some x →
      let shift := ((s.die.dropJob j.rid).recCfg r).limitShift
      (j.enc = true →
        let sealed := aeadText j.alg j.key j.nonce j.body ++ aeadTag j.alg j.tagLen j.key j.nonce j.aad (aeadText j.alg j.key j.nonce j.body)
        let n := if bit (leAt j.hdr 0 1) 3 then 2 else 1
        let at_ := 1 + x.peerCid.length
        let out := (if x.proto = 3 then patch j.hdr at_ (xorBytes (slice j.hdr at_ n) (snMask x.suite x.wrSn (slice sealed 0 16) n)) else j.hdr) ++ sealed
        leaves fun e d => ((d.output e r r.outAddr out).count 3 2 r.tenant j.body.length).endRecord e r x
          { Reply.done out.length with detail := j.seq % 2 ^ 32, flags }) ∧
      (j.enc = false → ¬tagOk → x.proto ≠ 3 → leaves fun e d => (d.count 3 3 r.tenant 1).endRecord e r x (Reply.fail .authFail 1)) ∧
      (j.enc = false → ¬tagOk → x.proto = 3 → leaves fun e d =>
        ((d.recordUpdate e x.uid shift fun y => { y with fails := y.fails + 1 }).count 3 3 r.tenant 1).endRecord e r x (Reply.fail .authFail 1)) ∧
      (j.enc = false → tagOk →
        let inner := x.finishIn (bit (leAt j.hdr 0 1) 4) (aeadText j.alg j.key j.nonce ct)
        (inner = none → leaves fun e d => (d.count 3 3 r.tenant 1).endRecord e r x (Reply.fail .authFail 3)) ∧
        (∀ (out : Bytes) (detail : Nat), inner = some (out, detail) →
          (x.fresh j.seq = false → leaves fun e d => (d.count 3 4 r.tenant 1).endRecord e r x (Reply.fail .replay 0)) ∧
          (x.fresh j.seq = true → leaves fun e d =>
            (((d.recordUpdate e x.uid shift fun y => y.accept j.seq).output e r r.outAddr out).count 3 2 r.tenant out.length).endRecord e r x
              { Reply.done out.length with detail, flags })))) ∧
    (r.spoiled = none → kind ≠ 0 →
      let d1 := s.die.noteMismatch s.env .lane j.lane kind r.tenant
      let quar := decide (3 ≤ d1.recent .lane j.lane)
      let asked := quar || r.allowRelane || s.die.has .REC_CTL_RELANE_ALWAYS
      let goes (d2 : Env → Die) : Prop := Answers (.laneRecordDone rid kind) s fun e _ =>
        if quar then (d2 e).quarantineLane e j.lane else (d2 e).placeJobs e
      (j.relaned = false → asked = true → quar = true ∨ d1.hasLane (some j.lane) = true →
        goes fun _ => d1.updJob j.rid fun x => { x with lane := noLane, first := some j.lane, relaned := true }) ∧
      (j.relaned = true ∨ asked = false ∨ quar = false ∧ d1.hasLane (some j.lane) = false →
        goes fun e => d1.endJob e r j (Reply.fail .faultRetry (faultDetail (j.first.getD j.lane) (secondLane j.first j.lane) kind))))

/-- R89: accepting a number that the window permits raises H to it when it is higher, marks it, and changes no other number that the window
still reaches. -/
def Obligations.ReplayWindow : Prop :=
  ∀ (x : Session) (n m : Nat), x.fresh n = true →
    (x.accept n).h = max x.h n ∧ (x.accept n).window = x.window ∧
    ((x.accept n).fresh m = true ↔ x.fresh m = true ∧ m ≠ n ∧ (x.accept n).h < m + x.window)

/-! ## Raw AEAD, hashes, forwarding and units (spec/03) -/

/-- R102, R103, R104, R105, R108: a raw AEAD request whose ranges, parameters and key pass the checks becomes a held job when its text is at
most 16,384 bytes; an object shorter than its tag completes AUTH_FAIL, one with too little room BAD_DESCRIPTOR with the room it needs. A
chunk of a stream that passes delivers its output and goes on; the last chunk of a seal writes the tag, that of an open checks it. A scrub
zeroes 64 KiB at a time and ends with SCRUBBED; a stop ends it before. A cancel completes at once where it leaves no request to wait for,
with the count of those it ended. -/
def Obligations.RawAead : Prop :=
  ∀ (s : State) (rid op usage : Nat) (c : Instr) (r : Req), (c, op, usage) ∈ [(Instr.aeadSeal rid, 0x20, useEncrypt), (.aeadOpen rid, 0x21, useDecrypt)] →
    let arg := leAt r.desc 56 8
    let b := dmaRead s.env s.die arg 128
    let p := aeadParams b
    let total := aeadTotal (op == 0x20) r p.tagLen
    let need := if op = 0x20 then r.inLen + p.tagLen else total
    (Accepted s.die rid op r → RangesOk s.die r → r.handle < 2 ^ 16 → arg % 64 = 0 →
      s.die.dmaOk r.tenant arg 128 false = true → s.die.dmaOk r.tenant arg 128 true = true →
      (aeadParamsOk (op == 0x20) b = false → Answers c s fun e d => (d.fail e r .badDescriptor 5).port 0 r.inLen) ∧
      (aeadParamsOk (op == 0x20) b = true → s.die.dmaOk r.tenant p.aadAddr p.aadLen false = true → ∀ (o : KeyObj) (d1 : Die),
        (s.die.unhold r.rid).loadKey s.env r.tenant r.handle = (d1, none) → d1.checkKey r.tenant r.handle (aeadFits p.alg) usage = .ok o →
        (op = 0x21 → r.inLen < p.tagLen → Answers c s fun e _ => (d1.fail e r .authFail 2).port 0 r.inLen) ∧
        ((op = 0x21 → p.tagLen ≤ r.inLen) →
          (r.outLen < need → Answers c s fun e _ => (d1.complete e r { Reply.fail .badDescriptor 4 with length := need }).port 0 r.inLen) ∧
          (need ≤ r.outLen → total ≤ 16384 → d1.inService .lane ≠ [] → p.resume = false → p.gen = false →
            Answers c s fun e _ => (((d1.setStage r.rid .waiting).count 3 1 r.tenant 1).issueJob e r
              { rid := r.rid, lane := noLane, uid := 0, seq := 0, enc := op == 0x20, alg := p.alg, tagLen := p.tagLen, key := [],
                nonce := p.nonce.take p.nonceLen, aad := dmaRead e d1 p.aadAddr p.aadLen, body := dmaRead e d1 r.inAddr r.inLen, hdr := [],
                use := some (r.handle, usage), first := none, relaned := false }).port 0 r.inLen)))) ∧
    (∀ j : StreamJob, s.die.req? rid = some r → s.die.rcp.streams.find? (fun j => j.rid == rid) = some j →
      (j.scrub = none → j.lane ≠ noLane → s.die.writesPending rid = false →
        let n := min 65536 (j.total - j.off)
        let input := dmaRead s.env s.die (r.inAddr + j.off) n
        let out := aeadChunk j.alg j.key j.nonce j.off input
        let j1 := { j with off := j.off + n, acc := j.acc ++ (if j.enc then out else input), lane := noLane, first := none }
        let delivered : Die := ((s.die.output s.env r (r.outAddr + j.off) out).updStream j.rid fun _ => j1).count 3 2 r.tenant n
        let tag := aeadTag j.alg j.tagLen j.key j.nonce j.aad j1.acc
        let flags := if j.relaned then 16 else 0
        (j1.off < j.total → r.stop = none → Answers (.streamChunkDone rid 0) s fun e _ => (delivered.placeJobs e).placeJobs e) ∧
        (j.total ≤ j1.off → j.enc = true → Answers (.streamChunkDone rid 0) s fun e _ =>
          (((delivered.dropStream j.rid).output e r (r.outAddr + j.total) tag).complete e r
            { Reply.done (j.total + j.tagLen) with flags }).placeJobs e) ∧
        (j.total ≤ j1.off → j.enc = false → dmaRead s.env delivered (r.inAddr + j.total) j.tagLen = tag →
          Answers (.streamChunkDone rid 0) s fun e _ => ((delivered.dropStream j.rid).complete e r { Reply.done j.total with flags }).placeJobs e) ∧
        (j.total ≤ j1.off → j.enc = false → dmaRead s.env delivered (r.inAddr + j.total) j.tagLen ≠ tag →
          Answers (.streamChunkDone rid 0) s fun e _ => ((delivered.count 3 3 r.tenant 1).endStream e r j1 .untrustedOutput 0).placeJobs e)) ∧
      (∀ (done : Nat) (rep : Reply), j.scrub = some (done, rep) →
        let n := min 65536 (rep.length - done)
        let zeroed : Die := s.die.output s.env r (r.outAddr + done) (zeros n)
        (rep.length ≤ done + n → Answers (.scrubChunkDone rid) s fun e _ =>
          (zeroed.dropStream rid).complete e r { rep with detail := rep.detail + 2 ^ 24 }) ∧
        (done + n < rep.length →
          (r.stop = none → Answers (.scrubChunkDone rid) s fun _ _ => zeroed.updStream rid fun x => { x with scrub := some (done + n, rep) }) ∧
          (r.stop ≠ none → Answers (.scrubChunkDone rid) s fun e _ => (zeroed.dropStream rid).complete e r rep)))) ∧
    (Accepted s.die rid 0x2F r → r.zeroBytes 24 64 = true →
      let ms := s.die.cancelled r
      let now := (ms.filter fun x => x.stage == .fetched || x.stage == .waiting).length
      let d1 : Die := ms.foldl (Die.cancelOne s.env rid) s.die
      let on := (ms.map Req.rid).filter fun x => (d1.req? x).any fun y => !y.done
      (on = [] → Answers (.aeadCancel rid) s fun e _ => d1.complete e r { Reply.done 0 with detail := min now 255 }) ∧
      (on ≠ [] → Answers (.aeadCancel rid) s fun _ _ =>
        { d1.setStage rid .running with
          que := { (d1.setStage rid .running).que with
            waiters := (d1.setStage rid .running).que.waiters ++ [{ rid, counts := true, count := now, on }] } }))

/-- R100, R101: a hash request whose descriptor is in order takes the hash lane with the least work; when its last block is done the digest
or the HMAC is written, or the comparison of HMAC_VERIFY decides between OK and AUTH_FAIL; a block before the last leaves the request on
its lane; the last block of a key schedule or derivation lets the request it belongs to go on. -/
def Obligations.Hashes : Prop :=
  ∀ (s : State) (rid : Nat) (r : Req),
    (r.byte 57 = 0 → r.zeroBytes 60 64 = true →
      (Accepted s.die rid 0x24 r → RangesOk s.die r → 1 ≤ r.hashAlg → r.hashAlg ≤ 8 → (r.xofLen ≠ 0 ↔ 7 ≤ r.hashAlg) →
        r.hashOut ≤ r.outLen → s.die.dispatches = true → Answers (.hash rid) s fun e d => (d.hashStart e r []).port 0 r.inLen) ∧
      (r.handle < 2 ^ 16 → 1 ≤ r.hashAlg → r.hashAlg ≤ 6 → r.xofLen = 0 → ∀ (o : KeyObj) (d1 d2 : Die),
        s.die.loadKey s.env r.tenant r.handle = (d1, none) → d1.dispatches = true → d1.inService .hash ≠ [] →
        (Accepted s.die rid 0x25 r → RangesOk s.die r → r.hashOut ≤ r.outLen → d1.checkKey r.tenant r.handle hmacFits useSign = .ok o →
          d1.takeUse s.env r r.handle useSign = .counted d2 →
          Answers (.hmacGen rid) s fun e _ => (d2.hashStart e r o.key).port 0 r.inLen) ∧
        (Accepted s.die rid 0x26 r → r.lengthsOk = true → 16 ≤ r.outLen → r.outLen ≤ hashLen r.hashAlg →
          s.die.dmaOk r.tenant r.inAddr r.inLen false = true → s.die.dmaOk r.tenant r.outAddr r.outLen false = true →
          d1.checkKey r.tenant r.handle hmacFits useVerify = .ok o → d1.takeUse s.env r r.handle useVerify = .counted d2 →
          Answers (.hmacVerify rid) s fun e _ => d2.hashStart e r o.key))) ∧
    (∀ (key : Bytes) (lane : Nat), s.die.pickHashLane none = some lane →
      lane ∈ s.die.inService .hash ∧
        (∀ l ∈ s.die.inService .hash, (s.die.rcp.hashes.filter fun j => j.lane == lane).length ≤ (s.die.rcp.hashes.filter fun j => j.lane == l).length) ∧
        (s.die.hashStart s.env r key).rcp.hashes = s.die.rcp.hashes ++
          [{ rid := r.rid, lane, total := r.inLen, inner := 0, off := 0, acc := [], key, first := none, relaned := false }]) ∧
    (∀ j : HashJob, s.die.req? rid = some r → s.die.rcp.hashes.find? (fun j => j.rid == rid) = some j → j.lane ≠ noLane →
      let n := min 65536 (j.total - j.off)
      (j.inner = 0 → s.die.hashYields j = false →
        let acc := j.acc ++ dmaRead s.env s.die (r.inAddr + j.off) n
        let flags := if j.relaned then 16 else 0
        let ended : Die := (s.die.dropHash j.rid).count 4 1 r.tenant (r.compressions acc.length)
        (j.off + n < j.total → r.stop = none → Answers (.hashBlockDone rid 0) s fun _ d =>
          d.updHash rid fun _ => { j with off := j.off + n, acc, first := none }) ∧
        (j.total ≤ j.off + n → r.opcode = 0x24 → Answers (.hashBlockDone rid 0) s fun e _ =>
          (ended.output e r r.outAddr (hashBytes r.hashAlg r.hashOut acc)).complete e r { Reply.done r.hashOut with flags }) ∧
        (j.total ≤ j.off + n → r.opcode = 0x25 → Answers (.hashBlockDone rid 0) s fun e _ =>
          (ended.output e r r.outAddr (hmac r.hashAlg j.key acc)).complete e r { Reply.done (hashLen r.hashAlg) with flags }) ∧
        (j.total ≤ j.off + n → r.opcode = 0x26 → Answers (.hashBlockDone rid 0) s fun e d =>
          ended.complete e r (if dmaRead e d r.outAddr r.outLen = (hmac r.hashAlg j.key acc).take r.outLen then { Reply.done 0 with flags }
            else { Reply.fail .authFail 1 with flags }))) ∧
      (j.inner ≠ 0 → j.total ≤ j.off + n → r.isConJob = false → Answers (.hashBlockDone rid 0) s fun _ d =>
        ((d.dropHash j.rid).count 4 1 r.tenant (compressions j.inner j.total)).workDone r))

/-- R23, R57, R70, R81, R326: a forwarded request joins the requests in flight under the next identifier; a record goes on to its lookup, where
this die's host link is up and its output lies in the tenant's memory, and completes BUSY or ACCESS_FAULT where not. Once its output is
flushed, its completion leaves for the die that received it, and the request is gone; the completion that arrives completes the request it
belongs to, with FORWARDED set; one that belongs to none is dropped. -/
def Obligations.Forwarding : Prop :=
  ∀ (s : State) (src msg hops tenant rid : Nat) (desc input body : Bytes) (r : Req),
    (let new : Req :=
       { rid := s.die.que.nextRid, tenant, origin := .ring src msg hops, desc := slice desc 0 64, stage := .fetched, stop := none,
         stopBy := 0, input, use := none, allowed := false, sess := 0, behind := [], stamp := none, spoiled := none, work := [],
         worked := false, drawn := 0, relaned := false, orig := [], rest := [], fetchMs := s.die.nowMs }
     let d1 : Die := ({ s.die with que := { s.die.que with reqs := s.die.que.reqs ++ [new], nextRid := s.die.que.nextRid + 1 } } : Die).ringIn src
       (desc.length + input.length)
     let c := Instr.ringFwdReq src msg hops tenant desc input
     s.die.dispatches = true → isRecordOp new.opcode = true →
       (s.die.get .HLK_STATUS_LINK_UP = 1 → s.die.dmaOk tenant new.outAddr new.outLen true = true → Answers c s fun e _ => d1.lookupRequest e new) ∧
       (s.die.get .HLK_STATUS_LINK_UP = 1 → s.die.dmaOk tenant new.outAddr new.outLen true = false →
         Answers c s fun e _ => (d1.dmaFault e tenant new.outAddr new.outLen true).fail e new .accessFault 0) ∧
       (s.die.get .HLK_STATUS_LINK_UP = 0 → Answers c s fun e _ => d1.fail e new .busy 0)) ∧
    (s.die.req? rid = some r → ∀ f : Nat × Bytes, s.die.ens.flushing.find? (fun f => f.1 == rid) = some f → r.origin = .ring src msg hops →
      Answers (.flushReadDone rid) s fun _ d =>
        ({ d.dropReq rid with ens := { d.ens with flushing := d.ens.flushing.filter fun x => x.1 != rid } } : Die).sendRing .fwdCpl (some src)
          (leBytes 2 msg ++ f.2)) ∧
    (s.die.ens.awaiting.find? (fun a => a.1 == msg) = none → Settled s → Does (.ringFwdCpl src msg body) s fun t =>
      t.die.que = s.die.que ∧ Frame [.evr] [] s t) ∧
    (∀ a : Nat × Nat × Nat, s.die.ens.awaiting.find? (fun a => a.1 == msg) = some a → s.die.req? a.2.1 = some r → r.done = false → r.opcode / 16 ≠ 5 →
      let rep := cplReply body
      Answers (.ringFwdCpl src msg body) s fun e d =>
        (({ d.ringIn src body.length with ens := { d.ens with awaiting := d.ens.awaiting.filter fun x => x.1 != msg } } : Die).markDirty e r.tenant
          r.outAddr rep.length).complete e r { rep with flags := rep.flags ||| 8 })

/-- R97, R98, R100, R190, R191, R202: a quarantine takes a unit out of service; a release of a quarantined unit starts its known-answer test; a
test that passes returns it to service with its mismatch history cleared, and one that fails leaves it quarantined with KAT_FAIL set; a
lane back in service takes the records that wait. -/
def Obligations.Units : Prop :=
  ∀ (s : State) (k : UnitKind) (u : Nat), Settled s → u < k.count →
    let quar : Instr := match k with
      | .lane => .laneQuarantineCmd u | .hash => .hashQuarantineCmd u | .con => .conQuarantineCmd u | .ntt => .nttQuarantineCmd u
    let rel : Instr := match k with
      | .lane => .laneReleaseCmd u | .hash => .hashReleaseCmd u | .con => .conReleaseCmd u | .ntt => .nttReleaseCmd u
    let kat (pass : Bool) : Instr := match k with
      | .lane => .laneKatDone u pass | .hash => .hashKatDone u pass | .con => .conKatDone u pass | .ntt => .nttKatDone u pass
    (s.die.getAt k.stateFld u ≠ 1 → Does quar s fun t => t.die.getAt k.stateFld u = 1 ∧
      StoreFrame workBlocks ([k.stateFld, .LANE_STATUS_HELD, .CON_CORE_STATUS_HELD, .CON_JOB_COUNT_COUNT] ++ goFlds) s t) ∧
    (s.die.getAt k.stateFld u = 1 → Does rel s fun t => t.die.getAt k.stateFld u = 2 ∧ t.die.que.reqs = s.die.que.reqs ∧
      Frame [.que] [k.stateFld] s t) ∧
    (s.die.getAt k.stateFld u = 2 → ∀ pass : Bool,
      let tested := s.die.endKat k u pass
      (Answers (kat pass) s fun e _ => if k = .lane then tested.placeJobs e else tested) ∧
      (pass = true → tested.getAt k.stateFld u = 0 ∧ tested.getAt k.katFld u = 0 ∧ tested.mismTimes k u = []) ∧
      (pass = false → tested.getAt k.stateFld u = 1 ∧ tested.getAt k.katFld u = 1) ∧
      Keeps [.rcp, .con, .ntt] [k.stateFld, k.katFld, .LANE_STATUS_HELD, .CON_CORE_STATUS_HELD] s.die tested)

/-! ## Constantan and the lattice cores (spec/06, spec/07) -/

/-- R168, R170, R173, R174, R180, R182, R183, R186, R192, R194, R471: a Constantan request whose descriptor, ranges, curve, key and
destination pass the checks joins the jobs that wait for a core, in the order of fetch; one whose curve or key is refused completes with that
refusal and no job. A curve unloaded with no earlier job on it is gone at once, and with one the request waits for it. A job with no random
values to draw joins with its operands read; with no core in service the request completes FAULT_RETRY. -/
def Obligations.ConstantanRequests : Prop :=
  ∀ (s : State) (rid : Nat) (r : Req),
    let keyed (sp : Option KeyObj → ConSpec) (c : Instr) : Prop := ∀ d1 : Die,
      (match conKeyNeed r with
        | none => d1 = s.die
        | some _ => s.die.loadKey s.env r.tenant r.keyHandle = (d1, none)) →
      (∀ (fits : KeyObj → Bool) (usage : Nat) (st : Status) (x : Nat), conKeyNeed r = some (fits, usage) →
        d1.conKey r fits usage = .bad st x → Answers c s fun e _ => (d1.fail e r st x).port 0 r.inLen) ∧
      (∀ (o : Option KeyObj) (d2 : Die),
        (match conKeyNeed r, o with
          | none, none => True
          | some (fits, usage), some k => d1.conKey r fits usage = .ok k
          | _, _ => False) →
        (sp o).inOk = true → (sp o).resLen ≤ r.outLen →
        (if conCreates r then d1.loadKey s.env r.tenant r.destHandle = (d2, none) ∧ d2.destCheck r.tenant r.destHandle = none else d2 = d1) →
        Answers c s fun e _ => (d2.enqueueCon e r (sp o)).port 0 r.inLen)
    let ready (op : Nat) : Prop :=
      Accepted s.die rid op r ∧ RangesOk s.die r ∧ conHeaderOk r (conKeyNeed r).isSome (conCreates r) = true
    (∀ (c : Instr) (op : Nat), (c, op) ∈ [(Instr.ecKeygen rid, 0x31), (.ecdh rid, 0x32), (.ecdsaSign rid, 0x33), (.ecdsaVerify rid, 0x34),
        (.pointCheck rid, 0x3C)] → ready op →
      (s.die.curveFor r = none → Answers c s fun e d => (d.fail e r .paramRejected 0x11).port 0 r.inLen) ∧
      (∀ p : CurveP, s.die.curveFor r = some p → keyed (fun _ => Die.curveSpec r p) c)) ∧
    (∀ (c : Instr) (op curve : Nat) (ok : Bool), (c, op, curve, ok) ∈ [(Instr.eddsaSign rid, 0x35, 0x11, true), (.eddsaVerify rid, 0x36, 0x11, true),
        (.x25519Keygen rid, 0x37, 0x10, bit r.mode 0), (.x25519Agree rid, 0x37, 0x10, !bit r.mode 0),
        (.rsaPriv rid, 0x38, 0, r.mode % 4 != 0 && bits r.mode 3 2 != 3)] → ready op → ok = true →
      (r.curve = curve → keyed (fun o => plainSpec r ((o.map fun x => x.len).getD 0)) c) ∧
      (r.curve ≠ curve → Answers c s fun e d => (d.fail e r .paramRejected 0x11).port 0 r.inLen)) ∧
    (ready 0x39 → let k := (r.inLen - 8) / 2
      r.inLen = 2 * k + 8 → 128 ≤ k → k ≤ 1024 → k ≤ r.outLen →
      let n := intOf r.be (dmaRead s.env s.die r.inAddr k)
      let x := intOf r.be (dmaRead s.env s.die (r.inAddr + k) 8)
      (n % 2 = 0 ∨ x % 2 = 0 ∨ x < 3 ∨ n < 2 ^ (8 * (k - 1)) ∨ n < 2 ^ 1023 →
        Answers (.rsaPub rid) s fun e d => (d.fail e r .paramRejected 0x12).port 0 r.inLen) ∧
      (2 ^ (8 * (k - 1)) ≤ n → 2 ^ 1023 ≤ n → n % 2 = 1 → x % 2 = 1 → 3 ≤ x → Answers (.rsaPub rid) s fun e d =>
        (d.enqueueCon e r { inOk := true, resLen := k, params := [], draw := 0 }).port 0 r.inLen)) ∧
    (Accepted s.die rid 0x30 r → RangesOk s.die r → r.zeroBytes 52 56 = true → r.zeroBytes 59 64 = true → r.mode % 128 = 0 → r.curve ≤ 0xB →
      let cls := r.primClass
      let p := parsePrim (dmaRead s.env s.die r.inAddr 256)
      primLayoutOk cls (dmaRead s.env s.die r.inAddr 256) = true → r.inLen = 256 + p.loads.length * (cls / 8) →
      p.stores.length * (cls / 8) ≤ r.outLen →
      p.usesKey = false → p.hasDest = false → r.keyHandle = 0 → r.destHandle = 0 → r.usageByte = 0 → p.defined = true →
      (∀ c ∈ p.cmds, 1 ≤ c.op ∧ c.op ≤ 5) → Answers (.conPrim rid) s fun e d =>
        (d.enqueueCon e r { inOk := true, resLen := p.stores.length * (cls / 8), params := [], draw := 0 }).port 0 r.inLen) ∧
    (Accepted s.die rid 0x3A r → RangesOk s.die r → conHeaderOk r false false = true →
      let l := (r.inLen - 16) / 6
      let b := dmaRead s.env s.die r.inAddr 16
      r.inLen = 16 + 6 * l → 8 * l ∈ [256, 384, 512, 576, 640] →
      (192 ≤ leAt b 2 2 → leAt b 2 2 ≤ 640 → classOf (leAt b 2 2) = 8 * l) → leAt b 7 9 = 0 → Answers (.curveLoad rid) s fun e d =>
        (d.enqueueCon e r { inOk := true, resLen := 0, params := [], draw := 128 * l }).port 0 r.inLen) ∧
    (Accepted s.die rid 0x3B r → RangesOk s.die r → conHeaderOk r false false = true → r.inLen = 0 →
      let on := (s.die.que.reqs.filter fun x => x.isConJob && x.opcode != 0x30 && x.tenant == r.tenant && x.curve == r.curve &&
        decide (x.rid < rid) && !x.done).map Req.rid
      (r.curve < 0x80 ∨ s.die.curveFor r = none → Answers (.curveUnload rid) s fun e d => (d.fail e r .paramRejected 0x11).port 0 0) ∧
      (0x80 ≤ r.curve → s.die.curveFor r ≠ none →
        (on = [] → Answers (.curveUnload rid) s fun e d => ((d.takeCurve rid).complete e r (Reply.done 0)).port 0 0) ∧
        (on ≠ [] → Answers (.curveUnload rid) s fun _ d =>
          ({ d.setStage rid .running with
            que := { (d.setStage rid .running).que with
              waiters := (d.setStage rid .running).que.waiters ++ [{ rid, counts := false, count := 0, on }] } } : Die).port 0 0))) ∧
    (∀ (d : Die) (sp : ConSpec),
      (d.coreless .con = true → d.enqueueCon s.env r sp =
        (d.fail s.env r .faultRetry (faultDetail 0xFF none 0)).wrap .CON_JOB_COUNT_COUNT 1) ∧
      (d.coreless .con = false → sp.draw = 0 → (∀ j ∈ d.con.jobs, j.loaded = true) →
        (d.enqueueCon s.env r sp).con.jobs.map (fun j => { j with ctx := none }) = (insertRid ConJob.rid
          { rid := r.rid, tenant := r.tenant, cycles := d.conCycles s.env r, long := isLong (d.conCycles s.env r), place := .waiting,
            loaded := true, ctx := none, hashed := r.eddsaPass.isNone, input := dmaRead s.env d r.inAddr r.inLen, params := sp.params,
            need := 0, draw := 0, preempted := 0, fresh := false, first := none, relaned := false } d.con.jobs).map
          fun j => { j with ctx := none }))

/-- R165, R171, R173, R174, R184, R185, R187, R195, R234: an idle core that takes work starts the first of the short jobs that wait, else the
first of the long ones, in a context of its own, with the use of its key counted once; with none it stays idle. A running job stops at a
yield point where it was asked to; a long job gives its core to a waiting short one when no core is idle; a cancel stops a job that waits
at once and answers the number stopped. A job that ends leaves its core, is counted, and completes with its result; one that serves
another request lets that go on; a displaced job resumes on the core it was displaced from. -/
def Obligations.ConstantanEngine : Prop :=
  ∀ (s : State) (rid core : Nat),
    (let d := s.die.loadJobs s.env
     core < 24 → d.takesWork .con core = true → d.dispatches = true →
      (∀ j ∈ d.con.jobs, j.place ≠ .running core ∧ j.place ≠ .displaced core) →
      let waiters := d.conWaiters s.env core false ++ d.conWaiters s.env core true
      (waiters = [] → Answers (.conDispatch core) s fun _ _ => d) ∧
      (∀ (j : ConJob) (rest : List ConJob) (r : Req) (d1 d2 : Die), waiters = j :: rest → d.req? j.rid = some r →
        (j.keyUse r = none → d.ctxOn j core = some d1 → r.opcode ≠ 0x35 → Answers (.conDispatch core) s fun _ _ =>
          (((d1.setStage r.rid .running).updCon j.rid fun x => { x with place := .running core, fresh := false }).charge j.tenant 1
            j.cycles).count 7 0x10 j.tenant 1) ∧
        (∀ usage : Nat, j.keyUse r = some usage → r.use = none → d.ctxOn j core ≠ none →
          (d.takeUse s.env r r.keyHandle usage = .counted d1 → d1.ctxOn j core = some d2 → r.opcode ≠ 0x35 →
            Answers (.conDispatch core) s fun _ _ =>
              (((d2.setStage r.rid .running).updCon j.rid fun x => { x with place := .running core, fresh := false }).charge j.tenant 1
                j.cycles).count 7 0x10 j.tenant 1) ∧
          (∀ (st : Status) (x : Nat), d.takeUse s.env r r.keyHandle usage = .refused d1 st x → Answers (.conDispatch core) s fun e _ =>
            (d1.dropCon j.rid).fail e r st x)))) ∧
    (∀ (r : Req) (j : ConJob),
      let d := s.die.updCon rid fun x => { x with fresh := false }
      s.die.req? rid = some r → d.con.jobs.find? (fun j => j.rid == rid) = some j → j.place = .running core →
      (∀ st : Status, r.stop = some st → Answers (.conYieldPoint rid) s fun e _ => d.stopCon e r j st) ∧
      (r.stop = none → j.long = false → Answers (.conYieldPoint rid) s fun _ _ => d) ∧
      (r.stop = none → j.long = true → s.die.get .PWR_STATUS_STATE ≠ 2 → d.idleCore = false → d.dispatches = true →
        d.inUse .con core = true → (∀ x ∈ d.con.jobs, x.place ≠ .displaced core) →
        ∀ (x : ConJob) (rest : List ConJob), d.conWaiters s.env core false = x :: rest →
          let d1 := d.startCon s.env x core
          ((d1.con.jobs.any fun y => y.rid == x.rid && y.place == .running core) = true → Answers (.conYieldPoint rid) s fun _ _ =>
            (d1.updCon j.rid fun y => { y with place := .displaced core, preempted := y.preempted + 1 }).count 7 2 j.tenant 1) ∧
          ((d1.con.jobs.any fun y => y.rid == x.rid && y.place == .running core) = false → Answers (.conYieldPoint rid) s fun _ _ => d1))) ∧
    (∀ (r : Req) (j : ConJob), s.die.req? rid = some r → s.die.con.jobs.find? (fun j => j.rid == rid) = some j → j.place = .running core →
      (∀ x ∈ s.die.rcp.hashes, x.rid ≠ rid) →
      (r.work = [] → Does (.conJobDone rid 0) s fun t =>
        t = s.after (fun e d => (d.conResult e r j).1.finishCon e r j core (d.conResult e r j).2) ∧
        t.die.get .CON_JOB_COUNT_COUNT = (s.die.get .CON_JOB_COUNT_COUNT + 1) % 2 ^ 32 ∧
        t.die.getAt .CON_CORE_JOBS_COUNT core = (s.die.getAt .CON_CORE_JOBS_COUNT core + 1) % 2 ^ 32 ∧
        StoreFrame workBlocks ([.CON_JOB_COUNT_COUNT, .CON_CORE_JOBS_COUNT] ++ replyFlds) s t) ∧
      (r.work ≠ [] → Answers (.conJobDone rid 0) s fun _ d =>
        (((((d.dropCon rid).resumeCore core).wrap .CON_JOB_COUNT_COUNT 1).wrapAt2 .CON_CORE_JOBS_COUNT core 0 1).count 7 1 r.tenant 1).workDone r)) ∧
    (∀ (r : Req) (j : ConJob) (kind : Nat), s.die.req? rid = some r → s.die.con.jobs.find? (fun j => j.rid == rid) = some j →
      j.place = .running core → kind ≠ 0 → Answers (.conJobDone rid kind) s fun e d => d.conMismatch e r j core kind) ∧
    (∀ r : Req, Accepted s.die rid 0x3F r → cancelHeaderOk r true = true → r.inLen = 0 → RangesOk s.die r →
      (∀ x ∈ s.die.que.reqs, x.isConJob = true → x.tenant = r.tenant → leNat x.tag ≠ r.inAddr) →
      Answers (.conCancel rid) s fun e d => (d.complete e r (Reply.done 0)).port 0 0) ∧
    (∀ (d : Die) (r : Req) (j : ConJob) (st : Status), j.place = .waiting → d.req? j.rid = some r → r.stop = none →
      Die.cancelCon s.env rid d j = (d.dropHash j.rid).stopCon s.env r j .aborted ∧
      d.stopCon s.env r j st = (d.dropCon j.rid).complete s.env r (Reply.fail st (min j.preempted 255 * 2 ^ 24))) ∧
    (∀ (d : Die) (j : ConJob), (∀ x ∈ d.con.jobs, x.place ≠ .running core) → j ∈ d.con.jobs → j.place = .displaced core →
      { j with place := .running core, fresh := true } ∈ (d.resumeCore core).con.jobs)

/-- R174, R180: modular powers and inverses are those of the integers, for every operand; a primitive command with an even modulus, one
below 3 or above its class, or an operand that is not reduced, ends OPERAND_RANGE, an inverse that does not exist NOT_INVERTIBLE, and
every other command leaves the reduced result of its operation. -/
def Obligations.ModularArithmetic : Prop :=
  (∀ a b m : Nat, modPow a b m = a ^ b % m) ∧
  (∀ a m : Nat, 2 ≤ m →
    (Nat.gcd a m = 1 → ∃ x : Nat, modInv a m = some x ∧ x < m ∧ a * x % m = 1) ∧ (Nat.gcd a m ≠ 1 → modInv a m = none)) ∧
  (∀ (c : PrimCmd) (cls expBits : Nat) (v : List Nat), 1 ≤ c.op → c.op ≤ 5 →
    let m := v.getD c.m 0
    let a := v.getD c.a 0
    let b := v.getD c.b 0
    let inRange : Prop := m % 2 = 1 ∧ 3 ≤ m ∧ m < 2 ^ cls ∧ a < m ∧ (c.op ≤ 3 → b < m) ∧ (c.op = 5 → b < 2 ^ expBits)
    (¬inRange → c.eval cls expBits v = .inr .operandRange) ∧
    (inRange →
      (c.op = 1 → c.eval cls expBits v = .inl ((a + b) % m)) ∧
      (c.op = 2 → ∃ x : Nat, c.eval cls expBits v = .inl x ∧ x < m ∧ (x + b) % m = a) ∧
      (c.op = 3 → c.eval cls expBits v = .inl (a * b % m)) ∧
      (c.op = 4 → (Nat.gcd a m = 1 → ∃ x : Nat, c.eval cls expBits v = .inl x ∧ x < m ∧ a * x % m = 1) ∧
        (Nat.gcd a m ≠ 1 → c.eval cls expBits v = .inr .notInvertible)) ∧
      (c.op = 5 → c.eval cls expBits v = .inl (a ^ b % m))))

/-- R197, R198, R201, R202, R203, R219: a lattice request whose descriptor, ranges, parameter set, key and destination pass the checks becomes a
waiting job; an idle core that takes work starts the first ML-KEM or handshake job that waits, else the first of the others; a signature
stops at an attempt boundary where it was asked to, gives its core to a waiting job that goes first, and else goes on; a job that ends
leaves its core, is counted on it, and completes with its result, or lets the request that it serves go on; a cancel that matches nothing
completes at once. -/
def Obligations.LatticeCores : Prop :=
  ∀ (s : State) (rid core : Nat) (r : Req),
    (∀ (c : Instr) (op : Nat), (c, op) ∈ [(Instr.mlkemKeygen rid, 0x40), (.mlkemEncaps rid, 0x41), (.mlkemDecaps rid, 0x42),
        (.mldsaKeygen rid, 0x43), (.mldsaSign rid, 0x44), (.mldsaVerify rid, 0x45)] →
      Accepted s.die rid op r → RangesOk s.die r → nttHeaderOk r = true → (if op ≤ 0x42 then isMlkem r.param else isMldsa r.param) = true →
      ∀ d1 d2 : Die,
      (match nttKeyNeed r with
        | none => d1 = s.die
        | some _ => s.die.loadKey s.env r.tenant r.keyHandle = (d1, none)) →
      (∀ (fits : KeyObj → Bool) (usage : Nat) (st : Status) (x : Nat), nttKeyNeed r = some (fits, usage) →
        d1.conKey r fits usage = .bad st x → Answers c s fun e _ => (d1.fail e r st x).port 0 r.inLen) ∧
      ((∀ (fits : KeyObj → Bool) (usage : Nat), nttKeyNeed r = some (fits, usage) → ∃ o, d1.conKey r fits usage = .ok o) →
        (nttSpec r).inOk = true → (nttSpec r).resLen ≤ r.outLen →
        (if nttCreates r then d1.loadKey s.env r.tenant r.destHandle = (d2, none) ∧ d2.destCheck r.tenant r.destHandle = none else d2 = d1) →
        (d2.coreless .ntt = true → Answers c s fun e _ => (d2.fail e r .faultRetry (faultDetail 0xFF none 0)).port 0 r.inLen) ∧
        (d2.coreless .ntt = false → Answers c s fun e _ =>
          (((d2.setStage rid .waiting).addNtt
            { rid, tenant := r.tenant, place := .waiting, ctx := none, signing := op == 0x44, cycles := 0, input := dmaRead e d2 r.inAddr r.inLen,
              need := (nttSpec r).draw, draw := 0, attempts := 0, preempted := 0, first := none, relaned := false }).loadNtt e).port 0 r.inLen))) ∧
    (let d := s.die.loadNtt s.env
     core < 4 → d.takesWork .ntt core = true → d.dispatches = true →
      (∀ j ∈ d.ntt.jobs, j.place ≠ .running core ∧ j.place ≠ .displaced core) →
      let waiters := d.nttWaiters core true ++ d.nttWaiters core false
      (waiters = [] → Answers (.nttDispatch core) s fun _ _ => d) ∧
      (∀ (j : NttJob) (rest : List NttJob) (d1 d2 : Die), waiters = j :: rest → d.req? j.rid = some r →
        (j.cycles ≠ 0 ∨ nttKeyNeed r = none → d.nttCtxOn j core = some d1 → Answers (.nttDispatch core) s fun _ _ =>
          (((d1.setStage r.rid .running).updNtt j.rid fun x => { x with place := .running core }).charge j.tenant 2 (d1.nttTime r j)).count
            8 0x10 j.tenant 1) ∧
        (∀ (fits : KeyObj → Bool) (usage : Nat), j.cycles = 0 → nttKeyNeed r = some (fits, usage) → r.use = none → d.nttCtxOn j core ≠ none →
          (d.takeUse s.env r r.keyHandle usage = .counted d1 → d1.nttCtxOn j core = some d2 → Answers (.nttDispatch core) s fun _ _ =>
            (((d2.setStage r.rid .running).updNtt j.rid fun x => { x with place := .running core }).charge j.tenant 2 (d2.nttTime r j)).count
              8 0x10 j.tenant 1) ∧
          (∀ (st : Status) (x : Nat), d.takeUse s.env r r.keyHandle usage = .refused d1 st x → Answers (.nttDispatch core) s fun e _ =>
            (d1.dropNtt j.rid).fail e r st x)))) ∧
    (∀ j : NttJob, s.die.req? rid = some r → s.die.ntt.jobs.find? (fun j => j.rid == rid) = some j → j.place = .running core →
      let d := s.die.updNtt rid fun x => { x with attempts := x.attempts + 1 }
      (j.signing = true → ∀ st : Status, r.stop = some st → Answers (.nttAttemptBoundary rid) s fun e _ => d.stopNtt e r j st) ∧
      (j.signing = true → r.stop = none → s.die.get .PWR_STATUS_STATE ≠ 2 → s.die.dispatches = true → s.die.inUse .ntt core = true →
        (d.nttWaiters core true = [] → Settled s → Does (.nttAttemptBoundary rid) s fun t => t.die.ntt = d.ntt ∧ Frame [.ntt] [] s t) ∧
        (∀ (x : NttJob) (rest : List NttJob), d.nttWaiters core true = x :: rest →
          let d1 := d.startNtt s.env x core
          ((d1.ntt.jobs.any fun y => y.rid == x.rid && y.place == .running core) = true → Answers (.nttAttemptBoundary rid) s fun _ _ =>
            d1.updNtt j.rid fun y => { y with place := .displaced core, preempted := y.preempted + 1 }) ∧
          ((d1.ntt.jobs.any fun y => y.rid == x.rid && y.place == .running core) = false → Answers (.nttAttemptBoundary rid) s fun _ _ => d1))) ∧
      (r.work = [] → Does (.nttJobDone rid 0) s fun t => t = s.after (fun e d => d.finishNtt e r j core (d.nttResult r j)) ∧
        t.die.getAt .NTT_CORE_JOBS_COUNT core = (s.die.getAt .NTT_CORE_JOBS_COUNT core + 1) % 2 ^ 32 ∧
        StoreFrame workBlocks (.NTT_CORE_JOBS_COUNT :: replyFlds) s t) ∧
      (r.work ≠ [] → Answers (.nttJobDone rid 0) s fun _ d =>
        ((((d.dropNtt rid).resumeNtt core).wrapAt2 .NTT_CORE_JOBS_COUNT core 0 1).count 8 1 r.tenant 1).workDone r) ∧
      (∀ kind : Nat, kind ≠ 0 → Answers (.nttJobDone rid kind) s fun e d => d.nttMismatch e r j core kind)) ∧
    (Accepted s.die rid 0x4F r → cancelHeaderOk r false = true → r.inLen = 0 → RangesOk s.die r →
      (∀ x ∈ s.die.que.reqs, x.isNttJob = true → x.tenant = r.tenant → leNat x.tag ≠ r.inAddr) →
      Answers (.nttCancel rid) s fun e d => (d.complete e r (Reply.done 0)).port 0 0)

/-! ## Steering, the table and the store (spec/03, spec/04, spec/05) -/

/-- R81, R111, R325: a write of a steering entry is taken on the lead die alone; it keeps the position the entry had as its previous one; it
is refused with STEER_REFUSED while another previous position still holds sessions, and recorded when no die has the position; the other
dies follow the lead's message, and a message that the previous position holds no more sessions clears VALID. -/
def Obligations.Steering : Prop :=
  ∀ (s : State) (index pos : Nat), Settled s →
    let i := index % 64
    let now := s.die.getAt .REC_STEER_POSITION i
    let free : Prop := s.die.getAt .ENS_STEER_PREV_VALID i = 0 ∨ s.die.getAt .ENS_STEER_PREV_POSITION i = pos
    let moved (t : State) : Prop := t.die.getAt .REC_STEER_POSITION i = pos ∧ t.die.getAt .ENS_STEER_PREV_POSITION i = now % 8 ∧
      t.die.getAt .ENS_STEER_PREV_VALID i = 1 ∧ ∀ j : Nat, j < 64 → j ≠ i → t.die.getAt .REC_STEER_POSITION j = s.die.getAt .REC_STEER_POSITION j
    let flds : List Fld := [.REC_STEER_POSITION, .ENS_STEER_PREV_POSITION, .ENS_STEER_PREV_VALID]
    (s.die.isLead = false → Answers (.recSteerWrite index pos) s fun _ d => d.access 0) ∧
    (s.die.isLead = true → pos < 8 →
      (pos < s.die.size → pos ≠ now → free → Does (.recSteerWrite index pos) s fun t => moved t ∧ Frame [.que, .out, .ens, .evr] flds s t) ∧
      (pos < s.die.size → pos ≠ now → ¬free → Does (.recSteerWrite index pos) s fun t =>
        t.die.get .ENS_EVENT_STEER_REFUSED = 1 ∧ Frame [.que, .out] [.ENS_EVENT_STEER_REFUSED] s t) ∧
      (s.die.size ≤ pos → Does (.recSteerWrite index pos) s (Frame [.que, .out, .evr] lossFlds s))) ∧
    (pos < 8 → pos < s.die.size →
      (pos ≠ now → free → Does (.steerUpdateReceived index pos true) s fun t => moved t ∧ Frame [] flds s t) ∧
      (s.die.getAt .ENS_STEER_PREV_POSITION i = pos → Does (.steerUpdateReceived index pos false) s fun t =>
        t.die.getAt .ENS_STEER_PREV_VALID i = 0 ∧ Frame [] [.ENS_STEER_PREV_VALID] s t))

/-- R91, R134, R135, R136, R138: TBL_LOCK takes a free lock, answers again a lock its tenant holds, waits behind another tenant's and stops at
the tenant's limit; TBL_UNLOCK gives back the lock its tenant holds; TBL_FIND, TBL_READ, TBL_UPDATE and TBL_DELETE look up the session they
name; a found session is answered, viewed, changed or marked deleted; when the last record of a session marked deleted is over and its
interlock is free, it is removed, and the deletion completes when its slot writes are. -/
def Obligations.TableAccess : Prop :=
  ∀ (s : State) (rid : Nat) (r : Req),
    (let home := handleHome r.handle
     let k := mainKey home (handleBucket r.handle)
     r.zeroBytes 56 64 = true → s.die.unserved home = false → s.die.serverOf home = s.die.pos → s.die.servesSlice home = true →
     s.die.badHandle r (.handle r.handle) = false → RangesOk s.die r →
     (Accepted s.die rid 0x80 r →
       (s.die.lockOf k = none → s.die.locksHeld r.tenant < s.die.locksAllowed → s.die.kft.locks.length < 1024 →
         Answers (.tblLock rid) s fun e d =>
           (({ d with kft := { d.kft with locks := d.kft.locks ++ [({ bucket := k, tenant := r.tenant } : Lock)] } } : Die).lockReply e r).port 0 r.inLen) ∧
       (s.die.lockOf k = none → s.die.locksAllowed ≤ s.die.locksHeld r.tenant →
         Answers (.tblLock rid) s fun e d => (d.fail e r .limitReached 5).port 0 r.inLen) ∧
       (∀ l : Lock, s.die.lockOf k = some l →
         (l.tenant = r.tenant → Answers (.tblLock rid) s fun e d => (d.lockReply e r).port 0 r.inLen) ∧
         (l.tenant ≠ r.tenant → Settled s → Does (.tblLock rid) s fun t => t.die.kft.lockWait = s.die.kft.lockWait ++ [(rid, k)] ∧
           t.die.kft.locks = s.die.kft.locks ∧ Frame [.que, .kft, .evr] [.PMC_TEN_CNT_COUNT] s t))) ∧
     (Accepted s.die rid 0x81 r →
       ((∀ l : Lock, s.die.lockOf k = some l → l.tenant ≠ r.tenant) → Answers (.tblUnlock rid) s fun e d => (d.lockReply e r).port 0 r.inLen) ∧
       (∀ l : Lock, s.die.lockOf k = some l → l.tenant = r.tenant →
         Answers (.tblUnlock rid) s fun e d => (((d.dropLock k).lockReply e r).unlock e k).port 0 r.inLen))) ∧
    (∀ key : LookKey, s.die.key.esk.isSome = true → s.die.lookKey s.env r = some key → s.die.unserved (s.die.keyPosition key) = false →
      s.die.serverOf (s.die.keyPosition key) = s.die.pos →
      let looks (c : Instr) : Prop := Answers c s fun e d => (d.startLookup e r key (d.keyPosition key)).port 0 r.inLen
      (Accepted s.die rid 0x82 r → RangesOk s.die r → r.zeroBytes 57 64 = true → r.byte 56 = 1 ∨ r.byte 56 = 3 → 1 ≤ r.inLen → r.inLen ≤ 20 →
        looks (.tblFind rid)) ∧
      (Accepted s.die rid 0x83 r → RangesOk s.die r → r.zeroBytes 56 64 = true → 64 ≤ r.outLen → looks (.tblRead rid)) ∧
      (Accepted s.die rid 0x84 r → RangesOk s.die r → r.byte 56 ≤ 1 → r.byte 57 ≤ 1 → r.byte 58 ≤ 1 → r.byte 56 = 0 ∨ r.byte 57 = 0 →
        r.zeroBytes 59 64 = true → looks (.tblUpdate rid)) ∧
      (Accepted s.die rid 0x85 r → RangesOk s.die r → r.zeroBytes 56 64 = true → looks (.tblDelete rid))) ∧
    (∀ (d : Die) (x : Session), x ∈ d.kft.sessions → d.session? x.uid = some x →
      let e := s.env
      (r.opcode = 0x82 → d.tableFound e r x = d.complete e r (d.recordReply r x (Reply.done 0))) ∧
      (r.opcode = 0x83 → d.tableFound e r x =
        (d.output e r r.outAddr (d.sessionView x)).complete e r (d.recordReply r x (Reply.done 64)) ∧ (d.sessionView x).length = 64) ∧
      (r.opcode = 0x84 → r.byte 56 = 1 → r.byte 57 = 0 → r.byte 58 = 0 → bit x.sflags 2 = false → d.held (d.bucketOf x) = false →
        let d1 := d.updSession x.uid fun y => { y with sflags := x.sflags ||| 4, lastSeen := x.lastSeen }
        d.tableFound e r x = (d1.writeSlots e (d.bucketOf x) x.slots r.rid).completeWritten e r (d1.recordReply r x (Reply.done 0))) ∧
      (r.opcode = 0x85 → { x with deleting := some r.rid } ∈ (d.tableFound e r x).kft.sessions)) ∧
    (∀ x : Session, s.die.kft.sessions.find? (fun x => x.deleting == some rid) = some x → x.inFlight = 0 → s.die.held (s.die.bucketOf x) = false →
      (s.die.req? rid = some r → r.opcode / 16 = 8 → Answers (.tblDeleteComplete rid) s fun e d =>
        (d.deleteSession e x rid).completeWritten e r (d.recordReply r x (Reply.done 0))) ∧
      (s.die.req? rid = none → Answers (.tblDeleteComplete rid) s fun e d => d.deleteSession e x rid) ∧
      (∀ y ∈ (s.die.removeSession s.env x rid).kft.sessions, y.uid ≠ x.uid) ∧
      ∀ t : State, exec (.tblDeleteComplete rid) s = .next t → StoreFrame workBlocks (.ENS_STEER_PREV_VALID :: goFlds) s t)

/-- R128, R129, R131, R132, R133: a relocation brings a session back from its Crumb bucket under a raised MOVE_GEN; the minute advances; a visit
of the sweep removes the sessions of its bucket that are over their age or whose tenant is being removed, and no other session, and goes on
to the next bucket or ends the pass; a read that fails is tried once more; a batch timer posts its AGED entries, and a batch that another
die sends is posted here. -/
def Obligations.TableUpkeep : Prop :=
  ∀ (s : State) (bucket tenant : Nat),
    (let home := keyHome bucket
     let c := crumbKey home (s.die.crumbOf home (keyIdx bucket))
     keyKind bucket = 0 → s.die.locked bucket = false → s.die.inWrite bucket = false → s.die.inWrite c = false →
     s.die.bucketPoisoned bucket = false → s.die.bucketPoisoned c = false →
     ∀ d1 : Die, s.die.readBuckets s.env 0 bucket c = (d1, none) → ∀ x : Session, d1.relocatable home (keyIdx bucket) = some x →
     let d2 := d1.moveSession s.env bucket c x 0
     Answers (.relocate bucket) s (fun _ _ => d2) ∧
       (∃ y ∈ d2.kft.sessions, y.uid = x.uid ∧ y.crumb = false ∧ y.slots = (d1.freeSlots bucket).take x.slots.length) ∧
       d2.bucketMeta bucket = { d1.bucketMeta bucket with moveGen := ((d1.bucketMeta bucket).moveGen + 1) % 4096 }) ∧
    (Settled s → Does .tableMinuteTick s fun t => t.die.get .KFT_MINUTE_MINUTE = (s.die.get .KFT_MINUTE_MINUTE + 1) % 2 ^ 16 ∧
      Frame [.out, .ens, .evr] [.KFT_MINUTE_MINUTE] s t) ∧
    (∀ k : Nat,
     (let d := s.die.checkLate
      let n := d.sweepHomes.length * d.sliceBuckets
      let p := d.kft.sweepPos
      let on (d : Die) : Prop := n ≤ p + 1 ∧ d.sweepOn = d.endPass ∨ p + 1 < n ∧ d.sweepOn.kft.sweepPos = p + 1
      (d.kft.sweepRetry = none → d.sweepBucket p = some k → d.bucketPoisoned k = false →
        (∀ d1 : Die, d.readBucket s.env 0 k = (d1, none) →
          (d1.locked k = false → d1.held k = false → Answers (.sweepVisit false) s fun e _ => (d1.sweepRemove e k).sweepOn) ∧
          (d1.locked k = true ∨ d1.held k = true → Answers (.sweepVisit false) s fun _ _ => d1)) ∧
        (∀ (d1 : Die) (f : StoreFault), d.readBucket s.env 0 k = (d1, some f) → Answers (.sweepVisit false) s fun _ _ => d1.sweepOn) ∧
        (d.knownEmpty k = false → Settled s → Does (.sweepVisit true) s fun t => t.die.kft.sweepRetry = some k ∧ t.die.kft.sessions = s.die.kft.sessions)) ∧
      on d ∧
      (d.sweepBucket p = none → d.sweepHomes ≠ [] → d.sliceBuckets ≠ 0 → Settled s → Does (.sweepVisit false) s fun t => t.die.kft.sweepPos = 0 ∧
        t.die.get .KFT_SWEEP_STATUS_PASSES = (s.die.get .KFT_SWEEP_STATUS_PASSES + 1) % 2 ^ 16)) ∧
     (s.die.kft.sweepRetry = some k →
       let d : Die := { s.die with kft := { s.die.kft with sweepRetry := none } }
       (∀ d1 : Die, d.readBucket s.env 0 k = (d1, none) → d1.locked k = false → d1.held k = false →
         Answers (.sweepReadRetry false) s fun e _ => (d1.sweepRemove e k).sweepOn) ∧
       (Settled s → Does (.sweepReadRetry true) s fun t => t.die.kft.sweepRetry = none ∧ t.die.get .KFT_EVENT_SWEEP_LATE = 1 ∧
         t.die.kft.sessions = s.die.kft.sessions))) ∧
    (∀ (d : Die) (k : Nat),
      let d1 := d.dropOverdue s.env k
      (d.overdue k ≠ [] → keyKind k ≠ 0 → d.sweepRemove s.env k = (d.overdue k).foldl (fun d x =>
        let d := d.count 5 4 x.tenant 1
        if d.removingTenant x.tenant then d else d.addAged s.env x) d1) ∧
      (∀ x ∈ d1.kft.sessions, d.bucketOf x = k → x.deleting = none → d.removingTenant x.tenant = false ∧ d.aged x = false) ∧
      (∀ x ∈ d.kft.sessions, d.bucketOf x ≠ k → x ∈ d1.kft.sessions)) ∧
    (∀ b : AgedBatch, s.die.kft.batches.find? (fun b => b.tenant == tenant) = some b → Settled s → Does (.agedBatchTimer tenant none) s fun t =>
      t.die.kft = { s.die.kft with batches := s.die.kft.batches.filter fun x => x.tenant != tenant,
                                   batchNo := tput s.die.kft.batchNo tenant ((tget s.die.kft.batchNo tenant + 1) % 2 ^ 32) } ∧
        Frame (.kft :: ntfBlocks) ntfFlds s t) ∧
    (∀ b : Bytes, (s.die.fnOf? tenant).isSome = true → Answers (.agedBatchTimer tenant (some b)) s fun e d => d.notifyReceived e tenant b)

/-- R143, R150: raising a child of a version block raises that child's version by one and leaves every other child's as it was, as long as
its minor is below 127; a block that starts its re-seal gives the child written a version above every version it has had. -/
def Obligations.Versions : Prop :=
  ∀ (b : VBlock) (c : Nat), c < 32 → b.minors < 2 ^ 224 →
    (b.minor c < 127 → (b.raise c).version c = b.version c + 1 ∧ (b.raise c).minors < 2 ^ 224 ∧
      ∀ k : Nat, k < 32 → k ≠ c → (b.raise c).version k = b.version k) ∧
    (∀ (d : Die) (home level j k : Nat), d.vblock home level j = b → k < 32 → d.reseal? home level j = none → b.minor c = 127 →
      let b1 := (d.raiseChild home level j c).vblock home level j
      b1.version c = (b.major + 1) * 128 + 1 ∧ b.version k < b1.version c ∧ (k ≠ c → b1.version k = (b.major + 1) * 128))

/-- R147, R148, R150, R152, R158, R159, R162: a slot write whose flush read returns is over, with the re-seal that it ends, and what waited
goes on; a mirror message is applied and acknowledged; a change that stands in the mirror lets the writes that awaited it go on, and a mirror
that no longer answers is given up, with nothing left waiting for it; a re-seal goes on child by child, and a child that fails its check is
reported and left; a reformat ends what runs in its range, empties it and frees its entry; the archive epoch advances by one on the lead
die's confirmed command, and on another die only to the lead's value; it never falls. -/
def Obligations.StoreCommands : Prop :=
  ∀ (s : State) (wid src n : Nat) (body : Bytes),
    (∀ w : SlotWrite, s.die.mlf.writes.find? (fun w => w.wid == wid && w.stage == .flushing) = some w →
      let d1 := ({ s.die with mlf := { s.die.mlf with writes := s.die.mlf.writes.filter fun v => v.wid != wid } } : Die).mirror 2 w.home
        (treeKeyOf w.home 1 w.block) (leBytes 4 wid)
      (w.ends = false ∨ d1.reseal? w.home 1 w.block = none → Answers (.slotWriteComplete wid) s fun e _ => d1.storeOn e) ∧
      ∀ r : Reseal, w.ends = true → d1.reseal? w.home 1 w.block = some r → Answers (.slotWriteComplete wid) s fun e _ => (d1.doneReseal r).storeOn e) ∧
    (Settled s → (src + 1) % s.die.size = s.die.pos → src ≠ s.die.pos → Does (.mirrorReceived src body) s fun t =>
      t.die.mlf = (if leAt body 1 1 = src then { s.die.mlf with mirror := s.die.mlf.mirror.apply body }
        else { s.die.mlf with mirrorToo := s.die.mlf.mirrorToo.apply body }) ∧ Frame [.mlf, .out, .ens, .evr] [] s t) ∧
    (s.die.mlf.unacked.contains n = true →
      (Answers (.mirrorAck n) s fun e d => Die.acknowledged e { d with mlf := { d.mlf with
        unacked := d.mlf.unacked.filter (· != n), writes := d.mlf.writes.map fun w => { w with awaits := w.awaits.filter (· != n) } } }) ∧
      (Does (.mirrorAckTimeout n) s fun t => t.die.get .MLF_EVENT_MIRROR_LOST = 1 ∧ t.die.get .MLF_STATUS_MIRROR_OK = 0) ∧
      ∀ t : State, (exec (.mirrorAck n) s = .next t → StoreFrame workBlocks goFlds s t) ∧
        (exec (.mirrorAckTimeout n) s = .next t →
          StoreFrame workBlocks ([.MLF_EVENT_MIRROR_LOST, .MLF_STATUS_MIRROR_OK] ++ goFlds) s t)) ∧
    (∀ (level index child : Nat) (r : Reseal),
      s.die.mlf.reseals.find? (fun r => r.level == level && r.index == index && r.left.contains child) = some r →
      let i := index * 32 + child
      let done (d : Die) : Prop := Answers (.resealChildDone level index child false) s fun e _ => (d.childDone r child).storeOn e
      (Answers (.resealChildDone level index child true) s fun _ d => d.storeRead (if level = 1 then 128 else 64)) ∧
      (s.die.childOnWay r i = true → Answers (.resealChildDone level index child false) s fun _ d => d) ∧
      (s.die.childOnWay r i = false →
        (s.die.poisoned r.home (i * 32 ^ (level - 1)) = true → done s.die) ∧
        (s.die.poisoned r.home (i * 32 ^ (level - 1)) = false → ∀ d1 : Die,
          (s.die.resealChild s.env r.home level i (r.old.version child) = (d1, none) → done d1) ∧
          (s.die.resealChild s.env r.home level i (r.old.version child) = (d1, some .refused) →
            Answers (.resealChildDone level index child false) s fun _ _ => d1) ∧
          ∀ a b c : Nat, s.die.resealChild s.env r.home level i (r.old.version child) = (d1, some (.item a b c)) →
            done (d1.storeFault s.env 0 r.home (.item a b c))))) ∧
    (Settled s → ∀ index : Nat, s.die.mlf.reformat = none → (s.die.mlf.poison.any fun p => p.1 == index % 256) = true →
      Does (.poisonReformat index) s fun t => t.die.mlf = { s.die.mlf with reformat := some (index % 256) } ∧
        Frame [.que, .mlf] [.MLF_POISON_CTL_INDEX] s t) ∧
    (∀ (i : Nat) (p : Poison), s.die.mlf.reformat = some i → s.die.mlf.poison.find? (fun p => some p.1 == s.die.mlf.reformat) = some (i, p) →
      (Answers .poisonReformatDone s fun e d =>
        let d1 := (((d.endInside p).clearInside p).emptyRange e p).condEnds 0x15
        Die.storeOn e { d1 with mlf := { d1.mlf with reformat := none, poison := d1.mlf.poison.filter fun x => x.1 != i } }) ∧
      ∀ d : Die,
        (∀ x ∈ (d.clearInside p).kft.sessions, ∀ k ∈ x.slots, d.inRange p (d.bucketOf x) k = false) ∧
        (∀ o ∈ (d.clearInside p).key.objs, d.inRange p (handleKey (o.tenant / 256) o.tenant o.handle) 0 = false) ∧
        (∀ w ∈ (d.endInside p).mlf.writes, rangeCovers p w.home 1 w.block = false) ∧
        (∀ r ∈ (d.endInside p).mlf.reseals, rangeCovers p r.home r.level r.index = false)) ∧
    (Settled s → ∀ (confirm : Nat) (bump : Bool),
      let epoch := s.die.get .MLF_ARCHIVE_EPOCH_EPOCH
      (s.die.isLead = true → confirm = 0xA5 → bump = true → epoch < 2 ^ 32 - 1 → s.die.mlf.bumpWait = [] →
        Does (.archiveBump confirm bump none) s fun t =>
          t.die.get .MLF_ARCHIVE_EPOCH_EPOCH = epoch + 1 ∧ t.die.get .MLF_EVENT_EPOCH_BUMPED = 1 ∧
            Frame [.que, .out, .ens, .evr, .mlf] ([.MLF_ARCHIVE_EPOCH_EPOCH, .MLF_EVENT_EPOCH_BUMPED] ++ lossFlds) s t) ∧
      (¬(s.die.isLead = true ∧ confirm = 0xA5 ∧ bump = true ∧ epoch ≠ 2 ^ 32 - 1) → Does (.archiveBump confirm bump none) s
        (Frame [.que, .out, .evr] lossFlds s)) ∧
      (epoch < 2 ^ 32 → Does (.archiveBump confirm bump (some body)) s fun t => epoch ≤ t.die.get .MLF_ARCHIVE_EPOCH_EPOCH ∧
        (s.die.isLead = false → t.die.get .MLF_ARCHIVE_EPOCH_EPOCH = max epoch (leAt body 0 4)) ∧
        (s.die.isLead = true → t.die.mlf.bumpWait = s.die.mlf.bumpWait.filter (· != leAt body 0 1)) ∧
        Frame [.mlf, .out, .ens, .evr] [.MLF_ARCHIVE_EPOCH_EPOCH] s t))

/-! ## Keys, random numbers, handshakes and ceremonies (spec/07, spec/08, spec/09) -/

/-- R161, R235, R236, R241, R242, R243, R244, R245: a key-management request whose header, input length and ranges are in order, whose key
slots can be read and whose checks pass makes its object from random bytes, from its parent once a hash lane has done the derivation, from an
archive blob or from a wrapped key; narrows an object and never widens it, with its extension sealed again; empties a handle, at once or when
the uses in flight are over; answers the header and fingerprint of an object; or writes it out as an archive blob or under a wrap key. -/
def Obligations.KeyRequests : Prop :=
  ∀ (s : State) (rid : Nat) (r : Req), RangesOk s.die r →
    let e := s.env
    let ready (op : Nat) (key dest len attrs : Bool) : Prop := Accepted s.die rid op r ∧ keyHeaderOk r key dest len attrs = true
    let ends (c : Instr) (f : Env → Die → Die) : Prop := Answers c s fun e d => (f e d).port 0 r.inLen
    let slot (d d1 : Die) (handle : Nat) : Prop := d.loadKey e r.tenant handle = (d1, none)
    let empty (d d1 : Die) (handle : Nat) : Prop := slot d d1 handle ∧ d1.destCheck r.tenant handle = none
    (ready 0x60 false true (r.objType == 8) true → r.inLen = 0 → r.uses ≠ 0 → ∀ (n a : Nat) (d1 d2 : Die),
      symLen r.objType (leAt r.desc 52 2) = some n → empty s.die d1 r.destHandle → d1.drawFor rid n = .drawn d2 a → r.rid = rid →
        ends (.keyGenerate rid) fun e _ => d2.createAt e r (d2.newObj r 1 0 n (randomBytes a n)) (Reply.done 0)) ∧
    (ready 0x61 true true false true → r.rid = rid → r.uses ≠ 0 → bit r.aflags 1 = false →
      let b := dmaRead e s.die r.inAddr r.inLen
      let p := deriveBlock b
      8 ≤ r.inLen → r.inLen ≤ 328 → r.inLen = 8 + p.salt.length + p.info.length → deriveBlockOk b = true →
      (symLen r.objType 16).isSome = true → symLen r.objType p.out = some p.out → ∀ (o : KeyObj) (d1 d2 : Die),
      slot s.die d1 r.keyHandle →
      (d1.workKey r fun d => d.checkKey r.tenant r.keyHandle (fun o => o.type == 8 || o.type == 0x30) useDerive) = .ok o →
      empty d1 d2 r.destHandle →
      (∀ d3 : Die, r.worked = false → d2.coreless .hash = false → d2.takeUse e r r.keyHandle useDerive = .counted d3 →
        let w : Work := .hash p.alg (o.len + p.salt.length + p.info.length)
        ends (.keyDerive rid) fun _ _ => (d3.updReq rid fun x => { x with stage := .running, work := [w], drawn := 0 }).giveWork r w) ∧
      (r.worked = true → d2.writesPending rid = false → ends (.keyDerive rid) fun e _ =>
        d2.createAt e r (d2.newObj r 2 0 p.out (p.derive o.key (d2.measMasked p.mask))) (Reply.done 0))) ∧
    (r.inLen = 0 → ∀ (o : KeyObj) (d1 : Die), slot s.die d1 r.keyHandle →
      (ready 0x62 true false false true → d1.readKey r.tenant r.keyHandle = .ok o →
        let n := o.narrowed r
        let write (e : Env) (d : Die) (n : KeyObj) : Die := (((d.mapObjs (fun x => x.id == o.id) fun _ => n).writeHandle e r.tenant r.keyHandle
          rid).retire e r.tenant r.keyHandle).completeWritten e r (Reply.done 0)
        (narrows o r = false → ends (.keyAttrSet rid) fun e _ => d1.fail e r .policyDeny 0) ∧
        (narrows o r = true → (o.extended = false ∨ o.extAad = n.extAad → ends (.keyAttrSet rid) fun e _ => write e d1 n) ∧
          (o.extended = true → o.extAad ≠ n.extAad → ∀ (c : Bytes) (d2 : Die) (a : Nat), d1.readExt e o = some c →
            d1.dmaOk r.tenant o.extAddr o.extLen true = true → d1.drawFor r.rid 44 = .drawn d2 a → ends (.keyAttrSet rid) fun e _ =>
              write e (d2.output e r o.extAddr (sealExt n c o.extAddr a).2) { n with material := (sealExt n c o.extAddr a).1 }))) ∧
      (ready 0x63 true false false false → d1.deletable r.tenant r.keyHandle = .ok o →
        (o.inFlight = 0 → ends (.keyDelete rid) fun e _ =>
          ((d1.dropObj r.tenant r.keyHandle).writeHandle e r.tenant r.keyHandle rid).completeWritten e r (Reply.done 0)) ∧
        (o.inFlight ≠ 0 → ends (.keyDelete rid) fun _ _ => (d1.beginDelete o rid).setStage rid .running)) ∧
      (ready 0x64 true false false false → d1.readKey r.tenant r.keyHandle = .ok o →
        (r.outLen < 64 → ends (.keyInfo rid) fun e _ => d1.complete e r (tooSmall 64)) ∧
        (64 ≤ r.outLen → (∀ x : Nat, d1.unreadable e o = some x → ends (.keyInfo rid) fun e _ => d1.fail e r .paramRejected x) ∧
          (d1.unreadable e o = none → ends (.keyInfo rid) fun e _ =>
            d1.finishOut e r (o.header ++ d1.fingerprint e o ++ zeros 32)))) ∧
      (ready 0x65 true false false false → d1.readKey r.tenant r.keyHandle = .ok o → d1.get .LCS_STATE_STATE = 4 →
        (o.volatile = true ∨ o.uses ≠ uncounted → ends (.keyExport rid) fun e _ => d1.fail e r .policyDeny 0) ∧
        (o.volatile = false → o.uses = uncounted → 176 ≤ r.outLen → ∀ (d2 : Die) (a : Nat), d1.drawFor r.rid 12 = .drawn d2 a →
          let hdr := leBytes 4 archiveMagic ++ [1, 0] ++ leBytes 2 r.tenant ++ leBytes 2 r.keyHandle ++ leBytes 2 112 ++
            leBytes 4 (d2.get .MLF_ARCHIVE_EPOCH_EPOCH) ++ d2.ensembleTag ++ randomBytes a 12 ++ zeros 4
          ends (.keyExport rid) fun e _ =>
            d2.finishOut e r (hdr ++ gcmSeal (d2.archiveKey r.tenant) (randomBytes a 12) hdr o.payload)))) ∧
    (ready 0x66 false false false false → r.inLen = 176 → s.die.get .LCS_STATE_STATE = 4 → s.die.key.esk.isSome = true →
      let b := dmaRead e s.die r.inAddr 176
      let o (p : Bytes) : KeyObj := parseObj r.tenant (leAt b 8 2) p
      (s.die.openArchive r.tenant b = none → ends (.keyRestore rid) fun e d => d.fail e r .paramRejected 0x14) ∧
      ∀ (p : Bytes) (d1 : Die), s.die.openArchive r.tenant b = some p → empty s.die d1 (leAt b 8 2) →
        ((o p).extended = false ∨ r.outAddr = 0 → ends (.keyRestore rid) fun e _ => d1.createAt e r (o p) { Reply.done 0 with detail := 0 }) ∧
        ((o p).extended = true → r.outAddr ≠ 0 → r.outAddr % 64 = 0 → d1.dmaOk r.tenant r.outAddr (o p).extLen false = true →
          ends (.keyRestore rid) fun e _ =>
            d1.createAt e r { o p with material := patch (o p).material 0 (leBytes 8 r.outAddr) } { Reply.done 0 with detail := 1 })) ∧
    (ready 0x67 true true false false → r.inLen = 0 → ∀ (w o : KeyObj) (d1 d2 : Die), slot s.die d1 r.keyHandle →
      d1.wrapKey r useWrap = .ok w → slot d1 d2 r.destHandle → d2.readKey r.tenant r.destHandle = .ok o →
      (o.exportable = false → ends (.keyWrap rid) fun e _ => d2.fail e r .policyDeny 0) ∧
      (o.exportable = true → ceilDiv (16 + travelLen o.type o.param o.len) 8 * 8 + 8 ≤ r.outLen → ∀ (d3 : Die) (m : Bytes),
        (r.worked = true ∧ d3 = d2 ∨ r.worked = false ∧ ∃ d' : Die, d2.takeUse e r r.keyHandle useWrap = .counted d' ∧
          d3 = d'.updReq r.rid fun x => { x with worked := true }) → d3.writesPending r.rid = false →
        (if o.extended then d3.readExt e o else some o.travel) = some m → ends (.keyWrap rid) fun e _ =>
          d3.finishOut e r (kwp w.key (o.payload.take 8 ++ zeros 8 ++ m)))) ∧
    (ready 0x68 true true false true → r.inLen % 8 = 0 → 24 ≤ r.inLen → r.inLen ≤ 8192 → r.uses ≠ 0 → typeDefined r.objType = true →
      ∀ (w : KeyObj) (d1 d2 d3 : Die), slot s.die d1 r.keyHandle → d1.wrapKey r useUnwrap = .ok w → empty d1 d2 r.destHandle →
      (r.worked = true ∧ d3 = d2 ∨ r.worked = false ∧ ∃ d' : Die, d2.takeUse e r r.keyHandle useUnwrap = .counted d' ∧
        d3 = d'.updReq r.rid fun x => { x with worked := true }) → d3.writesPending r.rid = false →
      let wrapped := dmaRead e d3 r.inAddr r.inLen
      (kwpOpen w.key wrapped = none → ends (.keyUnwrap rid) fun e _ => d3.fail e r .authFail 8) ∧
      ∀ c : Bytes, kwpOpen w.key wrapped = some c →
        (leAt c 0 1 ≠ r.objType ∨ c.length ≠ 16 + travelLen r.objType (leAt c 5 1) (leAt c 6 2) →
          ends (.keyUnwrap rid) fun e _ => d3.fail e r .paramRejected 0x10) ∧
        (leAt c 0 1 = r.objType → c.length = 16 + travelLen r.objType (leAt c 5 1) (leAt c 6 2) → ends (.keyUnwrap rid) fun e _ =>
          d3.installObj e r (d3.newObj r 3 (leAt c 5 1) (leAt c 6 2) []) (c.drop 16) r.outAddr (Reply.done 0)))

/-- R161, R204, R215, R216, R230: a blob that the die has sealed opens under the same key, nonce and associated data to what it sealed; an archive
blob opens for its own tenant and archive epoch and for no other tenant; a ticket opens within its lifetime, and not after it; a context
blob carries a tag that the die accepts; and a key slot's payload spells the object it was written from. -/
def Obligations.SealedBlobs : Prop :=
  (∀ key nonce aad text : Bytes, gcmOpen key nonce aad (gcmSeal key nonce aad text) = some text) ∧
  (∀ (d : Die) (tenant other handle : Nat) (nonce p : Bytes), tenant < 2 ^ 16 → other < 2 ^ 16 → nonce.length = 12 → p.length = 112 →
    d.get .MLF_ARCHIVE_EPOCH_EPOCH < 2 ^ 32 →
    let hdr := leBytes 4 archiveMagic ++ [1, 0] ++ leBytes 2 tenant ++ leBytes 2 handle ++ leBytes 2 112 ++
      leBytes 4 (d.get .MLF_ARCHIVE_EPOCH_EPOCH) ++ d.ensembleTag ++ nonce ++ zeros 4
    let blob := hdr ++ gcmSeal (d.archiveKey tenant) nonce hdr p
    d.openArchive tenant blob = some p ∧ (other ≠ tenant → d.openArchive other blob = none)) ∧
  (∀ (d : Die) (tenant suite lifetime age : Nat) (psk nonce addIn : Bytes), tenant < 2 ^ 16 → suite < 256 → lifetime < 2 ^ 16 → age < 2 ^ 16 →
    nonce.length = 12 → addIn.length = 4 → psk.length = hashLen (suiteHash suite) → d.get .NTT_TICKET_EPOCH_EPOCH < 2 ^ 32 →
    d.get .KFT_MINUTE_MINUTE < 2 ^ 16 →
    let later := d.set .KFT_MINUTE_MINUTE (d.get .KFT_MINUTE_MINUTE + age)
    later.openTicket tenant (d.ticketBytes tenant suite lifetime psk nonce addIn) = if age ≤ lifetime then some (suite, psk) else none) ∧
  (∀ (d : Die) (c : HsCtx), c.ctxId < 2 ^ 32 → c.step < 2 ^ 32 → (d.blobBytes c).length = 1024 ∧ leAt (d.blobBytes c) 0 4 = c.ctxId ∧
    leAt (d.blobBytes c) 4 4 = c.step ∧ (d.blobBytes c).drop 1008 = d.blobTag (d.blobBytes c)) ∧
  (∀ o : KeyObj, o.type < 256 → o.usage < 256 → o.aflags < 256 → o.origin < 256 → o.policyId < 256 → o.param < 256 → o.len < 2 ^ 16 →
    o.hostUses < 2 ^ 32 → o.vgen < 2 ^ 32 → o.material.length = 96 →
    parseObj o.tenant o.handle o.payload = { o with uses := o.hostUses, ways := [], rrpv := 0, inFlight := 0, deleting := none })

/-- R265, R266, R267, R269, R270: a random request of a length in its range joins its queue, or completes RNG_FAULT in FAULT and POLICY_DENY
where the tenant may not draw full entropy; the head of a queue takes what its queue and its rate allow, and completes with its bytes; a
request that has waited 1 ms while the generator is not READY completes RNG_NOT_READY; raw samples are read only under test access. -/
def Obligations.RandomRequests : Prop :=
  ∀ (s : State) (rid : Nat) (r : Req),
    (RangesOk s.die r → r.zeroBytes 16 32 = true → r.zeroBytes 48 64 = true → 1 ≤ r.outLen → ∀ full : Bool,
      let c : Instr := if full then .rngFullEntropy rid else .rngDrbg rid
      let allowed : Prop := full = true → ∃ fn : Nat, s.die.fnOf? r.tenant = some fn ∧ s.die.hasAt .RNG_TEN_CFG_FE_ALLOWED fn = true
      Accepted s.die rid (if full then 0x71 else 0x70) r → r.outLen ≤ (if full then 4096 else 65536) →
      (allowed → s.die.get .RNG_STATUS_STATE ≠ 3 → Settled s → Does c s fun t =>
        t.die.rng = { s.die.rng with waits := s.die.rng.waits ++ [{ rid, full, need := r.outLen, got := 0 }] } ∧ Frame [.que, .rng] [] s t) ∧
      (allowed → s.die.get .RNG_STATUS_STATE = 3 → Answers c s fun e d => d.fail e r .rngFault 0) ∧
      (¬allowed → Answers c s fun e d => d.fail e r .policyDeny 0)) ∧
    (∀ (full : Bool) (w : RngWait), s.die.get .RNG_STATUS_STATE = 1 → s.die.rngHead full = some (w, r) →
      let fn := (s.die.fnOf? r.tenant).getD 0
      let n := min (w.need - w.got) (64 * s.die.unitsLeft fn)
      n ≠ 0 → n ≤ (if full then s.die.rng.feBytes else s.die.rng.drbgBytes) →
      (w.got + n < w.need → Answers (.rngHeadServed full) s fun _ d => d.takeRandom w fn n) ∧
      (w.need ≤ w.got + n → Answers (.rngHeadServed full) s fun e d =>
        let d1 := d.takeRandom w fn n
        (((((d1.forget r.rid).draw w.need).wrapAt2 .RNG_TEN_BYTES_COUNT fn 0 w.need)).count 9 1 r.tenant w.need).finishOut e r
          (randomBytes d1.rng.draws w.need))) ∧
    ((s.die.rng.waits.any fun w => w.rid == rid) = true → s.die.req? rid = some r → r.fetchMs < s.die.nowMs →
      (s.die.get .RNG_STATUS_STATE = 0 ∨ s.die.get .RNG_STATUS_STATE = 2 →
        Answers (.rngHoldTimeout rid) s fun e d => d.endWait e .rngNotReady rid) ∧
      (s.die.get .RNG_STATUS_STATE = 1 → Answers (.rngHoldTimeout rid) s fun _ d => d)) ∧
    (Settled s → Does (.rngRawRead 0) s fun t => Frame [.que, .out, .rng] [] s t ∧
      t.die.out = .readData 0 0x580048 (if s.die.rawDiverted then Config.rawSamples s.die.rng.rawReads % 2 ^ 64 else 0) :: s.die.out)

/-- R262, R263, R264, R268, R269, R270: a window that closes leaves every seeded instance seeded and, with four of them, reaches READY; a fill
adds 64 bytes from the next instance in rotation; a reseed timer makes a reseed due; a health-test failure empties the queues, unseeds
every instance, is counted, and reruns the start-up test; 60 s in READY clear the reruns; test access injects a failure and is refused
outside the states that have it. -/
def Obligations.Generator : Prop :=
  ∀ (s : State) (rct apt : List Nat) (i src : Nat) (byApt : Bool), Settled s →
    (s.die.clk.stable = true → s.die.get .RNG_STATUS_STATE ≤ 2 → s.die.rawDiverted = false → Does (.rngWindowClose rct apt) s fun t =>
      t.die.rng.startupDone = true ∧ (∀ k : Nat, k < 8 → s.die.seeded k = true → t.die.seeded k = true) ∧
        (4 ≤ s.die.seededCount → t.die.get .RNG_STATUS_STATE = 1) ∧ t.die.que.reqs = s.die.que.reqs) ∧
    (s.die.get .RNG_STATUS_STATE = 3 → Answers (.rngWindowClose rct apt) s fun _ d => d) ∧
    (s.die.get .RNG_STATUS_STATE = 1 → s.die.rng.drbgBytes + 64 ≤ 65536 → s.die.ntt.ctxKeyGen ≠ 0 → s.die.nextInstance = some i →
      Does .drbgQueueFill s fun t => t.die.rng.drbgBytes = s.die.rng.drbgBytes + 64 ∧ (t.die.drbg i).calls = (s.die.drbg i).calls + 1 ∧
        s.die.seeded i = true ∧ (s.die.drbg i).reseedDue = false ∧ Frame [.rng] [] s t) ∧
    (i < 8 → s.die.seeded i = true → (s.die.drbg i).sinceMs + 1000 ≤ s.die.nowMs → Does (.drbgReseedTimer i) s fun t =>
      t.die.drbg i = { s.die.drbg i with reseedDue := true } ∧ Frame [.rng] [] s t) ∧
    (s.die.get .RNG_STATUS_STATE = 1 → s.die.clk.stable = true → s.die.rng.waits = [] →
      let failed (t : State) : Prop :=
        t.die.get .RNG_STATUS_STATE = 2 ∧ t.die.get .RNG_STATUS_SEEDED = 0 ∧ t.die.get .RNG_EVENT_HEALTH_FAIL = 1 ∧
          t.die.rng = { s.die.rng with drbgBytes := 0, feBytes := 0, insts := [], startupDone := false } ∧
          t.die.get .RNG_FAIL_COUNT_COUNT = satAdd 32 (s.die.get .RNG_FAIL_COUNT_COUNT) 1 % 2 ^ 32
      let flds : List Fld := [.RNG_SRC_STATUS_APT_PEAK, .RNG_SRC_STATUS_RCT_PEAK, .RNG_STATUS_SEEDED, .RNG_FAIL_COUNT_COUNT, .RNG_STATUS_FAIL_SOURCES,
        .RNG_EVENT_HEALTH_FAIL, .RNG_STATUS_RERUNS, .RNG_STATUS_STATE] ++ lossFlds
      (Does (.rngHealthFail src byApt) s fun t => failed t ∧ Frame [.rng, .que, .out, .evr] flds s t) ∧
      (s.die.rngTestOpen = true → Does (.rngInject src) s fun t => failed t ∧
        Frame [.rng, .que, .out, .evr] (.RNG_TEST_INJECT_SRC :: flds) s t)) ∧
    (s.die.rngTestOpen = false → Answers (.rngInject src) s fun _ d => d.access 0) ∧
    (s.die.get .RNG_STATUS_STATE = 1 → s.die.rng.readyMs + 60000 ≤ s.die.nowMs → Does .rngRerunClearTimer s fun t => t.die.get .RNG_STATUS_RERUNS = 0 ∧ Frame [] [.RNG_STATUS_RERUNS] s t)

/-! ## Handshakes, statements and ceremonies (spec/07, spec/08) -/

/-- R205, R206, R207, R208, R210, R216, R217: HS_OPEN with a suite and group of its protocol, and a peer share of the group's length, takes the
next free context; once its work is done it answers the server's share, with the shared secret kept in the context; a suite or group that the
protocol does not have completes PARAM_REJECTED. HS_RESUME does the same with the PSK of a ticket whose binder verifies. A step's work is
one hash message over T and D and the jobs of its step, which run one after another; with no unit of a block in service it completes
FAULT_RETRY; given again after its work, the step goes on with the random bytes it drew. -/
def Obligations.HandshakeOpens : Prop :=
  ∀ (s : State) (rid : Nat) (r : Req) (t data : Bytes),
    let e := s.env
    (∀ (d : Die) (alg draw : Nat) (jobs : Nat → List Work) (use : Option (Nat × Nat)) (k : Die → Nat → Die),
      let all (a : Nat) : List Work := (if r.inLen = 8 then [] else [.hash alg (r.inLen - 8)]) ++ jobs a
      let free : Prop := r.worked = false ∧ (all 0).any (fun w => d.coreless w.unit) = false
      (r.worked = true → d.stepWork e r alg jobs draw use k = k d r.drawn) ∧
      (r.worked = false → (all 0).any (fun w => d.coreless w.unit) = true →
        d.stepWork e r alg jobs draw use k = d.fail e r .faultRetry (faultDetail 0xFF none 0)) ∧
      (∀ (d1 d2 : Die) (a : Nat), free → (draw = 0 ∧ d1 = d ∧ a = 0 ∨ draw ≠ 0 ∧ d.drawFor r.rid draw = .drawn d1 a) →
        (use = none ∧ d2 = d1 ∨ ∃ handle usage : Nat, use = some (handle, usage) ∧ d1.takeUse e r handle usage = .counted d2) →
        (all a = [] → d.stepWork e r alg jobs draw use k = k d2 a) ∧
        ∀ (w : Work) (ws : List Work), all a = w :: ws → d.stepWork e r alg jobs draw use k =
          (d2.updReq r.rid fun x => { x with stage := .running, work := w :: ws, drawn := a }).giveWork r w)) ∧
    (StepInput s r t data → s.die.ntt.ctxKeyGen ≠ 0 →
    let opened (i : Instr) (c0 : HsCtx) (group : Nat) (peer : Bytes) (make : HsCtx → Bytes → HsCtx) : Prop :=
      let go (e : Env) (d : Die) (id : Nat) : Die := d.stepWork e r c0.hashAlg (fun _ => groupWork group) (groupDraw group) none fun d1 a =>
        match shareParts (groupParts group) peer a with
        | .error st => d1.fail e r st 0
        | .ok x => d1.stepOk e r (make (d1.takeUp { c0 with ctxId := id } r.rid) x.2) x.1 0
      (∀ c : HsCtx, s.die.ntt.ctxs.find? (fun c => c.busy == r.rid) = some c → Answers i s fun e d => (go e d c.ctxId).port 0 r.inLen) ∧
      (s.die.ntt.ctxs.find? (fun c => c.busy == r.rid) = none →
        (s.die.freeCtx = none → Answers i s fun e d => (d.fail e r .limitReached 6).port 0 r.inLen) ∧
        ∀ id : Nat, s.die.freeCtx = some id → Answers i s fun e d =>
          let d1 := d.putCtx (d.takeUp { c0 with ctxId := id } r.rid)
          (go e { d1 with ntt := { d1.ntt with nextCtx := (id + 1) % ctxEntries } } id).port 0 r.inLen)
    (Accepted s.die rid 0x50 r →
      (r.protocol = 1 → dtlsCombination r.suite r.group = false → Answers (.hsOpen rid) s fun e d =>
        (d.fail e r .paramRejected 0x13).port 0 r.inLen) ∧
      (shareLen r.group ≤ r.outLen →
        let c0 : HsCtx := { HsCtx.fresh 0 r.tenant r.protocol r.suite r.prf t with peerAuth := r.wantPeerAuth }
        (r.protocol = 1 → dtlsCombination r.suite r.group = true → data.length = peerLen r.group →
          opened (.hsOpen rid) c0 r.group data fun c z => { c with shared := z }) ∧
        (r.protocol = 2 → 1 ≤ r.suite → r.suite ≤ 4 → 1 ≤ r.group → r.group ≤ 3 → 1 ≤ r.prf → r.prf ≤ 3 →
          ∀ spis ni nr peer : Bytes, ikeOpenData data = some (spis, ni, nr, peer) → peer.length = peerLen r.group →
          opened (.hsOpen rid) { c0 with spis, nonceI := ni, nonceR := nr } r.group peer fun c z => c.ikeFirst z))) ∧
    (Accepted s.die rid 0x58 r → r.protocol = 1 → s.die.key.esk.isSome = true →
      let group := if r.pskDhe then r.group else 0
      let alg := suiteHash r.suite
      let h := hashLen alg
      let binder := slice data 112 h
      dtlsCombination r.suite (if r.pskDhe then r.group else 1) = true → data.length = 112 + h + peerLen group → shareLen group ≤ r.outLen →
      (s.die.openTicket r.tenant (data.take 112) = none → Answers (.hsResume rid) s fun e d => (d.fail e r .noSession 5).port 0 r.inLen) ∧
      ∀ (suite : Nat) (psk : Bytes), s.die.openTicket r.tenant (data.take 112) = some (suite, psk) →
        (suiteHash suite ≠ alg → Answers (.hsResume rid) s fun e d => (d.fail e r .paramRejected 0x13).port 0 r.inLen) ∧
        (suiteHash suite = alg →
          let key := expandLabel alg (deriveSecret alg (earlySecret alg psk) "res binder" []) "finished" [] h
          (hmac alg key (hashBytes alg h t) ≠ binder → Answers (.hsResume rid) s fun e d => (d.fail e r .authFail 6).port 0 r.inLen) ∧
          (hmac alg key (hashBytes alg h t) = binder → opened (.hsResume rid)
            { HsCtx.fresh 0 r.tenant 1 r.suite 0 (t ++ beBytes 2 (h + 1) ++ leBytes 1 h ++ binder) with resumed := true, psk } group
            (data.drop (112 + h)) fun c z => { c with shared := z }))))

/-- R204, R206, R207, R209, R211, R213, R217: on an open context whose blob is in place, a step that comes in its order takes the context up,
does its work, puts the context back with STEP raised and writes the new blob and its output; a step out of its order completes
BAD_DESCRIPTOR with DETAIL 9; a proof that does not verify completes AUTH_FAIL; HS_FREE frees the context of a valid blob, whatever its STEP. -/
def Obligations.HandshakeSteps : Prop :=
  ∀ (s : State) (rid : Nat) (r : Req) (t data : Bytes) (c : HsCtx), StepInput s r t data →
    let c0 := s.die.takeUp c r.rid
    let d0 := s.die.putCtx c0
    let dtls : Prop := c.protocol = 1
    let ends (i : Instr) (f : Env → Die) : Prop := Answers i s fun e _ => (f e).port 0 r.inLen
    let works (i : Instr) (d : Die) (jobs : Nat → List Work) (draw : Nat) (use : Option (Nat × Nat)) (k : Env → Die → Nat → Die) : Prop :=
      ends i fun e => d.stepWork e r c.hashAlg jobs draw use (k e)
    let late (i : Instr) : Prop := ends i fun e => d0.fail e r .badDescriptor 9
    (OpenCtx s r c →
    (Accepted s.die rid 0x51 r →
      (c.protocol ≠ 2 ∨ 2 ≤ c.addke → late (.hsAddke rid)) ∧
      (c.protocol = 2 → c.addke < 2 → r.group = 0x20 ∨ r.group = 0x21 → t = [] → data.length = peerLen r.group → shareLen r.group ≤ r.outLen →
        works (.hsAddke rid) d0 (fun _ => groupWork r.group) (groupDraw r.group) none fun e d1 a =>
          match shareParts (groupParts r.group) data a with
          | .error st => d1.fail e r st 0
          | .ok y => d1.stepOk e r { (if c0.retained then { c0 with secrets := c0.secrets ++ [y.2] }
              else { c0 with nextKe := c0.nextKe ++ [y.2] }) with addke := c0.addke + 1 } y.1 0)) ∧
    (dtls → t = [] → data ≠ [] →
      (Accepted s.die rid 0x52 r →
        (c.helloDone = false → late (.hsProtect rid)) ∧
        (c.helloDone = true → (c0.protectDtls (d0.recCfg r) data).length ≤ r.outLen → works (.hsProtect rid) d0 (fun _ => []) 0 none
          fun e d1 _ => d1.stepOk e r { c0 with prSeq := c0.prSeq + 1 } (c0.protectDtls (d0.recCfg r) data) 0)) ∧
      (Accepted s.die rid 0x53 r →
        (c.helloDone = false → late (.hsUnprotect rid)) ∧
        (c.helloDone = true → parseDtls data (d0.recCfg r).cidLen = none → ends (.hsUnprotect rid) fun e => d0.fail e r .badDescriptor 3) ∧
        (∀ h : DtlsHdr, c.helloDone = true → parseDtls data (d0.recCfg r).cidLen = some h →
          data.length - h.len - suiteTag c.suite - 1 ≤ r.outLen → works (.hsUnprotect rid) d0 (fun _ => []) 0 none fun e d1 _ =>
            match c0.openDtls (d0.recCfg r).cidLen data with
            | .error f => d1.fail e r f.1 f.2
            | .ok y => d1.stepOk e r y.1 y.2.dropLast 0))) ∧
    (c.protocol = 2 → t = [] → data ≠ [] → ∀ aad body : Bytes, ikeParts data = some (aad, body) →
      (Accepted s.die rid 0x52 r → body.length + 25 ≤ r.outLen → works (.hsProtect rid) d0 (fun _ => []) 8 none fun e d1 a =>
        d1.stepOk e r (c0.chain false aad body).endExchange (c0.protectIke aad body (randomBytes a 8)) 0) ∧
      (Accepted s.die rid 0x53 r → body.length - 25 ≤ r.outLen → works (.hsUnprotect rid) d0 (fun _ => []) 0 none fun e d1 _ =>
        match c0.openIke aad body with
        | .error f => d1.fail e r f.1 f.2
        | .ok plain => d1.stepOk e r (c0.chain true aad plain) plain 0)) ∧
    (Accepted s.die rid 0x54 r →
      (c.maySign = false → late (.hsSign rid)) ∧
      (c.maySign = true → 1 ≤ r.sigalg → r.sigalg ≤ 8 → (dtls → data = []) → (¬dtls → t = [] ∧ 4 ≤ data.length ∧ data.length ≤ 260) →
        (dtls → c0.append t = none → late (.hsSign rid)) ∧
        ∀ (c1 : HsCtx) (o : KeyObj) (d1 : Die), (if dtls then c0.append t = some c1 else c1 = c0) →
          let msg := if dtls then certVerifyContent "server" (suiteHash c.suite) c1.transcript else c0.ownOctets data
          d0.loadKey s.env r.tenant r.stepKey = (d1, none) →
          (d1.workKey r fun d => d.checkKey r.tenant r.stepKey (signFits r.sigalg) useSign) = .ok o →
          sigRoom r.sigalg (ceilDiv o.len 8) ≤ r.outLen →
          works (.hsSign rid) d1 (fun a => signWork r.sigalg o.len msg.length (signTries r.sigalg o msg a)) (sigDraw r.sigalg)
            (some (r.stepKey, useSign)) fun e d2 a =>
              match signWith r.sigalg o (d2.readExt e o) msg a with
              | none => d2.fail e r .paramRejected 0x10
              | some y => d2.stepOk e r { c1 with signed := true } y.1 y.2)) ∧
    (Accepted s.die rid 0x55 r →
      (dtls → c.finished = false ∨ c.retained = true → late (.hsVerifyPeer rid)) ∧
      ((dtls → c.finished = true ∧ c.retained = false) → 1 ≤ r.sigalg → r.sigalg ≤ 8 → 1 ≤ leAt data 16 1 → leAt data 16 1 ≤ 8 →
        verifyLengthsOk r.sigalg (c.protocol == 1) { t, data } = true → leAt data 17 1 = 0 → ∀ (o : KeyObj) (d1 : Die),
        d0.loadKey s.env r.tenant r.stepKey = (d1, none) →
        (d1.workKey r fun d => d.checkKey r.tenant r.stepKey (verifyFits (leAt data 16 1)) useVerify) = .ok o →
        sigLenOk (leAt data 16 1) (leAt data 12 2) (some (ceilDiv o.len 8)) = true →
        works (.hsVerifyPeer rid) d1 (fun _ => verifyWork (leAt data 16 1) (ceilDiv o.len 8) (leAt data 4 4) ++
          verifyWork r.sigalg (leAt data 14 2) (t.length + leAt data 18 2)) 0 (some (r.stepKey, useVerify)) fun e d2 _ =>
            d2.verifyPeer e r c0 { t, data } o)) ∧
    (Accepted s.die rid 0x56 r →
      (c.protocol ≠ 1 ∨ c.finished = true ∨ (c.signed = false ∧ c.resumed = false) → late (.hsFinished rid)) ∧
      (dtls → c.finished = false → c.signed = true ∨ c.resumed = true → data = [] → ∀ c1 : HsCtx, c0.append t = some c1 →
        let vd := c1.verifyData c1.hsServer
        let tr := c1.transcript ++ finishedMsg vd
        let alg := suiteHash c.suite
        vd.length ≤ r.outLen → works (.hsFinished rid) d0 (fun _ => []) 0 none fun e d1 _ =>
          d1.stepOk e r { c1 with transcript := tr, finished := true, appClient := deriveSecret alg c1.master "c ap traffic" tr,
                                  appServer := deriveSecret alg c1.master "s ap traffic" tr } vd 0))) ∧
    (∀ step : Nat, Accepted s.die rid 0x5F r → t = [] → data = [] → s.die.ntt.ctxKeyGen ≠ 0 → c.ctxId < 2 ^ 32 → s.die.ctx? c.ctxId = some c →
      c.tenant = r.tenant → (s.die.ctxBusy c = false ∨ c.busy = r.rid) → dmaRead s.env s.die r.ctxAddr 1024 = s.die.blobBytes { c with step } →
      ends (.hsFree rid) fun e => (d0.dropCtx c.ctxId).complete e r { Reply.done 0 with detail := stepDetail c.ctxId 0 }) ∧
    (∀ (d : Die) (o : KeyObj),
      let e := s.env
      let tbs := slice t (leAt data 0 4) (leAt data 4 4)
      let proof := slice data (20 + leAt data 12 2) (leAt data 14 2)
      let tr := c.transcript ++ t
      let badKey : Prop := o.extended = true ∧ d.readExt e o = none
      let good : Prop := verifyWith (leAt data 16 1) o (d.readExt e o) tbs (slice data 20 (leAt data 12 2)) = true ∧
        leAt data 0 4 ≤ leAt data 8 4 ∧ leAt data 8 4 < leAt data 0 4 + leAt data 4 4 ∧
        Config.spkiVerifies r.sigalg (tbs.drop (leAt data 8 4 - leAt data 0 4)) (certVerifyContent "client" (suiteHash c.suite) tr) proof = true
      dtls →
        (badKey → d.verifyPeer e r c { t, data } o = d.fail e r .paramRejected 0x10) ∧
        (¬badKey → good → d.verifyPeer e r c { t, data } o =
          d.stepOk e r { c with verified := true, transcript := tr ++ certVerifyMsg r.sigalg proof } [] 0) ∧
        (¬badKey → ¬good → d.verifyPeer e r c { t, data } o = d.fail e r .authFail 4))

/-- R23, R137, R206, R209, R211, R212, R214, R218: an install before its handshake is finished is out of order; one whose client Finished does not
verify completes AUTH_FAIL; an IKEv2 install learns the outbound session before the inbound one; a learning that ends installs the sessions,
one that meets a lock or an interlock waits for it; a key update on a retained context puts the next traffic secret of one direction in force,
and names no session but the one installed; a step that another die forwarded here learns or rekeys here; a context left idle or retained too
long is zeroized and counted. -/
def Obligations.HandshakeEnds : Prop :=
  ∀ (s : State) (rid : Nat) (r : Req) (t data : Bytes) (c : HsCtx),
    let c0 := s.die.takeUp c r.rid
    let d0 := s.die.putCtx c0
    let ends (i : Instr) (f : Env → Die) : Prop := Answers i s fun e _ => (f e).port 0 r.inLen
    let works (i : Instr) (draw : Nat) (k : Env → Die → Nat → Die) : Prop :=
      ends i fun e => d0.stepWork e r c.hashAlg (fun _ => []) draw none (k e)
    let late (i : Instr) : Prop := ends i fun e => d0.fail e r .badDescriptor 9
    (r.fn? = none →
      (Accepted s.die rid 0x57 r → Answers (.hsInstall rid) s fun e d => d.stepHere e r) ∧
      (Accepted s.die rid 0x59 r → Answers (.hsKeyupdate rid) s fun e d => d.stepHere e r)) ∧
    (r.fn? ≠ none → StepInput s r t data → OpenCtx s r c →
      (Accepted s.die rid 0x57 r →
        (c.protocol = 1 → c.finished = false ∨ c.retained = true ∨ (c.peerAuth = true ∧ c.verified = false) → late (.hsInstall rid)) ∧
        (c.protocol = 1 → c.finished = true → c.retained = false → c.peerAuth = false ∨ c.verified = true →
          dtlsInstallOk data r.wantTicket = true → (if r.wantTicket then 124 else 8) ≤ r.outLen →
          works (.hsInstall rid) (if r.wantTicket then 16 else 0) fun e d1 a =>
            if t.drop (t.length - hashLen (suiteHash c.suite)) ≠ c.verifyData c.hsClient then d1.fail e r .authFail 6
            else d1.learnLast e d1 r c0 (c.dtlsSession data (d1.windowCode r (leAt data 42 1))) none (d1.installTicket r c0 t data a)) ∧
        (c.protocol = 2 → r.wantTicket = false → c.verified = false ∨ c.signed = false → late (.hsInstall rid)) ∧
        (c.protocol = 2 → r.wantTicket = false → c.verified = true → c.signed = true → t = [] → 11 ≤ data.length → leAt data 10 1 < 16 →
          1 ≤ leAt data 8 1 → leAt data 8 1 ≤ 4 → bits (leAt data 10 1) 3 2 ≠ 3 → (leAt data 8 1 = 4 → bits (leAt data 10 1) 3 2 = 0) →
          16 ≤ r.outLen → ∀ nonces : Bytes, c.childNonces data = some nonces → works (.hsInstall rid) 0 fun e d1 _ =>
            let ss := c.childPair data nonces (d1.windowCode r (leAt data 9 1))
            match d1.learn e ss.1 d1.pos r.rid with
            | .waits k => d1.waitInterlock k r.rid
            | .locked m => d1.waitLock r m
            | .refused d2 st x => d2.fail e r st x
            | .learned d2 s1 => d2.learnLast e d1 r c0 ss.2 (some s1) [])) ∧
      (Accepted s.die rid 0x59 r →
        (c.protocol = 1 → c.retained = false → late (.hsKeyupdate rid)) ∧
        (c.protocol = 1 → c.retained = true → t = [] → data.length = 9 → leAt data 8 1 ≤ 1 →
          (leAt data 0 8 ≠ c.handle → ends (.hsKeyupdate rid) fun e => d0.fail e r .noSession 1) ∧
          (leAt data 0 8 = c.handle → works (.hsKeyupdate rid) 0 fun e d1 _ =>
            let write := leAt data 8 1 == 1
            let c1 := c0.nextSecret write
            let ks := trafficKeys c.suite (if write then c1.appServer else c1.appClient)
            let keys := ks.1 ++ ks.2.1 ++ ks.2.2
            let home := handleHome c.handle
            if d1.unserved home || d1.serverOf home != d1.pos then
              d1.sendStep r c0 home (leBytes 8 c.handle ++ leBytes 1 (ofBool write) ++ keys)
            else match d1.rekeyHere e r.tenant c.handle rid write keys with
              | .waits d2 => d2
              | .refused st y => d1.fail e r st y
              | .done d2 => d2.stepOk e r c1 [] 0)))) ∧
    (∀ (d d' : Die) (x : Session) (before : Option Session) (ticket : Bytes),
      let e := s.env
      let home := d.learnHome x
      d.unserved home = false → d.serverOf home = d.pos →
        (∀ (d1 : Die) (y : Session), d.learn e x home r.rid = .learned d1 y → d.learnLast e d' r c x before ticket =
          d1.installed e r c (y.learned d.pos :: (before.map fun x => x.learned d.pos).toList) ticket) ∧
        (∀ k : Nat, d.learn e x home r.rid = .waits k → d.learnLast e d' r c x before ticket = d'.waitInterlock k r.rid) ∧
        (∀ k : Nat, d.learn e x home r.rid = .locked k → d.learnLast e d' r c x before ticket = d'.waitLock r k) ∧
        (∀ (d1 : Die) (st : Status) (z : Nat), before = none → d.learn e x home r.rid = .refused d1 st z →
          d.learnLast e d' r c x before ticket = d1.fail e r st z)) ∧
    (∀ (d : Die) (x : Session) (handle : Nat) (write : Bool) (keys : Bytes),
      d.kft.sessions.find? (fun x => x.matches r.tenant (.handle handle) && x.deleting.isNone) = some x → d.bucketPoisoned (d.bucketOf x) = false →
        (x.inFlight ≠ 0 → d.rekeyHere s.env r.tenant handle rid write keys = .waits d) ∧
        (x.inFlight = 0 → d.heldFor (d.bucketOf x) rid = false →
          (if write then (x.rekey write keys).wrKey ≠ x.wrKey else (x.rekey write keys).rdKey ≠ x.rdKey) →
          let d1 := (d.passInterlock (d.bucketOf x) rid).updSession x.uid fun y => y.rekey write keys
          d.rekeyHere s.env r.tenant handle rid write keys =
            .done (match d1.session? x.uid with | some y => d1.writeSession s.env y rid | none => d1))) ∧
    (∀ (ctx : Nat) (retained : Bool), s.die.ctx? ctx = some c → s.die.ctxBusy c = false → Settled s →
      let i : Instr := if retained then .hsContextRetainTimeout ctx else .hsContextIdleTimeout ctx
      (c.retained = retained → c.lastMs + s.die.ctxTime retained ≤ s.die.nowMs → Does i s fun t => t.die.ctx? ctx = none ∧
        t.die.get .NTT_HS_EXPIRED_COUNT = (s.die.get .NTT_HS_EXPIRED_COUNT + 1) % 2 ^ 32 ∧ Frame [.ntt] [.NTT_HS_EXPIRED_COUNT] s t) ∧
      (c.retained ≠ retained ∨ s.die.nowMs < c.lastMs + s.die.ctxTime retained → Answers i s fun _ d => d)) ∧
    (∀ (x : Session) (keys : Bytes), (x.rekey true keys).wrEpoch = (x.wrEpoch + 1) % 65536 ∧ (x.rekey true keys).seq = 0 ∧
      (x.rekey true keys).rdKey = x.rdKey ∧ (x.rekey false keys).rdEpoch = (x.rdEpoch + 1) % 65536 ∧ (x.rekey false keys).bitmap = 0 ∧
      (x.rekey false keys).wrKey = x.wrKey ∧ (x.rekey false keys).seq = x.seq)

/-- R247, R248, R249, R250, R251, R252, R256, R257: ATTEST signs a statement over its nonce on the cores and is counted; a ceremony opens with a
fresh nonce and the next serial, one at a time; a token for another request, or one whose signature does not verify, is refused; a token that
verifies is counted once for its custodian, and the last one that is needed performs the ceremony; a cancel or the lapse of 300 s closes it.
A message of another die is taken as its kind says. -/
def Obligations.Ceremonies : Prop :=
  ∀ (s : State) (rid : Nat) (r : Req) (parts : List DiePart),
    let ends (i : Instr) (f : Env → Die → Die) : Prop := Answers i s fun e d => (f e d).port 0 r.inLen
    let b := dmaRead s.env s.die r.inAddr r.inLen
    (RangesOk s.die r → keyHeaderOk r false false false false = true →
    (Accepted s.die rid 0x69 r → 12 ≤ r.inLen → r.inLen ≤ 68 → 8 ≤ leAt b 1 1 → leAt b 1 1 ≤ 64 → r.inLen = 4 + leAt b 1 1 → leAt b 0 1 < 8 →
      (bit (leAt b 0 1) 2 = true → r.fn? = some 0 ∧ s.die.isLead = true ∧ s.die.key.esk.isSome = true) →
      let ask : AttestAsk := { nonce := b.drop 4, chain := bit (leAt b 0 1) 0, tenant := if r.fn? = some 0 then none else some r.tenant, key := none,
                               imports := bit (leAt b 0 1) 2 }
      (bit (leAt b 0 1) 1 = false → ends (.attest rid) fun e d => d.attest e r ask) ∧
      (bit (leAt b 0 1) 1 = true → ∀ (o : KeyObj) (d1 : Die), s.die.loadKey s.env r.tenant (leAt b 2 2) = (d1, none) →
        d1.readKey r.tenant (leAt b 2 2) = .ok o → d1.unreadable s.env o = none →
        ends (.attest rid) fun e _ => d1.attest e r { ask with key := some (o.header, d1.fingerprint e o) })) ∧
    (r.fn? = some 0 → s.die.isLead = true →
      (Accepted s.die rid 0x6A r → 8 ≤ r.inLen → r.inLen ≤ 65536 → cerRequestOk b = true → cerAllowed (s.die.get .LCS_STATE_STATE) (cerKind b) = true →
        (s.die.key.ceremony ≠ none → ends (.cerBegin rid) fun e d => d.fail e r .limitReached 7) ∧
        (s.die.key.ceremony = none → 96 ≤ r.outLen → ∀ (d1 : Die) (a : Nat), s.die.drawFor r.rid 32 = .drawn d1 a →
          let serial := (d1.get .KEY_CEREMONY_SERIAL_SERIAL + 1) % 2 ^ 64
          let digest := sha384 (ascii "TY8K40-CER" ++ d1.digestOf .ENS_IDENTITY_DIGEST ++ leBytes 8 serial ++ b)
          let c : Ceremony := { serial, kind := cerKind b, digest, nonce := randomBytes a 32, request := b, approved := 0 }
          let d2 := (((({ d1 with key := { d1.key with ceremony := some c } }.set .KEY_CEREMONY_SERIAL_SERIAL serial).set
            .KEY_CEREMONY_STATUS_STATE 1).set .KEY_CEREMONY_STATUS_KIND (cerKind b)).set .KEY_CEREMONY_STATUS_REMAINING_S 300).sendCer
              ([10] ++ leBytes 8 serial)
          let d3 (e : Env) : Die := d2.output e r r.outAddr (digest ++ c.nonce ++ leBytes 8 serial ++ zeros 8)
          let rep := { Reply.done 96 with detail := cerDetail 0 (d2.cerNeeds (cerKind b)) (cerKind b) }
          (d1.firstOwner = true → cerKind b = 5 → ends (.cerBegin rid) fun e _ => ((d3 e).performCeremony e rid c rep [] 0 0).finish e r c rep) ∧
          (d1.firstOwner = false ∨ cerKind b ≠ 5 → (ends (.cerBegin rid) fun e _ => (d3 e).complete e r rep) ∧
            Does (.cerBegin rid) s fun t => t.die.get .KEY_CEREMONY_STATUS_STATE = 1 ∧ t.die.get .KEY_CEREMONY_SERIAL_SERIAL = serial))) ∧
      (∀ c : Ceremony, s.die.key.ceremony = some c → s.die.performing = false →
        (Accepted s.die rid 0x6B r → r.inLen = 184 ∨ r.inLen = 3397 ∨ r.inLen = 4811 → leAt b 0 4 = tokenMagic → leAt b 4 1 = 1 →
          leAt b 7 1 = 0 → tokenLen (leAt b 6 1) = some r.inLen →
          let i := if leAt b 5 1 = 0xFF then 8 else leAt b 5 1
          (slice b 8 48 ≠ c.digest ∨ slice b 56 32 ≠ c.nonce → ends (.cerApprove rid parts none) fun e d => d.rejectToken e r c 7) ∧
          (slice b 8 48 = c.digest → slice b 56 32 = c.nonce →
            (r.worked = false → (tokenWork (leAt b 6 1)).any (fun w => s.die.coreless w.unit) = false → ∀ (w : Work) (ws : List Work),
              tokenWork (leAt b 6 1) = w :: ws → ends (.cerApprove rid parts none) fun _ d =>
                (d.updReq r.rid fun x => { x with stage := .running, work := w :: ws, drawn := 0 }).giveWork r w) ∧
            (r.worked = true →
              (s.die.tokenOk c.kind b = false → ends (.cerApprove rid parts none) fun e d => d.rejectToken e r c 4) ∧
              (s.die.tokenOk c.kind b = true →
                let need := s.die.cerNeeds c.kind
                (bit c.approved i = true → ends (.cerApprove rid parts none) fun e d =>
                  ({ d with key := { d.key with ceremony := some c } }.set .KEY_CEREMONY_STATUS_APPROVALS (approvals c.approved)).complete e r
                    { Reply.done 0 with detail := cerDetail (approvals c.approved) need c.kind }) ∧
                (bit c.approved i = false →
                  let n := approvals (c.approved + 2 ^ i)
                  let c1 := { c with approved := c.approved + 2 ^ i }
                  let rep := { Reply.done 0 with detail := cerDetail n need c.kind }
                  let d1 := { s.die with key := { s.die.key with ceremony := some c1 } }.set .KEY_CEREMONY_STATUS_APPROVALS n
                  (n < need → ends (.cerApprove rid parts none) fun e _ => d1.complete e r rep) ∧
                  (need ≤ n → s.die.key.dealing = none → ends (.cerApprove rid parts none) fun e d =>
                    d.withCerDraws e r c.kind fun x a fe => (x.performCeremony e rid c1 rep parts a fe).finish e r c1 rep)))))) ∧
        (Accepted s.die rid 0x6C r → r.inLen = 0 → (ends (.cerCancel rid) fun e d => d.closeCeremony.complete e r (Reply.done 0)) ∧
          Does (.cerCancel rid) s fun t => t.die.get .KEY_CEREMONY_STATUS_STATE = 0)))) ∧
    (∀ m : Bytes, Answers (.cerApprove rid parts (some m)) s fun e d => d.cerMessage e m) ∧
    (∀ c : Ceremony, s.die.key.ceremony = some c → s.die.performing = false → s.die.get .KEY_CEREMONY_STATUS_REMAINING_S = 0 → Settled s →
      Does .ceremonyLapse s fun t =>
        t.die.key = { s.die.key with ceremony := none } ∧ t.die.get .KEY_CEREMONY_STATUS_STATE = 0 ∧ t.die.get .KEY_EVENT_CEREMONY_LAPSED = 1 ∧
          Frame [.key, .que, .out, .evr] ([.KEY_CEREMONY_STATUS_STATE, .KEY_CEREMONY_STATUS_KIND, .KEY_CEREMONY_STATUS_APPROVALS,
            .KEY_CEREMONY_STATUS_REMAINING_S, .KEY_EVENT_CEREMONY_LAPSED] ++ lossFlds) s t) ∧
    (∀ (d : Die) (ask : AttestAsk),
      let e := s.env
      let size := (d.statement ask r.drawn).1.length
      (r.outLen < size → d.attest e r ask = d.complete e r (tooSmall size)) ∧
      (size ≤ r.outLen →
        (r.worked = true → let st := d.statement ask r.drawn
          d.attest e r ask = (d.countStatement.output e r r.outAddr st.1).complete e r { Reply.done st.1.length with detail := min st.2 65535 }) ∧
        (∀ (d1 : Die) (a : Nat) (w : Work) (ws : List Work), r.worked = false →
          (d.statementWork ask 0).any (fun w => d.coreless w.unit) = false → d.drawFor r.rid statementDraw = .drawn d1 a →
          d.statementWork ask a = w :: ws →
          d.attest e r ask = (d1.updReq r.rid fun x => { x with stage := .running, work := w :: ws, drawn := a }).giveWork r w)))

/-! ## Epochs, dirty logging, the steward and the Tin image (spec/10, spec/11) -/

/-- R276, R37, R266, R277, R288, R289: an epoch boundary counts, puts the pending operating point and cap in force and clears the counts of random units; what a
working function gets for its epoch is its share, of which it first pays its debt; the steward samples the requests that wait and zeroizes
rotated keys that none uses, and its choice of a point is made on the lead die alone, at most once in 100 ms and never from Capped; a TY6C request becomes native requests
that run in turn. A step with no command waiting is one millisecond of CLK_SLOW, the model's choice of log entry 1: the domain time goes
up by one, the watchdog down by one while it runs, a 0.1 h of operation is counted, and only counts of time change. -/
def Obligations.Epochs : Prop :=
  ∀ (s : State),
    (Settled s → s.pending = [] → ∃ t : State, step s = .next t ∧ t.die.nowMs = s.die.nowMs + 1 ∧
      t.die.get .ENS_DOMAIN_TIME_VALUE = (s.die.get .ENS_DOMAIN_TIME_VALUE + 1) % 2 ^ 64 ∧
      (s.die.wdogRuns = true →
        t.die.get .WLD_WDOG_STATUS_REMAINING_MS = (s.die.get .WLD_WDOG_STATUS_REMAINING_MS - 1) % 2 ^ 10) ∧
      (¬(s.die.clk.phase = .stopped ∨ s.die.tmp.backup.active = true) → s.die.evr.hoursMs + 1 = 360000 →
        t.die.get .EVR_OP_HOURS_VALUE = satAdd 32 (s.die.get .EVR_OP_HOURS_VALUE) 1 % 2 ^ 32 ∧ t.die.evr.hoursMs = 0) ∧
      Frame [.nowMs, .evr] [.EVR_OP_HOURS_VALUE, .PMC_TEN_CYCLES_CYCLES, .PMC_TEN_CNT_COUNT, .ENS_DOMAIN_TIME_VALUE, .WLD_WDOG_STATUS_REMAINING_MS,
        .TMP_BACKUP_TIME_SECONDS, .TMP_BACKUP_TIME_FRACTION, .KEY_CEREMONY_STATUS_REMAINING_S, .DBG_STATUS_REMAINING_S] s t) ∧
    (s.die.clk.stable = true → s.die.parked = false → ∃ d : Die, exec .schedEpoch s = .next (s.finish (d.placeJobs s.env)) ∧
      d.get .TEN_EPOCH_COUNT = (s.die.get .TEN_EPOCH_COUNT + 1) % 2 ^ 64 ∧ d.rng.units = [] ∧
        d.get .PWR_STATUS_POINT = s.die.get .PWR_OPPOINT_POINT % 4 ∧ d.tin.atEpoch = [] ∧
        d.clk.capInForce = (if s.die.get .PWR_OPPOINT_POINT = 3 then s.die.get .PWR_OPPOINT_CAP else d.imageCap) ∧
        (s.die.tin.atEpoch ≠ [] → d.tin.running = s.die.tin.atEpoch)) ∧
    (∀ (d : Die) (caps : List Nat) (fn b : Nat), d.getAt .TEN_STATE_STATE fn = 2 → b < 3 →
      let old := (d.ctl fn).debt.getD b 0
      let c := (d.epochFn caps fn).ctl fn
      c.used = [] ∧ c.budget.getD b 0 + (old - c.debt.getD b 0) = d.shareOf fn b * caps.getD b 0 / 256 ∧
        (0 < c.debt.getD b 0 → c.budget.getD b 0 = 0)) ∧
    (∃ d : Die, exec .stewardSample s = .next (s.finish (d.zeroizeRotated s.env)) ∧ Keeps [] [.TEN_STEWARD_DEPTH_VALUE] s.die d ∧
      ∀ fn : Nat, fn < 256 → d.getAt .TEN_STEWARD_DEPTH_VALUE fn =
        if s.die.hasAt .TEN_STATE_STEWARD fn then ((List.range 16).map fun p => s.die.stewardWaiting fn p).sum % 2 ^ 32
        else s.die.getAt .TEN_STEWARD_DEPTH_VALUE fn) ∧
    (∀ waiting uses : List Nat, Settled s → s.die.isLead = true → s.die.delegated = true →
      let ten := s.die.ten.evaluate (s.die.conWaiting s.env false + waiting.sum) (s.die.ten.ensembleUse uses)
      let now := s.die.get .PWR_OPPOINT_POINT
      (∀ p : Nat, ten.choice = some p → p ≠ now → now ≠ 3 → ten.lastOpChange = 0 ∨ ten.lastOpChange + 100 ≤ s.die.nowMs →
        Does (.stewardOpEval waiting uses) s fun t => t.die.get .PWR_OPPOINT_POINT = p ∧ t.die.get .PWR_OPPOINT_SOURCE = 2 ∧
          t.die.get .TEN_EVENT_STEWARD_OP = 1 ∧ t.die.ten = { ten with lastOpChange := s.die.nowMs } ∧
          Frame [.ten, .que, .out, .ens, .evr] ([.PWR_OPPOINT_POINT, .PWR_OPPOINT_SOURCE, .TEN_EVENT_STEWARD_OP] ++ lossFlds) s t) ∧
      (ten.choice = none ∨ ten.choice = some now ∨ now = 3 → Does (.stewardOpEval waiting uses) s fun t => t.die.ten = ten ∧ Frame [.ten] [] s t)) ∧
    (∀ (rid : Nat) (r : Req), s.die.req? rid = some r → r.stage = .fetched → s.die.startable r = true → s.die.untranslated r = true →
      let natives := Config.stewardRequests r.desc
      let orig := r.desc
      ((natives.all fun x => stewardOp (leAt x 0 1)) = false → Answers (.stewardRequest rid) s fun e d =>
        (d.updReq rid fun x => { x with orig }).fail e { r with orig } .badDescriptor 1) ∧
      (natives = [] → Answers (.stewardRequest rid) s fun e d =>
        (d.updReq rid fun x => { x with orig }).complete e { r with orig } (Reply.done 0)) ∧
      ((natives.all fun x => stewardOp (leAt x 0 1)) = true → natives ≠ [] → Answers (.stewardRequest rid) s fun e d =>
        let x := d.stewardHandle e r natives
        let ds := natives.map fun n => if Config.stewardRotatable orig then withHandle n x.2 else n
        x.1.updReq rid fun q => { q with orig, desc := ds.headD [], rest := ds.tail }))

/-- R284, R285, R286: starting to log takes the range and the bitmap of the request; a harvest and the end of logging merge every mark in the
cache into the bitmap that was active, after which a harvest goes on in the new bitmap and the end clears the range; their reply gives the
number of pages marked; a tenant that logs already, or does not log, is answered with DETAIL 8. -/
def Obligations.DirtyLogging : Prop :=
  ∀ (s : State) (rid : Nat) (r : Req), r.fn? = some 0 → r.zeroBytes 57 64 = true → r.bitmap % 4096 = 0 → r.logFn ≠ 0 →
    s.die.getAt .TEN_STATE_STATE r.logFn ≠ 0 → s.die.getAt .TEN_STATE_STATE r.logFn ≠ 6 →
    let f := r.logFn
    let flds := [.TEN_STATE_LOGGING, .TEN_MIG_BITMAP_VALUE, .TEN_MIG_RANGE_BASE_VALUE, .TEN_MIG_RANGE_LEN_VALUE] ++ replyFlds
    let bitmapOk (len : Nat) : Prop := s.die.dmaOk r.tenant r.bitmap (len / 32768) false = true ∧
      s.die.dmaOk r.tenant r.bitmap (len / 32768) true = true
    let shows (t : State) (on map base len : Nat) : Prop := t.die.getAt .TEN_STATE_LOGGING f = on ∧ t.die.getAt .TEN_MIG_BITMAP_VALUE f = map ∧
      t.die.getAt .TEN_MIG_RANGE_BASE_VALUE f = base ∧ t.die.getAt .TEN_MIG_RANGE_LEN_VALUE f = len
    (Settled s → Accepted s.die rid 0xF0 r → r.zeroBytes 40 56 = true → r.rangeBase % 2 ^ 21 = 0 → r.rangeLen % 2 ^ 21 = 0 → r.rangeLen ≤ 2 ^ 42 →
      (s.die.getAt .TEN_STATE_LOGGING f = 0 → bitmapOk r.rangeLen → Does (.migLogStart rid) s fun t =>
        shows t 1 r.bitmap r.rangeBase r.rangeLen ∧ StoreFrame (.ten :: replyBlocks) flds s t) ∧
      (s.die.getAt .TEN_STATE_LOGGING f ≠ 0 → Answers (.migLogStart rid) s fun e d => d.fail e r .limitReached 8)) ∧
    (Settled s → Accepted s.die rid 0xF1 r → r.zeroBytes 24 56 = true →
      (s.die.getAt .TEN_STATE_LOGGING f ≠ 0 → bitmapOk (s.die.getAt .TEN_MIG_RANGE_LEN_VALUE f) → Does (.migHarvest rid) s fun t =>
        shows t (s.die.getAt .TEN_STATE_LOGGING f) r.bitmap (s.die.getAt .TEN_MIG_RANGE_BASE_VALUE f) (s.die.getAt .TEN_MIG_RANGE_LEN_VALUE f) ∧
          StoreFrame (.ten :: replyBlocks) flds s t) ∧
      (s.die.getAt .TEN_STATE_LOGGING f = 0 → Answers (.migHarvest rid) s fun e d => (d.fail e r .noSession 8).keepLate e f rid)) ∧
    (Settled s → Accepted s.die rid 0xF2 r → r.zeroBytes 24 56 = true → r.bitmap = 0 →
      (s.die.getAt .TEN_STATE_LOGGING f ≠ 0 → Does (.migLogStop rid) s fun t => shows t 0 0 0 0 ∧ StoreFrame (.ten :: replyBlocks) flds s t) ∧
      (s.die.getAt .TEN_STATE_LOGGING f = 0 → Answers (.migLogStop rid) s fun e d => d.fail e r .noSession 8)) ∧
    (∀ p : Nat, p ∈ (s.die.ctl f).cached →
      let k := p - s.die.getAt .TEN_MIG_RANGE_BASE_VALUE f / 4096
      let d := s.die.mergeMarks s.env f
      bit (leAt (dmaRead s.env d (s.die.getAt .TEN_MIG_BITMAP_VALUE f + k / 8) 1) 0 1) (k % 8) = true ∧ (d.ctl f).marks = [] ∧ (d.ctl f).cached = [] ∧ (d.ctl f).late = [] ∧
        (s.die.marked f).detail = min (2 ^ 32 - 1) (s.die.ctl f).marks.length)

/-- R303, R304, R305, R306, R307, R308, R312: an image that fails a check is refused with its REASON and leaves every bank as it was; one that
passes is staged; activation makes the staged image current with an empty chain, live when only live sections and fields differ, else with
an ensemble reset; a delta that passes joins the chain; a discard empties the staged bank. In an ensemble of more dies the others first make
the checks that are theirs, then all commit, the lead die last; one that fails a check refuses the operation on every die. -/
def Obligations.TinRequests : Prop :=
  ∀ (s : State) (rid : Nat) (r : Req),
    let e := s.env
    let d0 := s.die.setStage rid .running
    let b := dmaRead e d0 r.inAddr r.inLen
    let ends (i : Instr) (d : Die) : Prop := Answers i s fun _ _ => d.port 0 r.inLen
    (r.fn? = some 0 → s.die.isLead = true → r.handle = 0 → RangesOk s.die r → s.die.tin.op = none →
      (∀ owner : Bytes × Bytes, d0.ownerPair = some owner → r.inLen = leAt b 8 4 → r.zeroBytes 56 64 = true → 48 ≤ r.outLen →
        (Accepted s.die rid 0xF8 r → r.inLen ≤ 786432 →
          let f := (d0.frameFault 1 b).orElse fun _ => d0.stageFault owner b
          (∀ x : Nat × Nat, f = some x → ends (.tinStage rid none) (d0.tinRefused e (tinOp rid 0xF8 b) x)) ∧
          (f = none → ends (.tinStage rid none) (d0.tinCommits e (tinOp rid 0xF8 b)))) ∧
        (Accepted s.die rid 0xFA r → r.inLen ≤ 65536 →
          let f := (d0.frameFault 2 b).orElse fun _ => d0.deltaFault owner b
          (∀ x : Nat × Nat, f = some x → ends (.tinDelta rid none) (d0.tinRefused e (tinOp rid 0xFA b) x)) ∧
          (f = none → ends (.tinDelta rid none) (d0.tinAsks e (tinOp rid 0xFA b))))) ∧
      (Accepted s.die rid 0xF9 r → r.inLen = 0 → r.zeroBytes 60 64 = true → 48 ≤ r.outLen →
        let x := tinOp rid 0xF9 (leBytes 4 (leAt r.desc 56 4))
        (∀ f : Nat × Nat, d0.tinVote 0xF9 x.image = some f → ends (.tinActivate rid none) (d0.tinRefused e x f)) ∧
        (d0.tinVote 0xF9 x.image = none → ends (.tinActivate rid none) (d0.tinAsks e x))) ∧
      (Accepted s.die rid 0xFB r → r.inLen = 0 → r.zeroBytes 56 64 = true →
        ends (.tinDiscard rid none) (d0.tinCommits e (tinOp rid 0xFB [])))) ∧
    (∀ m : Bytes, Answers (.tinStage rid (some m)) s (fun e d => d.tinMessage e 0xF8 m) ∧
      Answers (.tinActivate rid (some m)) s (fun e d => d.tinMessage e 0xF9 m) ∧
      Answers (.tinDelta rid (some m)) s (fun e d => d.tinMessage e 0xFA m) ∧ Answers (.tinDiscard rid (some m)) s fun e d => d.tinMessage e 0xFB m) ∧
    (∀ (d : Die) (x : TinOp),
      let fault := x.refusal.orElse fun _ => if x.op = 0xFA then d.chainFault x.image else none
      (d.otherDies = [] → d.tinCommits e x = d.tinDone e x ∧
        (fault = none → d.tinAsks e x = d.tinDone e x) ∧ ∀ f : Nat × Nat, fault = some f → d.tinAsks e x = d.tinRefused e x f) ∧
      (d.otherDies ≠ [] → (d.tinCommits e x).tin.op = some { x with committing := true, wait := d.otherDies } ∧
        (d.tinAsks e x).tin.op = some { x with wait := d.otherDies } ∧ (d.tinCommits e x).get .TIN_STATUS_BUSY = 1) ∧
      (∀ (pos : Nat) (f : Option (Nat × Nat)), d.tin.op = some x → x.wait = [pos] →
        let x1 := { x with wait := [], refusal := x.refusal.orElse fun _ => f }
        let d1 := { d with tin := { d.tin with op := some x1 } }
        d.tinAnswered e pos f = if x.committing then d1.tinDone e x1 else d1.tinVoted e x1) ∧
      (∀ f : Nat × Nat, let t := d.tinRefused e x f
        t.tin = { d.tin with op := none } ∧ (d.tinReq x = some r →
          t.get .TIN_STATUS_LAST_REASON = f.1 % 2 ^ 8 ∧ t.get .TIN_EVENT_REFUSED = 1)) ∧
      (x.op = 0xF9 → d.activatesLive = false → ∃ d1 : Die, d.tinDone e x = d1.resetEnsemble e ∧ d1.tin = (d.endTin.tinCommit e 0xF9 x.image).tin) ∧
      (x.op = 0xFB → x.rid ≠ 0 → d.tinReq x = some r →
        d.tinDone e x = (d.endTin.setStaged none).complete e r (Reply.done 0))) ∧
    (∀ (d : Die) (image : Bytes),
      (let t := d.tinCommit e 0xF8 image
       t.tin = { d.tin with staged := some (bankImage image) } ∧ t.get .TIN_STATUS_STAGED = 1 ∧
         t.get .TIN_STAGED_SERIAL_VALUE = imgSerial image ∧ t.get .TIN_EVENT_STAGED = 1) ∧
      (let t := d.tinCommit e 0xFA image
       t.tin = { d.tin with deltas := d.tin.deltas ++ [bankImage image], atEpoch := overlay d.acceptedSecs (imgSections image) } ∧
         t.get .TIN_DELTA_SEQ_VALUE = imgDeltaSeq image % 2 ^ 32 ∧ t.get .TIN_EVENT_DELTA_APPLIED = 1) ∧
      (let t := d.tinCommit e 0xFB image
       t.tin = { d.tin with staged := none } ∧ t.get .TIN_STATUS_STAGED = 0) ∧
      (d.tin.staged = none → d.tinVote 0xF9 image = some (0x2D, 0xFF)) ∧
      (∀ img : TinImage, d.tin.staged = some img →
        (img.serial ≠ leAt image 0 4 → d.tinVote 0xF9 image = some (0x2D, 0xFF)) ∧
        (img.serial = leAt image 0 4 → liveDifference d.acceptedSecs img.sections = true →
          d.tinVote 0xF9 image = (failingIndex img.sections d.quotaHolds).map fun k => (0x2A, k)) ∧
        (img.serial = leAt image 0 4 → liveDifference d.acceptedSecs img.sections = false →
          d.tinVote 0xF9 image = if d.omittedBusy img.sections then some (0x2C, 0xFF) else none) ∧
        (let t := d.tinCommit e 0xF9 image
         (liveDifference d.acceptedSecs img.sections = true →
           t.tin = { d.tin with base := some img, deltas := [], staged := none, atEpoch := img.sections } ∧ t.get .TIN_EVENT_DELTA_APPLIED = 1) ∧
         (liveDifference d.acceptedSecs img.sections = false →
           t.tin = { d.tin with base := some img, deltas := [], staged := none } ∧ t.get .TIN_STATUS_SOURCE = 1 ∧ t.get .TIN_EVENT_ACTIVATED = 1)))) ∧
    (∀ (d : Die) (op : Nat) (m : Bytes), d.isLead = false →
      (leAt m 0 1 = 0 → d.tinMessage e op m = (d.set .TIN_STATUS_BUSY 1).tinAnswer op (d.tinVote op (m.drop 1))) ∧
      (leAt m 0 1 = 1 → d.tinMessage e op m = ((d.tinCommit e op (m.drop 1)).set .TIN_STATUS_BUSY 0).tinAnswer op none))

/-! ## The domain (spec/12) -/

/-- R332, R333, R335, R336, R338: an ensemble in Mission without a domain root makes a JOIN_REQUEST over a fresh serial, once a Constantan and a
lattice core have signed its statement; the ROOT envelope that a DOMAIN_SPLIT sealed is handed out once, and the admission is over; a KEY
envelope carries an exportable, non-volatile, uncounted object to a slot that holds no quarantined member; the report is written out; a KIND
that is not made, a die that is not the lead and a virtual function (the model's choice of log entry 193) are refused. -/
def Obligations.MakingEnvelopes : Prop :=
  ∀ (s : State) (rid : Nat) (r : Req),
    let e := s.env
    let ends (i : Instr) (f : Env → Die → Die) : Prop := Answers i s fun e d => (f e d).port 0 r.inLen
    let make (kind : Nat) : Prop := Accepted s.die rid 0xFC r ∧ r.fn? = some 0 ∧ s.die.isLead = true ∧ r.handle = 0 ∧ r.zeroBytes 57 64 = true ∧
      r.byte 56 = kind ∧ RangesOk s.die r
    (make 2 → r.inLen = 0 →
      (¬(s.die.get .LCS_STATE_STATE = 4 ∧ s.die.get .ENS_DOMAIN_STATUS_ROOT = 0) →
        ends (.ensEnvelopeMakeJoin rid) fun e d => d.fail e r .policyDeny 0x0F) ∧
      (s.die.get .LCS_STATE_STATE = 4 → s.die.get .ENS_DOMAIN_STATUS_ROOT = 0 →
        let n := (s.die.joinRequest r.drawn).length
        (r.outLen < n → ends (.ensEnvelopeMakeJoin rid) fun e d => d.complete e r (tooSmall n)) ∧
        (n ≤ r.outLen → r.worked = false →
          ∀ (d1 : Die) (a : Nat) (w : Work) (ws : List Work), s.die.drawFor r.rid (16 + statementDraw) = .drawn d1 a →
            s.die.statementWork (s.die.joinAsk a) (a + 16) = w :: ws →
            ((s.die.statementWork (s.die.joinAsk 0) 16).any fun w => s.die.coreless w.unit) = false →
            ends (.ensEnvelopeMakeJoin rid) fun _ _ =>
              (d1.updReq r.rid fun x => { x with stage := .running, work := w :: ws, drawn := a }).giveWork r w) ∧
        (n ≤ r.outLen → r.worked = true →
          let b := s.die.joinRequest r.drawn
          let d2 := { s.die.countStatement with ens := { s.die.ens with joinSerial := some (randomBytes r.drawn 16) } }.set .ENS_DOMAIN_STATUS_JOIN_OUT 1
          ends (.ensEnvelopeMakeJoin rid) (fun e _ => d2.finishOut e r b) ∧
            d2.get .ENS_DOMAIN_STATUS_JOIN_OUT = 1 ∧ d2.key.statements = s.die.key.statements + 1 ∧
            d2.ens.joinSerial = some (randomBytes r.drawn 16) ∧ envKind b = 2 ∧ b.drop 48 = s.die.joinBody r.drawn ++
              (s.die.statement (s.die.joinAsk r.drawn) (r.drawn + 16)).1))) ∧
    (make 3 → r.inLen = 0 →
      (∀ b : Bytes, s.die.lapseAdmission.ens.admission.bind Admission.root = some b →
        (r.outLen < b.length → ends (.ensEnvelopeMakeRoot rid) fun e d => d.lapseAdmission.complete e r (tooSmall b.length)) ∧
        (b.length ≤ r.outLen →
          let lapsed (d : Die) : Die := ({ d with ens := { d.ens with admission := none } }.set .ENS_DOMAIN_STATUS_ADMIT_PENDING 0).setDigest
            .ENS_ADMIT_IDENTITY_DIGEST (zeros 48)
          ends (.ensEnvelopeMakeRoot rid) (fun e d => (lapsed d.lapseAdmission).finishOut e r b) ∧
            (lapsed s.die.lapseAdmission).ens.admission = none ∧ (lapsed s.die.lapseAdmission).get .ENS_DOMAIN_STATUS_ADMIT_PENDING = 0)) ∧
      (s.die.lapseAdmission.ens.admission.bind Admission.root = none →
        ends (.ensEnvelopeMakeRoot rid) fun e d => d.lapseAdmission.fail e r .policyDeny 0x0F)) ∧
    (let b := dmaRead e s.die r.inAddr 16
     ∀ (far dxk : Bytes), make 4 → r.inLen = 16 → leAt b 10 6 = 0 → s.die.get .ENS_DOMAIN_STATUS_ROOT ≠ 0 → s.die.ens.dxk = some dxk →
      (s.die.slotQuarantined (leAt b 4 2) = true → ends (.ensEnvelopeMakeKey rid far) fun e d => d.fail e r .policyDeny 0x0B) ∧
      (s.die.slotQuarantined (leAt b 4 2) = false →
        let tenant := leAt b 0 2 % 2048
        let handle := leAt b 2 2
        let own := s.die.servesSlice (tenant / 256) = true
        let sealed (d1 : Die) (o : KeyObj) (content : Option Bytes) : Prop :=
          (o.exportable = false ∨ o.volatile = true ∨ o.uses ≠ uncounted →
            ends (.ensEnvelopeMakeKey rid far) fun e _ => d1.fail e r .policyDeny 0) ∧
          (o.exportable = true → o.volatile = false → o.uses = uncounted →
            (content = none → ends (.ensEnvelopeMakeKey rid far) fun e _ => d1.fail e r .paramRejected 0x10) ∧
            (∀ c : Bytes, content = some c →
              let n := 92 + c.length
              (r.outLen < n → ends (.ensEnvelopeMakeKey rid far) fun e _ => d1.complete e r (tooSmall n)) ∧
              (n ≤ r.outLen → ∀ (d2 : Die) (a : Nat), d1.drawFor r.rid 12 = .drawn d2 a →
                let hdr := d2.envHeader 4 d2.member n d2.ens.domainTag
                let target := slice b 4 6 ++ zeros 10
                ends (.ensEnvelopeMakeKey rid far) fun e _ => d2.finishOut e r (hdr ++ target ++ randomBytes a 12 ++
                  gcmSeal (kdf dxk (ascii "KEY") (hdr ++ target) 32) (randomBytes a 12) [] c))))
        (own → ∀ d1 : Die,
          (∀ f : StoreFault, s.die.loadKey e tenant handle = (d1, some f) →
            ends (.ensEnvelopeMakeKey rid far) fun e _ => d1.fail e r f.status 0) ∧
          (s.die.loadKey e tenant handle = (d1, none) →
            (∀ (st : Status) (x : Nat), d1.readKey tenant handle = .bad st x → ends (.ensEnvelopeMakeKey rid far) fun e _ => d1.fail e r st x) ∧
            (∀ o : KeyObj, d1.readKey tenant handle = .ok o →
              sealed d1 o (if o.extended then (d1.readExt e o).map (o.payload ++ ·) else some o.payload)))) ∧
        (¬own → 112 ≤ far.length → sealed s.die (parseObj tenant handle (far.take 112)) (some far)))) ∧
    (Accepted s.die rid 0xFC r → ∀ (far : Bytes) (i : Instr),
      i = .ensEnvelopeMakeJoin rid ∨ i = .ensEnvelopeMakeKey rid far →
      (r.fn? ≠ some 0 → Answers i s fun e d => d.fail e r .badDescriptor 1) ∧
      (r.fn? = some 0 → s.die.isLead = false → Answers i s fun e d => d.fail e r .policyDeny 0) ∧
      (r.fn? = some 0 → s.die.isLead = true → r.handle ≠ 0 ∨ r.zeroBytes 57 64 = false ∨ r.byte 56 < 2 ∨ 4 < r.byte 56 →
        Answers i s fun e d => d.fail e r .badDescriptor 1)) ∧
    (Accepted s.die rid 0xFE r → r.fn? = some 0 → s.die.isLead = true → r.handle = 0 → r.zeroBytes 56 64 = true → r.inLen = 0 → RangesOk s.die r →
      s.die.ensReport.length = 1536 ∧
        (r.outLen < 1536 → ends (.ensReport rid) fun e d => d.complete e r (tooSmall 1536)) ∧
        (1536 ≤ r.outLen → ends (.ensReport rid) fun e d => d.finishOut e r s.die.ensReport))

/-- R248, R332, R335, R336, R337, R339, R340: an accepted tuple makes its member present, mismatched exactly when it differs from this die's own,
and is passed on to the other dies; a join request that passes its checks is admitted; a root envelope that opens is dealt in shares to every
die, and once these are written the ensemble is a member of the domain; a key envelope for this slot and epoch puts its object at its target,
on the die that serves it; an activation envelope that passes its checks arms the die; what fails its checks is refused by DETAIL. -/
def Obligations.TakingEnvelopes : Prop :=
  ∀ (s : State) (rid : Nat) (r : Req),
    let e := s.env
    let ends (i : Instr) (f : Env → Die → Die) : Prop := Answers i s fun e d => (f e d).port 0 r.inLen
    let b := dmaRead e s.die r.inAddr (min r.inLen 65536)
    let take (kind : Nat) : Prop := Accepted s.die rid 0xFD r ∧ r.fn? = some 0 ∧ s.die.isLead = true ∧ r.handle = 0 ∧ r.zeroBytes 56 64 = true ∧
      RangesOk s.die r ∧ envKind b = kind
    let root : Prop := s.die.get .ENS_DOMAIN_STATUS_ROOT ≠ 0
    (take 1 → r.inLen % 224 = 0 → 224 ≤ r.inLen → r.inLen ≤ 57344 → root → ∀ dtk : Bytes, s.die.ens.dtk = some dtk →
      ends (.ensEnvelopeTakeTuple rid none) fun e d =>
        let x := (List.range (r.inLen / 224)).foldl (fun (acc : Die × Nat) k =>
          if acc.1.tupleOk dtk (slice b (224 * k) 224)
          then ((acc.1.acceptTuple (slice b (224 * k) 224)).sendDomain ([0] ++ slice b (224 * k) 224), acc.2 + 1) else acc) (d, 0)
        x.1.complete e r { Reply.done 0 with detail := min 255 x.2 + 256 * min 255 (r.inLen / 224 - x.2) }) ∧
    (∀ t : Bytes, t.length = 224 → Answers (.ensEnvelopeTakeTuple rid (some ([0] ++ t))) s fun _ d => d.acceptTuple t) ∧
    (∀ m : Bytes, Answers (.ensEnvelopeTakeTuple rid (some m)) s fun _ d => d.domainMessage m) ∧
    (∀ (d : Die) (t : Bytes),
      let k := envSource t % 4096
      let old := tget d.ens.members k
      let m := tget (d.acceptTuple t).ens.members k
      m.present = true ∧ m.lastSeq = envSeq t ∧ m.lastMs = d.nowMs ∧ (m.mismatch = true ↔ slice t 32 8 ++ slice t 48 144 ≠ d.ownTuple) ∧
        (m.mismatch = false → m.quarantined = false) ∧ (m.mismatch = true → m.quarantined = old.quarantined ∧
          m.mismatchSince = if old.mismatch then old.mismatchSince else d.nowMs) ∧
        ∀ j : Nat, j ≠ k → tget (d.acceptTuple t).ens.members j = tget d.ens.members j) ∧
    (take 2 → 1729 < r.inLen → r.inLen ≤ 65536 → ∀ slot : Nat,
      let d0 := s.die.lapseAdmission
      (d0.ens.joinSerial ≠ none → ends (.ensEnvelopeTakeJoin rid slot) fun e _ => d0.fail e r .limitReached 9) ∧
      (¬root → d0.ens.joinSerial = none → ends (.ensEnvelopeTakeJoin rid slot) fun e _ => d0.fail e r .policyDeny 0x0F) ∧
      (root → d0.ens.joinSerial = none → d0.ens.admission ≠ none →
        ends (.ensEnvelopeTakeJoin rid slot) fun e _ => d0.fail e r .limitReached 9) ∧
      (root → d0.ens.joinSerial = none → d0.ens.admission = none →
        (s.die.key.ceremony ≠ none → ends (.ensEnvelopeTakeJoin rid slot) fun e _ => d0.fail e r .busy 0) ∧
        (s.die.key.ceremony = none →
          (d0.joiner b slot = none → ends (.ensEnvelopeTakeJoin rid slot) fun e _ => d0.fail e r .paramRejected 0x32) ∧
          (∀ i : Bytes, d0.joiner b slot = some i →
            let ad : Admission := { identity := i, slot, request := slice b 48 1665, root := none, rootMs := 0 }
            let d1 := ({ d0 with ens := { d0.ens with admission := some ad } }.set .ENS_DOMAIN_STATUS_ADMIT_PENDING 1).setDigest
              .ENS_ADMIT_IDENTITY_DIGEST i
            ends (.ensEnvelopeTakeJoin rid slot) (fun e _ => d1.complete e r (Reply.done 0)) ∧
              d1.get .ENS_DOMAIN_STATUS_ADMIT_PENDING = 1 ∧ slot < 512 ∧ slot ≠ s.die.ens.slot)))) ∧
    (take 3 → r.inLen = 1841 →
      (s.die.ens.joinSerial = none → ends (.ensEnvelopeTakeRoot rid) fun e d => d.fail e r .policyDeny 0x0F) ∧
      (∀ serial : Bytes, s.die.ens.joinSerial = some serial →
        (envOk b 1841 = false ∨ s.die.openRoot serial b = none → ends (.ensEnvelopeTakeRoot rid) fun e d => d.fail e r .paramRejected 0x30) ∧
        (envOk b 1841 = true → ∀ dr : Bytes, s.die.openRoot serial b = some dr →
          (domainTagOf dr ≠ envTag b → ends (.ensEnvelopeTakeRoot rid) fun e d => d.fail e r .paramRejected 0x31) ∧
          (domainTagOf dr = envTag b → s.die.key.dealing = none → s.die.get .RNG_STATUS_STATE = 1 →
            let need := 32 * (thresholdOf s.die.size - 1)
            let d0 := s.die.unhold r.rid
            let x : Dealing := { rid, gen := 1, root := dr, join := some (leAt b 96 2 % 512, envEpoch b), wait := [], rep := Reply.done 0, cer := false }
            need ≤ s.die.rng.feBytes → ends (.ensEnvelopeTakeRoot rid) fun e _ =>
              ({ d0 with rng := { d0.rng with draws := s.die.rng.draws + need, feBytes := s.die.rng.feBytes - need } }.extendMeas 7
                (sha384 b)).dealShares e s.die.rng.draws x)))) ∧
    (∀ (d : Die) (a : Nat) (x : Dealing), 0 < x.gen →
      (d.otherDies ≠ [] → (d.dealShares e a x).key.dealing = some { x with wait := d.otherDies }) ∧
      (d.otherDies = [] → d.size = 1 → ∃ d0 : Die, d0.key.nextShare.isSome = true ∧
        d.dealShares e a x = (d0.commitShare.rootInHand x.root x.join).endDealing e x x.rep) ∧
      (∀ pos : Nat, d.key.dealing = some { x with wait := [pos] } → d.shareWritten e pos =
        (({ d with key := { d.key with dealing := some { x with wait := [] } } }.commitShare.sendCer ([2] ++ leBytes 4 x.gen)).rootInHand x.root
          x.join).endDealing e { x with wait := [] } x.rep)) ∧
    (∀ (d : Die) (sh : Share), d.key.nextShare = some sh → d.commitShare.key.share = some sh ∧ d.commitShare.key.nextShare = none ∧
      d.commitShare.get .KEY_ROOT_STATUS_SHARE_HELD = 1) ∧
    (∀ (d : Die) (dr : Bytes) (slot epoch : Nat), epoch < 2 ^ 64 →
      let d1 := (d.enterDomain (domainTagOf dr) slot epoch).takeRoot dr
      d1.get .ENS_DOMAIN_STATUS_ROOT = 1 ∧ d1.get .ENS_DOMAIN_STATUS_JOIN_OUT = 0 ∧ d1.get .ENS_DOMAIN_EPOCH_VALUE = epoch ∧
        d1.ens.domainTag = (hmac 2 dr (ascii "DOMAIN-ID")).take 16 ∧ d1.ens.slot = slot ∧ d1.ens.joinSerial = none ∧
        d1.get .KEY_ROOT_STATUS_ESK_VALID = 1 ∧ d1.key.esk = some (kdf dr (ascii "ESK") d1.ensembleIdentity 32)) ∧
    (take 4 → 204 ≤ r.inLen → r.inLen ≤ 65536 → root → ∀ dxk : Bytes, s.die.ens.dxk = some dxk →
      let tenant := leAt b 50 2 % 2048
      let handle := leAt b 52 2
      let epoch := s.die.get .ENS_DOMAIN_EPOCH_VALUE
      (envOk b r.inLen = false ∨ slice b 54 10 ≠ zeros 10 → ends (.ensEnvelopeTakeKey rid) fun e d => d.fail e r .paramRejected 0x30) ∧
      (envOk b r.inLen = true → slice b 54 10 = zeros 10 →
        (envTag b ≠ s.die.ens.domainTag ∨ leAt b 48 2 ≠ s.die.ens.slot ∨ (envEpoch b ≠ epoch ∧ envEpoch b + 1 ≠ epoch) →
          ends (.ensEnvelopeTakeKey rid) fun e d => d.fail e r .paramRejected 0x31) ∧
        (envTag b = s.die.ens.domainTag → leAt b 48 2 = s.die.ens.slot → envEpoch b = epoch ∨ envEpoch b + 1 = epoch →
          let opened := gcmOpen (kdf dxk (ascii "KEY") (b.take 64) 32) (slice b 64 12) [] (b.drop 76)
          (opened = none → ends (.ensEnvelopeTakeKey rid) fun e d => d.fail e r .paramRejected 0x30) ∧
          (∀ c : Bytes, opened = some c →
            let o := { parseObj tenant handle (c.take 112) with origin := 5 }
            ((tget s.die.ens.members (envSource b)).quarantined = true → ends (.ensEnvelopeTakeKey rid) fun e d => d.fail e r .policyDeny 0x0B) ∧
            ((tget s.die.ens.members (envSource b)).quarantined = false →
              (s.die.servesSlice (tenant / 256) = true → ∀ d1 : Die, s.die.loadKey e tenant handle = (d1, none) →
                (∀ (st : Status) (x : Nat), d1.destCheck tenant handle = some (st, x) → ends (.ensEnvelopeTakeKey rid) fun e _ => d1.fail e r st x) ∧
                (d1.destCheck tenant handle = none → ends (.ensEnvelopeTakeKey rid) fun e _ =>
                  if o.extended then d1.installObj e r { o with aflags := o.aflags - 8 } (c.drop 112) r.outAddr (Reply.done 0)
                  else d1.createAt e r o (Reply.done 0))) ∧
              (s.die.servesSlice (tenant / 256) = false → ends (.ensEnvelopeTakeKey rid) fun _ d =>
                d.askDie { rid, gen := 0, root := [], join := none, wait := [], rep := Reply.done 0, cer := false } (d.serverOf (tenant / 256))
                  (installBody o r.outAddr (c.drop 112)))))))) ∧
    (take 5 →
      (¬root → ends (.ensEnvelopeTakeActivation rid) fun e d => d.fail e r .policyDeny 0x0F) ∧
      (root → s.die.activationOk b = false → ends (.ensEnvelopeTakeActivation rid) fun e d => d.fail e r .paramRejected 0x33) ∧
      (root → s.die.activationOk b = true →
        let a : Armed := { serial := leAt b 48 4, digest := slice b 52 48, epoch := leAt b 100 8, actTime := leAt b 108 8, windowS := leAt b 116 4, tried := none }
        let d1 := (({ s.die with ens := { s.die.ens with armed := some a } }.set .ENS_DOMAIN_STATUS_ARMED 1).set .ENS_ACT_TIME_VALUE a.actTime).sendDomain
          ([1] ++ leBytes 4 a.serial ++ a.digest ++ leBytes 8 a.epoch ++ leBytes 8 a.actTime ++ leBytes 4 a.windowS)
        ends (.ensEnvelopeTakeActivation rid) (fun e _ => (d1.event .ENS_EVENT_ARMED).complete e r (Reply.done 0)) ∧
          d1.ens.armed = some a ∧ d1.get .ENS_DOMAIN_STATUS_ARMED = 1 ∧ d1.get .ENS_ACT_TIME_VALUE = leAt b 108 8)) ∧
    (∀ kind : Nat, take kind → kind < 1 ∨ 5 < kind → ends (.ensEnvelopeTakeTuple rid none) fun e d => d.fail e r .paramRejected 0x30) ∧
    (Accepted s.die rid 0xFD r → r.fn? = some 0 → s.die.isLead = false → Answers (.ensEnvelopeTakeTuple rid none) s fun e d => d.fail e r .policyDeny 0)

/-- R334, R337, R339, R340: the lead die publishes its tuple to the other dies and into the outbound ring, or counts it lost when the ring is
full; a member with no tuple for 5 s is absent and neither mismatched nor quarantined; a member whose mismatch has lasted is quarantined; an
armed activation at its time, or 10 ms after an attempt that came to nothing, activates the image it names, and is disarmed as missed when
its window has closed or the image is no longer staged; what a performed one sets goes to the other dies. -/
def Obligations.DomainTime : Prop :=
  ∀ (s : State),
    let e := s.env
    (∀ dtk : Bytes, s.die.ens.dtk = some dtk → s.die.get .ENS_DOMAIN_STATUS_ROOT ≠ 0 →
      let t0 := s.die.tuple dtk
      let size := 2 ^ clamp 4 12 (s.die.get .ENS_ENV_OUT_CTL_SIZE_LOG2)
      let tail := s.die.get .ENS_ENV_OUT_TAIL_INDEX
      let a := s.die.get .ENS_ENV_OUT_BASE_ADDR / 4096 * 4096 + tail % size * 256
      let entry := patch t0 3 (leBytes 1 (if tail / size % 2 = 0 then leAt t0 3 1 + 128 else leAt t0 3 1)) ++ zeros 32
      let full : Prop := size ≤ idxSub tail (s.die.get .ENS_ENV_OUT_HEAD_INDEX)
      (s.die.get .ENS_ENV_OUT_CTL_ENABLE = 0 → Answers .tuplePublish s fun _ d => (d.acceptTuple t0).sendDomain ([0] ++ t0)) ∧
      (s.die.get .ENS_ENV_OUT_CTL_ENABLE ≠ 0 →
        (full → Does .tuplePublish s fun t => t.die.get .ENS_ENV_OUT_CTL_LOST = satAdd 16 (s.die.get .ENS_ENV_OUT_CTL_LOST) 1 % 2 ^ 16 ∧
          t.die.get .ENS_ENV_OUT_TAIL_INDEX = tail) ∧
        (¬full → s.die.dmaOk (s.die.tenantOf 0) a 256 true = true → Does .tuplePublish s fun t =>
          t.die.get .ENS_ENV_OUT_TAIL_INDEX = (tail + 1) % 2 ^ 32 ∧
            (Settled s → memReads t.mem a entry.length = entry)))) ∧
    (Settled s → ∀ member : Nat,
      let k := member % 4096
      let m := tget s.die.ens.members k
      (m.present = true → m.lastMs + 5000 ≤ s.die.nowMs → Does (.presenceExpire member) s fun t =>
        tget t.die.ens.members k = { m with present := false, mismatch := false, inWindow := false, quarantined := false } ∧
          Frame [.ens] [.ENS_DOMAIN_COUNTS_PRESENT, .ENS_DOMAIN_COUNTS_MISMATCHED] s t) ∧
      (m.present = false ∨ s.die.nowMs < m.lastMs + 5000 → Answers (.presenceExpire member) s fun _ d => d) ∧
      (bit (leAt (bodyOf s.die.tin.running 1 0) 3 1) 0 = true → m.present = true → m.mismatch = true → m.quarantined = false →
        s.die.windowOpen = false → m.inWindow = true ∨ m.mismatchSince + 10000 ≤ s.die.nowMs → Does (.memberQuarantine member) s fun t =>
          tget t.die.ens.members k = { m with quarantined := true } ∧ t.die.get .ENS_EVENT_QUARANTINE = 1 ∧
            Frame [.que, .out, .ens, .evr] ([.ENS_DOMAIN_COUNTS_PRESENT, .ENS_DOMAIN_COUNTS_MISMATCHED, .ENS_EVENT_QUARANTINE] ++ lossFlds) s t)) ∧
    (∀ a : Armed, s.die.ens.armed = some a →
      let wend := a.actTime + 1000 * a.windowS
      let now := s.die.get .ENS_DOMAIN_TIME_VALUE
      (Settled s → wend < now ∨ s.die.stagedIs a.serial a.digest = false → Does .activationMissed s fun t => t.die.ens.armed = none ∧
        t.die.get .ENS_DOMAIN_STATUS_ARMED = 0 ∧ t.die.get .ENS_ACT_TIME_VALUE = 0 ∧ t.die.get .ENS_EVENT_ACTIVATION_MISSED = 1 ∧
          Frame [.que, .out, .ens, .evr] ([.ENS_DOMAIN_STATUS_ARMED, .ENS_ACT_TIME_VALUE, .ENS_EVENT_ACTIVATION_MISSED, .PMC_TEN_CNT_COUNT] ++ lossFlds) s t) ∧
      (now ≤ wend → s.die.stagedIs a.serial a.digest = true → Answers .activationMissed s fun _ d => d) ∧
      (∀ c : Instr, (c = .activationTime ∧ a.tried = none) ∨ (c = .activationRetry ∧ ∃ ms : Nat, a.tried = some ms ∧ ms + 10 ≤ s.die.nowMs) →
        (now < a.actTime ∨ wend < now ∨ s.die.stagedIs a.serial a.digest = false → Answers c s fun _ d => d) ∧
        (s.die.isLead = true → a.actTime ≤ now → now ≤ wend → s.die.stagedIs a.serial a.digest = true →
          let d0 := { s.die with ens := { s.die.ens with windowEnd := wend, armed := some { a with tried := some s.die.nowMs } } }
          (s.die.tin.op ≠ none → Answers c s fun _ _ => d0) ∧
          (s.die.tin.op = none →
            let x := tinOp 0 0xF9 (leBytes 4 a.serial)
            (∀ f : Nat × Nat, d0.tinVote 0xF9 x.image = some f → Answers c s fun e _ => d0.tinRefused e x f) ∧
            (d0.tinVote 0xF9 x.image = none → Answers c s fun e _ => d0.tinAsks e x)))) ∧
      (∀ d : Die, d.ens.armed = some a → d.domainActivated =
          ((d.disarm.set .ENS_DOMAIN_EPOCH_VALUE a.epoch).event .ENS_EVENT_ACTIVATED).sendDomain ([2] ++ leBytes 8 a.epoch ++ leBytes 8 wend) ∧
        d.domainActivated.ens.armed = none ∧ d.domainActivated.get .ENS_DOMAIN_EPOCH_VALUE = a.epoch % 2 ^ 64 ∧
        d.domainActivated.get .ENS_EVENT_ACTIVATED = 1)) ∧
    (∀ (d : Die) (x : TinOp), x.rid = 0 → x.op = 0xF9 →
      let d1 := (d.endTin.tinCommit e 0xF9 x.image).domainActivated
      d1.tinReq x = none → d.tinDone e x = if d.activatesLive then d1 else d1.resetEnsemble e)

/-! ## The life cycle and debug (spec/16) -/

/-- R418, R420, R426, R427: a transition request that meets a check is refused with that check's status and DETAIL and changes nothing else;
one that meets none becomes the pending request; a withdrawal empties it; a debug authorisation consumes the challenge it names, and when
its signatures verify opens the FIELD level for its lifetime; the transitions and their signers are those of the table. -/
def Obligations.LifeCycleRequests : Prop :=
  ∀ (s : State) (rid : Nat) (r : Req), Accepted s.die rid 0xFF r → r.fn? = some 0 →
    let e := s.env
    let b := dmaRead e s.die r.inAddr r.inLen
    let ends (i : Instr) (f : Env → Die → Die) : Prop := Answers i s fun e d => (f e d).port 0 r.inLen
    let lands (i : Instr) (P : Die → Prop) : Prop := ∃ d : Die, exec i s = .next (s.finish d) ∧ P d
    let kind (k : Nat) : Prop := r.byte 56 = k ∧ r.handle = 0 ∧ r.zeroBytes 57 64 = true ∧ RangesOk s.die r
    (kind 1 → r.inLen ≤ 8192 →
      (∀ x : Status × Nat, s.die.requestFault s.otp b false (s.die.get .TIN_STATUS_SOURCE == 1) true = some x →
        ends (.lcsSubmitTransition rid) fun e d => d.fail e r x.1 x.2) ∧
      (s.die.requestFault s.otp b false (s.die.get .TIN_STATUS_SOURCE == 1) true = none → lands (.lcsSubmitTransition rid) fun d =>
        d.lcs = { s.die.lcs with pending := b } ∧ d.get .LCS_STATUS_PENDING_TARGET = reqTarget b ∧ d.get .LCS_EVENT_ACCEPTED = 1 ∧
          Keeps (.lcs :: replyBlocks) ([.LCS_STATUS_PENDING, .LCS_STATUS_PENDING_TARGET, .LCS_EVENT_ACCEPTED] ++ replyFlds) s.die d)) ∧
    (kind 2 → r.inLen = 0 →
      (s.die.lcs.pending = [] → ends (.lcsSubmitWithdraw rid) fun e d => d.fail e r .noSession 9) ∧
      (s.die.lcs.pending ≠ [] → lands (.lcsSubmitWithdraw rid) fun d => d.lcs = { s.die.lcs with pending := [] } ∧
        d.get .LCS_STATUS_PENDING = 0 ∧ Keeps (.lcs :: replyBlocks) ([.LCS_STATUS_PENDING, .LCS_STATUS_PENDING_TARGET] ++ replyFlds) s.die d)) ∧
    (kind 3 → r.inLen ≤ 8192 →
      let bad (st : Status) (x : Nat) : Prop := ends (.lcsSubmitDebugAuth rid) fun e d => d.fail e r st x
      let consumed := s.die.setChallenge []
      (authLayoutOk b = false → bad .badDescriptor 2) ∧
      (authLayoutOk b = true →
        (s.die.maySign (leAt b 6 1) = false → ends (.lcsSubmitDebugAuth rid) fun e d =>
          (if s.die.lcs.challenge ≠ [] ∧ slice b 16 32 = s.die.lcs.challenge then consumed else d).fail e r .paramRejected 0x42) ∧
        (s.die.maySign (leAt b 6 1) = true →
          (s.die.lcs.challenge = [] → bad .noSession 9) ∧
          (s.die.lcs.challenge ≠ [] → slice b 16 32 ≠ s.die.lcs.challenge → bad .paramRejected 0x41) ∧
          (s.die.lcs.challenge ≠ [] → slice b 16 32 = s.die.lcs.challenge →
            (leAt b 8 8 ≠ s.otp.serial → ends (.lcsSubmitDebugAuth rid) fun e _ => consumed.fail e r .paramRejected 0x41) ∧
            (leAt b 8 8 = s.otp.serial → consumed.signedBy (leAt b 6 1) "TY8K40 debug" b = false →
              ends (.lcsSubmitDebugAuth rid) fun e _ => consumed.fail e r .paramRejected 0x40) ∧
            (leAt b 8 8 = s.otp.serial → consumed.signedBy (leAt b 6 1) "TY8K40 debug" b = true → lands (.lcsSubmitDebugAuth rid) fun d =>
              d.lcs.challenge = [] ∧ d.get .DBG_STATUS_CHALLENGE_VALID = 0 ∧ d.lcs.auth = true ∧ d.get .DBG_STATUS_LEVEL = 1 ∧
                d.get .DBG_STATUS_REMAINING_S = leAt b 48 4 ∧ d.get .LCS_EVENT_DEBUG_AUTH = 1 ∧ Keeps (.lcs :: replyBlocks)
                  ([.DBG_STATUS_CHALLENGE_VALID, .DBG_STATUS_LEVEL, .DBG_STATUS_SIGNER, .DBG_STATUS_REMAINING_S, .LCS_EVENT_DEBUG_AUTH] ++ replyFlds) s.die d))))) ∧
    (r.byte 56 < 1 ∨ 3 < r.byte 56 → Answers (.lcsSubmitTransition rid) s fun e d => d.fail e r .badDescriptor 1) ∧
    (r.byte 56 = 1 → r.handle ≠ 0 ∨ r.zeroBytes 57 64 = false → Answers (.lcsSubmitTransition rid) s fun e d => d.fail e r .badDescriptor 1) ∧
    (∀ from_ to_ signer : Nat, from_ ≤ 6 → to_ ≤ 6 → signer ≤ 2 → (transitionSigned from_ to_ signer = true ↔
      (from_, to_, signer) ∈ [(0, 1, 1), (1, 2, 1), (2, 1, 0), (1, 3, 1), (3, 4, 2), (4, 5, 1)] ∨
        (to_ = 6 ∧ from_ ≠ 6 ∧ (signer = 1 ∨ (signer = 2 ∧ 3 ≤ from_))))) ∧
    (∀ (o : Otp) (x : Bytes) (c i f : Bool), s.die.requestFault o x c i f = none →
      transitionSigned (s.die.get .LCS_STATE_STATE) ((targetState (reqTarget x)).getD 7) (reqSigner x) = true ∧
        leAt x 8 8 = o.serial ∧ leAt x 64 4 = o.journal.length)

/-- R164, R196, R359, R424, R425, R426, R428, R429: a new challenge is 32 random bytes, and is gone 300 s later; a revocation and the end of the lifetime close the authorisation and
let halted cores run on; every instruction of the test access port answers, and one that the level does not permit answers zeros and changes
nothing; the debug master reads and writes nothing at level NONE, at FIELD nothing secure, and at TEST also the operand and lattice memories,
which stand where log entry 50 places them. -/
def Obligations.Debugging : Prop :=
  ∀ (s : State), Settled s →
    (s.die.get .RNG_STATUS_STATE = 1 → 32 ≤ s.die.rng.drbgBytes → ∀ c : Instr, c = .dbgNewChallenge ∨ c = .tapInstruction .dbgNewChallenge →
      Does c s fun t => t.die.lcs.challenge = randomBytes s.die.rng.draws 32 ∧ t.die.get .DBG_STATUS_CHALLENGE_VALID = 1 ∧
        t.die.rng.draws = s.die.rng.draws + 32 ∧ Frame [.que, .rng, .lcs] [.DBG_STATUS_CHALLENGE_VALID] s t) ∧
    (∀ c : Instr, c = .dbgRevoke ∨ c = .tapInstruction .dbgRevoke ∨ (c = .debugAuthExpire ∧ s.die.get .DBG_STATUS_REMAINING_S = 0) → s.die.lcs.auth = true →
      Does c s fun t => t.die.lcs = { s.die.lcs with auth := false, halted := [] } ∧ t.die.get .DBG_STATUS_LEVEL = 0 ∧ t.die.get .DBG_STATUS_REMAINING_S = 0 ∧
        Frame [.que, .out, .lcs, .evr] ([.DBG_STATUS_LEVEL, .DBG_STATUS_REMAINING_S, .DBG_STATUS_SIGNER] ++ lossFlds) s t) ∧
    (s.die.lcs.auth = false ∨ s.die.get .DBG_STATUS_REMAINING_S ≠ 0 → Answers .debugAuthExpire s fun _ d => d) ∧
    (s.die.lcs.challenge = [] ∨ s.die.nowMs < s.die.lcs.challengeMs + 300000 → Answers .challengeExpire s fun _ d => d) ∧
    (s.die.lcs.challenge ≠ [] → s.die.lcs.challengeMs + 300000 ≤ s.die.nowMs → Does .challengeExpire s fun t => t.die.lcs.challenge = [] ∧ t.die.get .DBG_STATUS_CHALLENGE_VALID = 0 ∧
      Frame [.lcs] [.DBG_STATUS_CHALLENGE_VALID] s t) ∧
    (∀ (ins : TapIns) (b : Bytes), (ins, b) ∈ [(TapIns.idcode, leBytes 4 Config.idcode), (.lcsState, leBytes 4 (s.die.readWord s.env 0 0x900000)),
        (.lcsSerial, leBytes 8 (s.die.get .LCS_SERIAL_SERIAL)), (.dbgChallenge, slice (s.die.lcs.challenge ++ zeros 32) 0 32)] →
      Does (.tapInstruction ins) s fun t => t.die = s.die.emit (.tap b) ∧ Frame [.out] [] s t) ∧
    (s.die.get .DBG_STATUS_LEVEL = 0 → ∀ (ins : TapIns) (n : Nat), (∃ data, ins = .scan data ∧ n = data.length) ∨
        (∃ a w data, ins = .debugMaster a n w data ∧ n ≤ 4096) ∨ (∃ c, (ins = .haltCore c ∨ ins = .resumeCore c ∨ ins = .stepCore c) ∧ n = 4) →
      Does (.tapInstruction ins) s fun t => t.die = s.die.emit (.tap (zeros n)) ∧ Frame [.out] [] s t) ∧
    (∀ c : Nat, c < 4 → s.die.get .DBG_STATUS_LEVEL ≠ 0 →
      ((s.die.core c).world ≠ .secure → c ∉ s.die.lcs.halted → Does (.tapInstruction (.haltCore c)) s fun t =>
        t.die.lcs = { s.die.lcs with halted := s.die.lcs.halted ++ [c] } ∧ Frame [.lcs] [] s t) ∧
      ((s.die.core c).world = .secure → Does (.tapInstruction (.haltCore c)) s fun t => t.die = s.die.emit (.tap (zeros 4))) ∧
      Does (.tapInstruction (.resumeCore c)) s (fun t => t.die.lcs = { s.die.lcs with halted := s.die.lcs.halted.filter (· != c) } ∧ Frame [.lcs] [] s t)) ∧
    (∀ input : Bytes, input.length ≤ 8192 → s.die.scrapped = false → leAt input 0 1 = 2 → input.length = 1 →
      Does (.tapInstruction (.mailbox input)) s fun t => t.die.lcs.pending = [] ∧
        t.die.lcs.mailbox = (if s.die.lcs.pending = [] then some (Status.noSession.code, 9) else some (Status.ok.code, 0))) ∧
    (∀ (addr len : Nat) (write : Bool) (data : Bytes), len ≤ 4096 →
      (s.die.get .DBG_STATUS_LEVEL = 0 → Does (.debugMasterAccess addr len write data) s fun t =>
        t.die = ((s.die.add .DBG_VIOLATION_COUNT_COUNT 1).emit (.tap (if write then [] else zeros len))) ∧
          Frame [.out] [.DBG_VIOLATION_COUNT_COUNT] s t) ∧
      (s.die.get .DBG_STATUS_LEVEL = 1 → Does (.debugMasterAccess addr len write data) s fun t =>
        (∀ a : Nat, a < 0x1000000 → s.die.getAt .WLD_POT_KIND (a / 4096) < 2 → sget (fun _ => (0 : Byte)) t.die.wld.pages a = sget (fun _ => 0) s.die.wld.pages a) ∧
          Frame [.que, .out, .wld, .lcs, .evr] ([.DBG_VIOLATION_COUNT_COUNT, .WLD_EVENT_DBG_VIOLATION] ++ mpuFlds ++ lossFlds) s t) ∧
      (s.die.get .DBG_STATUS_LEVEL = 2 → write = false → addr + len ≤ 0x1000000 → Does (.debugMasterAccess addr len write data) s fun t =>
        t.die = { s.die with lcs := { s.die.lcs with reads := s.die.lcs.reads + 1 } }.emit
          (.tap ((List.range len).map fun k => sget (fun _ => 0) s.die.wld.pages (addr + k))))) ∧
    (∀ (addr : Nat) (x : Byte), s.die.get .DBG_STATUS_LEVEL = 2 →
      (inConMem addr = true → Does (.debugMasterAccess addr 1 true [x]) s fun t => sget (fun _ => 0) t.die.con.mem (addr - dbgCon) = x ∧
        Frame [.con] [] s t) ∧
      (inNttMem addr = true → Does (.debugMasterAccess addr 1 true [x]) s fun t => sget (fun _ => 0) t.die.ntt.mem (addr - dbgNtt) = x ∧
        Frame [.ntt] [] s t) ∧
      (inConMem addr = true →
        (s.die.con.jobs.all fun j => j.ctx != some ((addr - dbgCon) / 65536, (addr - dbgCon) % 65536 / 16384)) = true →
        Does (.debugMasterAccess addr 1 false []) s fun t =>
          t.die = { s.die with lcs := { s.die.lcs with reads := s.die.lcs.reads + 1 } }.emit
            (.tap [sget (fun _ => 0) s.die.con.mem (addr - dbgCon)])))

/-- R417: SCRAP not zero is Scrap; all zero is Blank; TEST with an even count of toggles is Test-locked, with an odd count Test-unlocked; with
PROV, MISSION and RETURN in turn Provisioning, Mission and Return; anything else is invalid and behaves as Scrap. A transition only sets
bits, and leaves all three copies with the bits intended whatever subset of them a copy held. -/
def Obligations.VotedDecode : Prop :=
  let locked (n : Nat) : Nat := 0x5A + (2 ^ n - 1) * 2 ^ 8
  let prov : Nat := 0x96 * 2 ^ 32
  let mission : Nat := prov + 0x69 * 2 ^ 40
  let back : Nat := mission + 0xC3 * 2 ^ 48
  (∀ v : Nat, v < 2 ^ 64 → bits v 63 56 ≠ 0 → lcsOf v = (6, false)) ∧ lcsOf 0 = (0, false) ∧
    (∀ n : Nat, n ≤ 16 →
      (n % 2 = 0 → lcsOf (locked n) = (1, false) ∧ lcsOf (locked n + prov) = (3, false) ∧ lcsOf (locked n + mission) = (4, false) ∧
        lcsOf (locked n + back) = (5, false)) ∧
      (n % 2 = 1 → lcsOf (locked n) = (2, false))) ∧
    (∀ v : Nat, v < 2 ^ 64 → bits v 63 56 = 0 → v ≠ 0 → (∀ n : Nat, n ≤ 16 → v ≠ locked n) →
      (∀ n : Nat, n ≤ 16 → n % 2 = 0 → v ≠ locked n + prov ∧ v ≠ locked n + mission ∧ v ≠ locked n + back) → lcsOf v = (6, true)) ∧
    (∀ (o : Otp) (d : Die), (d.showOtp o).get .LCS_STATE_STATE = (lcsOf o.voted).1 ∧
      (d.showOtp o).get .LCS_STATUS_INVALID_CODE = ofBool (lcsOf o.voted).2) ∧
    (∀ (mem : List Host.Cell) (resumed : Bool) (x : Otp × Die), OtpKept x.1 (runTransition mem resumed x).1) ∧
    (∀ (o : Otp) (v : Nat), (o.addCode v).code0 &&& v = v ∧ (o.addCode v).code1 &&& v = v ∧ (o.addCode v).code2 &&& v = v ∧ (o.addCode v).voted &&& v = v)

/-! ## The ring and the ensemble (spec/03, spec/12) -/

/-- R80: with both ring links up, a message to position q leaves by ring A alone when the way from this die to q along rising positions is no
longer than the way along falling ones, else by ring B alone; the one message that leaves carries that link, its destination and its body. -/
def Obligations.ShorterWay : Prop :=
  ∀ (d : Die) (q : Nat) (kind : RingKind) (body : Bytes), q < d.size → d.pos < d.size → q ≠ d.pos → d.upA = true → d.upB = true →
    let alongA := (q + d.size - d.pos) % d.size
    let alongB := (d.pos + d.size - q) % d.size
    (alongA ≤ alongB → (d.sendRing kind (some q) body).out = .ring { kind, dest := some q, links := [false], body } :: d.out) ∧
      (alongB < alongA → (d.sendRing kind (some q) body).out = .ring { kind, dest := some q, links := [true], body } :: d.out)

/-- R111, R313 to R320: a link comes up under a new epoch, or stays down when its peer is refused or more lanes than two are beyond repair; it
goes down with an event, of which the lead die learns; a flit error counts a replay; a rekey after 2^32 messages counts them anew; a discovery
list is taken and passed on; the lead decides with the dies it has found, and entry i of the steering table then names position i mod N; the
start of an ensemble ends in STARTING on another die, and on the lead in a configuration fault when too many dies are absent; the keys that
arrive are taken. -/
def Obligations.RingLinks : Prop :=
  ∀ (s : State) (b : Bool),
    let up : Fld := if b then .ENS_LINKS_UP_B else .ENS_LINKS_UP_A
    let auth : Fld := if b then .ENS_LINKS_AUTH_FAIL_B else .ENS_LINKS_AUTH_FAIL_A
    let rep : Fld := if b then .ENS_LINKS_REPAIRED_B else .ENS_LINKS_REPAIRED_A
    let lands (i : Instr) (P : Die → Prop) : Prop := ∃ d : Die, exec i s = .next (s.finish d) ∧ P d
    (∀ (chain : Bool) (lcs : Nat) (ident : Bytes) (n : Nat),
      let come : Instr := .ringLinkUp b chain lcs ident n
      (s.die.ens.founded.length = 1 → Answers come s fun _ d => d) ∧
      (s.die.ens.founded.length ≠ 1 →
        (2 < n → lands come fun d => d.get up = 0 ∧ Keeps [] [up] s.die d) ∧
        (n ≤ 2 → s.die.peerOk b chain lcs ident = false → lands come fun d =>
          d.get up = 0 ∧ d.get auth = 1 ∧ d.get rep = n ∧ Keeps [] [up, auth, rep] s.die d) ∧
        (n ≤ 2 → s.die.peerOk b chain lcs ident = true → lands come fun d =>
          d.get up = 1 ∧ d.get auth = 0 ∧ d.get rep = n ∧ (d.link b).epoch = ((s.die.link b).epoch + 1) % 2 ^ 32 ∧ (d.link b).rxSeq = 0 ∧
            (d.link b).missed = 0 ∧ (s.die.discovers = false → (d.link b).txSeq = 0) ∧
            (s.die.discovers = true → ∃ m, d.out = m :: s.die.out) ∧
            Keeps [.out, .ens, .evr] [up, auth, rep, .PMC_TEN_CNT_COUNT] s.die d)) ∧
      (chain = false ∨ lcs ≠ s.die.get .LCS_STATE_STATE → s.die.peerOk b chain lcs ident = false) ∧
      (s.die.ens.founded ≠ [] → ident ≠ s.die.ens.founded.getD (s.die.peerPos b s.die.ens.founded.length) [] →
        s.die.peerOk b chain lcs ident = false)) ∧
    (s.die.isUp b = true →
      (lands (.ringLinkDown b none) fun d => d.isUp b = false ∧ d.get .ENS_EVENT_LINK_DOWN = 1 ∧
        Keeps [.que, .out, .ens, .evr] ([up, .ENS_EVENT_LINK_DOWN, .PMC_TEN_CNT_COUNT] ++ lossFlds) s.die d) ∧
      (lands (.ringFlitError b) fun d => d.link b = { s.die.link b with replays := (s.die.link b).replays + 1 } ∧
        d.link (!b) = s.die.link (!b) ∧ Keeps [.ens] [] s.die d) ∧
      (2 ^ 32 ≤ (s.die.link b).messages → lands (.ringRekey b) fun d => d.link b = { s.die.link b with messages := 0 } ∧
        d.link (!b) = s.die.link (!b) ∧ Keeps [.ens] [] s.die d)) ∧
    (∀ pos : Nat, (s.die.isLead = true → lands (.ringLinkDown b (some pos)) fun d => d.get .ENS_EVENT_LINK_DOWN = 1 ∧
        Keeps [.que, .out] [.ENS_EVENT_LINK_DOWN] s.die d) ∧
      (s.die.isLead = false → Answers (.ringLinkDown b (some pos)) s fun _ d => d)) ∧
    (s.die.isUp b = false → ∀ c : Instr, c = .ringLinkDown b none ∨ c = .ringFlitError b ∨ c = .ringRekey b → Answers c s fun _ d => d) ∧
    ((s.die.link b).messages < 2 ^ 32 → Answers (.ringRekey b) s fun _ d => d) ∧
    (∀ (way : Bool) (found : List FoundDie), s.die.get .ENS_STATUS_STATE = 0 →
      (s.die.discovers = false → lands (.discover b way found) fun d =>
        d.ens.found = (if b ≠ way then found ++ [s.die.asFound] else found) ∧ Keeps [.out, .ens, .evr] [.PMC_TEN_CNT_COUNT] s.die d) ∧
      (s.die.discovers = true → lands (.discover b way found) fun d =>
        (if way then d.ens.foundBack = found else d.ens.found = found) ∧
          (s.die.clk.booted = false → Keeps [.ens, .evr] [.PMC_TEN_CNT_COUNT] s.die d))) ∧
    (s.die.clk.booted = true → s.die.get .ENS_STATUS_STATE = 0 →
      (s.die.discoveryOver = false → Answers .discoveryTimeout s fun _ d => d) ∧
      (s.die.discoveryOver = true →
        (s.die.discovers = true → Answers .discoveryTimeout s fun e d => d.decideDies e) ∧
        (s.die.discovers = false → s.die.ens.found = [] → s.die.get .RST_CAUSE_POWER_ON ≠ 0 → lands .discoveryTimeout fun d =>
          d.get .ENS_STATUS_STATE = 3 ∧ d.get .ENS_STATUS_FAULT = 1)) ∧
      (s.die.clk.bootMs + 1000 ≤ s.die.nowMs → s.die.discoveryOver = true)) ∧
    (∀ (e : Env) (d : Die), d.pos < 8 →
      (d.patternFault = 0 → (d.decideDies e).get .ENS_STATUS_STATE = 1 ∧ (d.decideDies e).get .ENS_STATUS_SIZE = d.foundSize ∧
        (d.decideDies e).get .ENS_STATUS_ACTING_LEAD = d.pos ∧
        (d.get .ENS_STATUS_SIZE = 0 → ∀ i : Nat, i < 64 → (d.decideDies e).getAt .REC_STEER_POSITION i = i % d.foundSize)) ∧
      (d.patternFault ≠ 0 → (d.decideDies e).get .ENS_STATUS_STATE = 3 ∧ (d.decideDies e).get .ENS_STATUS_FAULT = d.patternFault ∧
        ∀ fn : Nat, 0 < fn → fn < 256 → (d.decideDies e).getAt .QUE_PAGE_STATUS_ASSIGNED fn = 0 ∧ (d.decideDies e).getAt .TEN_STATE_STATE fn = 0)) ∧
    (∀ m : StartMsg, s.die.clk.booted = true →
      (s.die.isLead = true → s.die.get .ENS_STATUS_STATE = 1 →
        let gone := (List.range s.die.size).filter fun p => p != s.die.pos && !m.parts.any fun x => x.pos == p
        Answers (.ensembleStart m) s (fun e d => d.leadStart e m) ∧
          (absentAllowed s.die.size < gone.length → (s.die.leadStart s.env m).get .ENS_STATUS_STATE = 3)) ∧
      (s.die.isLead = true → s.die.get .ENS_STATUS_STATE = 2 → Answers (.ensembleStart m) s fun _ d => d.startLate m) ∧
      (s.die.isLead = false → s.die.get .ENS_STATUS_STATE ≤ 1 →
        (m.fault % 8 ≠ 0 → m.fault ≠ 5 → lands (.ensembleStart m) fun d => d.get .ENS_STATUS_STATE = 3 ∧ d.get .ENS_STATUS_FAULT = m.fault % 8) ∧
        (m.fault = 0 ∨ m.fault = 5 → m.bank = [] → lands (.ensembleStart m) fun d => d.get .ENS_STATUS_STATE = 1 ∧
          d.get .ENS_STATUS_SIZE = m.size % 16 ∧ d.get .ENS_STATUS_ACTING_LEAD = m.acting % 8 ∧ d.get .ENS_STATUS_LEAD_POS = m.lead % 8 ∧
          d.get .ENS_SERVE_SERVER = m.serve % 2 ^ 32 ∧ d.get .KFT_MINUTE_MINUTE = m.copy.minute % 2 ^ 32 ∧
          d.get .NTT_TICKET_EPOCH_EPOCH = m.copy.ticket % 2 ^ 32 ∧ d.get .MLF_ARCHIVE_EPOCH_EPOCH = max (s.die.get .MLF_ARCHIVE_EPOCH_EPOCH) m.copy.archive % 2 ^ 32 ∧
          d.ens.gens = m.copy.gens ∧ d.ens.vgens = m.copy.vgens))) ∧
    (∀ d : Die, d.startSlices.get .ENS_STATUS_STATE = 2) ∧
    (∀ (esk dxk dtk : Bytes) (returning : Bool) (found : Nat), s.die.clk.booted = true → s.die.get .ENS_STATUS_STATE ≠ 3 →
      lands (.eskReceived esk dxk dtk returning found) fun d =>
        (esk ≠ [] → d.get .KEY_ROOT_STATUS_ESK_VALID = 1 ∧ d.key.esk = some (slice esk 0 32) ∧ d.ens.dxk = some (slice dxk 0 32) ∧
          d.ens.dtk = some (slice dtk 0 32)) ∧
        (esk = [] → d.get .KEY_ROOT_STATUS_COMBINE_FAIL = 1 ∧ d.key.esk = s.die.key.esk) ∧
        (returning = true → d.get .ENS_STATUS_STATE = 1 ∧ d.get .MLF_STATUS_STATE = 3) ∧
        (returning = false → s.die.get .ENS_STATUS_STATE = 1 → d.get .ENS_STATUS_STATE = 2))

/-- R322, R324, R326, R327, R328, R329: a miss is reported to the die that judges it, which declares a position only when both of its links are
reported; a declared position is held for and, by the die that its slice falls to, adopted; the die that is declared resets; the serve map
changes one entry and releases what was held for it; a handback holds what goes to the position until it is done, and the slice is given once
nothing of the aliases is in flight; a standby is taken on the lead die alone, and refused when it does not fit. -/
def Obligations.Failures : Prop :=
  ∀ (s : State), s.die.pos < 8 → s.die.tin.op = none →
    let lands (i : Instr) (P : Die → Prop) : Prop := ∃ d : Die, exec i s = .next (s.finish d) ∧ P d
    (s.die.clk.booted = true → lands .heartbeatTimer fun d => Keeps [.out, .ens, .evr] [.PMC_TEN_CNT_COUNT] s.die d ∧
      (s.die.upA = true ∨ s.die.upB = true → s.die.out.length < d.out.length)) ∧
    (s.die.clk.booted = false → Answers .heartbeatTimer s fun _ d => d) ∧
    (∀ b : Bool, s.die.size ≠ 1 → s.die.get .ENS_STATUS_STATE = 2 → Answers (.heartbeatMiss b) s fun e d =>
      let f := d.neighbour b
      let d1 := d.updLink b fun l => { l with missed := 4 }
      let dest := if d.get .ENS_STATUS_ACTING_LEAD = f then d.holderOf f else d.get .ENS_STATUS_ACTING_LEAD
      if dest = d.pos then d1.noteReport e d.pos b else d1.sendRing .report (some dest) [BitVec.ofNat 8 d.pos, BitVec.ofNat 8 (ofBool b)]) ∧
    (s.die.size = 1 ∨ s.die.get .ENS_STATUS_STATE ≠ 2 → ∀ b : Bool, Answers (.heartbeatMiss b) s fun _ d => d) ∧
    (∀ (src : Nat) (b : Bool),
      let f := if b then (src + s.die.size - 1) % s.die.size else (src + 1) % s.die.size
      (s.die.judges f = false → lands (.neighbourReport src b) fun d => Keeps [.evr] [.PMC_TEN_CNT_COUNT] s.die d) ∧
      (s.die.judges f = true → (f, ofBool (!b)) ∉ s.die.ens.reports → lands (.neighbourReport src b) fun d =>
        (f, ofBool b) ∈ d.ens.reports ∧ d.ens.declared = s.die.ens.declared ∧ Keeps [.ens, .evr] [.PMC_TEN_CNT_COUNT] s.die d) ∧
      (s.die.judges f = true → (f, ofBool (!b)) ∈ s.die.ens.reports → s.die.size ≠ 1 → f ≠ s.die.pos → f ∉ s.die.ens.declared →
        s.die.get .ENS_STATUS_STATE = 2 → lands (.neighbourReport src b) fun d => f ∈ d.ens.declared ∧ d.get .ENS_EVENT_DIE_FAILED = 1)) ∧
    (∀ (pos : Nat) (discard : Bool), s.die.judges pos = false → lands (.failingReceived pos discard) fun d =>
      d.mlf = (if discard = true ∧ s.die.holderOf pos = s.die.pos then { s.die.mlf with mirror := .empty, mirrorToo := .empty } else s.die.mlf) ∧
        Keeps [.mlf, .evr] [.PMC_TEN_CNT_COUNT] s.die d) ∧
    (∀ pos : Nat, s.die.size ≠ 1 → pos < s.die.size → pos ≠ s.die.pos → pos ∉ s.die.ens.declared → s.die.get .ENS_STATUS_STATE = 2 →
      (s.die.judges pos = true → ∀ discard : Bool, lands (.failingReceived pos discard) fun d => pos ∈ d.ens.declared) ∧
      (s.die.isLead = true → s.die.get .ENS_CTL_LINK_GRACE ≠ 0 →
        (∃ ms : Nat, (pos, ms) ∈ s.die.ens.hostDown ∧ 10 * ms + s.die.get .ENS_CTL_LINK_GRACE < 10 * s.die.nowMs) →
        lands (.linkGraceTimeout pos) fun d => pos ∈ d.ens.declared ∧ d.get .ENS_EVENT_DIE_FAILED = 1)) ∧
    (s.die.size ≠ 1 → s.die.get .ENS_STATUS_STATE = 2 → s.die.isLead = true → s.die.graceOver s.die.pos = true →
      s.die.clk.resetClass < 2 → s.die.tmp.lockdown = false → s.die.clk.phase ≠ .stopped →
      lands (.linkGraceTimeout s.die.pos) fun d => d.clk.resetClass = 2 ∧ d.get .ENS_STATUS_ACTING_LEAD = s.die.holderOf s.die.pos % 8) ∧
    (∀ pos : Nat, s.die.get .ENS_CTL_LINK_GRACE = 0 ∨ s.die.isLead = false ∨ (∀ x ∈ s.die.ens.hostDown, x.1 ≠ pos) →
      Answers (.linkGraceTimeout pos) s fun _ d => d) ∧
    (∀ pos : Nat, s.die.size ≠ 1 →
      (pos = s.die.pos → Answers (.declarationReceived pos) s fun e d => d.startReset e 2 .RST_CAUSE_DECLARED false) ∧
      (pos ≠ s.die.pos → lands (.declarationReceived pos) fun d => pos ∈ d.ens.declared ∧
        (s.die.get .ENS_STATUS_ACTING_LEAD = pos → d.get .ENS_STATUS_ACTING_LEAD = s.die.holderOf pos % 8 ∧ d.key.ceremony = none) ∧
        ((pos + 1) % s.die.size = s.die.pos → s.die.get .MLF_STATUS_ADOPTED = 0 → s.die.key.esk.isSome = true → pos < 8 →
          s.die.pos ∉ s.die.ens.declared → (∀ p : Nat, p < max 8 s.die.size → (s.die.serverOf p = s.die.pos ↔ p = s.die.pos)) →
          d.get .MLF_STATUS_ADOPTED = 1 ∧ d.get .MLF_STATUS_ADOPTED_POS = pos ∧ d.get .MLF_EVENT_ADOPTED = 1))) ∧
    (∀ pos server : Nat, pos < 8 → server < 8 → s.die.get .ENS_STATUS_STATE = 2 → s.die.get .ENS_SERVE_SERVER < 2 ^ 32 →
      lands (.serveMapUpdate pos server) fun d =>
        d.serverOf pos = server ∧ (∀ q : Nat, q < 8 → q ≠ pos → d.serverOf q = s.die.serverOf q) ∧ pos ∉ d.ens.declared ∧
          (server ∉ s.die.ens.declared ∨ server = pos → ∀ h ∈ d.ens.held, h.pos ≠ pos) ∧ (server ≠ pos → ∀ k : Nat, k < 256 → s.die.getAt .ENS_STANDBY_VALID (pos * 256 + k) ≠ 0 →
            d.getAt .ENS_STANDBY_ALIASED (pos * 256 + k) = 1)) ∧
    (∀ pos : Nat, pos < 8 → s.die.serverOf pos ≠ pos → lands (.handback pos true) fun d => pos ∈ d.ens.declared ∧
      (s.die.isLead = true → d.get .ENS_CTL_HANDBACK = 1 ∧ d.get .ENS_CTL_POS = pos) ∧
      (s.die.get .MLF_STATUS_ADOPTED ≠ 0 → s.die.get .MLF_STATUS_ADOPTED_POS = pos → s.die.aliasesOf pos = [] → d.get .MLF_STATUS_ADOPTED = 0 ∧
        ∀ x ∈ d.kft.sessions, x.home ≠ pos)) ∧
    (∀ (e : Env) (d : Die) (pos : Nat), d.ens.giving = some pos →
      ((∃ a ∈ d.aliasesOf pos, d.fnBusy a.1 = true) → d.giveSlice e = d) ∧
      ((∀ a ∈ d.aliasesOf pos, d.fnBusy a.1 = false) → (d.giveSlice e).ens.giving = none ∧ (d.giveSlice e).get .MLF_STATUS_ADOPTED = 0 ∧
        ∀ x ∈ (d.giveSlice e).kft.sessions, x.home ≠ pos)) ∧
    (∀ (pos : Nat) (body : Bytes), pos < 8 → pos ≠ s.die.pos → s.die.serverOf pos ≠ pos → s.die.get .ENS_SERVE_SERVER < 2 ^ 32 →
      lands (.handbackDone pos body) fun d =>
        d.serverOf pos = pos ∧ pos ∉ d.ens.declared ∧ (∀ a ∈ d.ens.aliases, a.2 / 256 ≠ pos) ∧
          (∀ k : Nat, k < 256 → d.getAt .ENS_STANDBY_ALIASED (pos * 256 + k) = 0) ∧
          (s.die.isLead = true → d.get .ENS_EVENT_HANDBACK_DONE = 1 ∧ d.get .ENS_CTL_HANDBACK = 0)) ∧
    (∀ body : Bytes, s.die.get .MLF_STATUS_STATE = 3 → lands (.handbackDone s.die.pos body) fun d =>
      d.get .MLF_STATUS_STATE = 1 ∧ d.get .ENS_STATUS_STATE = 2) ∧
    (∀ (tenant standby : Nat) (valid idle : Bool), tenant < 2048 → standby < 2048 →
      let taken (d : Die) : Prop := d.getAt .ENS_STANDBY_VALID tenant = ofBool valid ∧ d.getAt .ENS_STANDBY_STANDBY tenant = standby
      let flds : List Fld := [.ENS_STANDBY_VALID, .ENS_STANDBY_STANDBY]
      (s.die.isLead = true →
        (valid = false ∨ s.die.standbyOk tenant standby idle = true → lands (.standbyWrite tenant valid standby idle false) fun d =>
          taken d ∧ Keeps [.que, .out, .ens, .evr] (flds ++ [.PMC_TEN_CNT_COUNT]) s.die d) ∧
        (valid = true → s.die.standbyOk tenant standby idle = false → lands (.standbyWrite tenant valid standby idle false) fun d =>
          d.get .ENS_EVENT_STEER_REFUSED = 1 ∧ Keeps [.que, .out] [.ENS_EVENT_STEER_REFUSED] s.die d) ∧
        Answers (.standbyWrite tenant valid standby idle true) s fun _ d => d) ∧
      (s.die.isLead = false → Answers (.standbyWrite tenant valid standby idle false) s (fun _ d => d.access 0) ∧
        lands (.standbyWrite tenant valid standby idle true) fun d => taken d ∧ Keeps [] flds s.die d))

/-! ## Control cores, worlds and the MPUs (spec/13) -/

/-- R343, R345 to R351: a permitted GATE call enters the destination world at the word after its tag, carries g0 to g5 and
nothing else of the registers, and pushes a frame; a return restores what the frame holds; every other GATE faults in its own world, is
counted and enters nothing; an interrupt enters the receiving world in the same way, with a full stack the secure fault vector; a page changes
its owner with its old contents gone, after the accesses checked before and before the others; a guest reaches only pages that its tenant
owns, whatever a second-stage entry says, and an access that the owner refuses is counted and goes to the hypervisor. -/
def Obligations.Worlds : Prop :=
  ∀ (s : State) (core : Nat), Settled s → core < 4 → s.die.clk.booted = true → core ∉ s.die.lcs.halted → core < s.die.wld.cores.length →
    let fault (t : State) : Prop := t.die.get .WLD_EVENT_GATE_FAULT = 1 ∧ (t.die.core core).world = (s.die.core core).world ∧
      (t.die.core core).stack = (s.die.core core).stack ∧ Frame [.que, .out, .wld, .evr]
        ([.WLD_GATE_FAULTS_COUNT, .WLD_EVENT_GATE_FAULT, .WLD_POT_FAULTS_COUNT, .WLD_EVENT_POT_FAULT] ++ lossFlds) s t
    let entered (t : State) (c : Core) (ret : Nat) (w : World) (guest entry : Nat) : Prop :=
      (t.die.core core).world = w ∧ (t.die.core core).guest = guest ∧ (t.die.core core).pc = (entry + 4) % 2 ^ 64 ∧
        (∀ k : Nat, k < 6 → (t.die.core core).g.getD k 0 = c.g.getD k 0) ∧ (∀ k : Nat, 6 ≤ k → (t.die.core core).g.getD k 0 = 0) ∧
        (t.die.core core).stack = { world := c.world, guest := c.guest, ret := ret % 2 ^ 64, saved := c.g.drop 6 } :: c.stack ∧
        (∀ k : Nat, k ≠ core → t.die.core k = s.die.core k) ∧ Frame [.wld] [] s t
    (core ∉ s.die.wld.gated → ∀ (word tag pc : Nat) (regs : List Nat) (k : Nat), gateReg word = some k →
      let c := (s.die.core core).load pc regs
      let target := c.g.getD k 0
      let page := target / 4096
      let owner := if page < 8192 then worldOf (s.die.getAt .WLD_POT_KIND page) else none
      (∀ w : World, owner = some w →
        let ok := callPermitted c.world w && target % 4 == 0 && tagAdmits (tag % 2 ^ 32) c.world && decide (c.stack.length < 8)
        (ok = true → Does (.gateCall core word tag pc regs) s fun t =>
          entered t c (pc + 4) w (if w = .guest then s.die.getAt .WLD_POT_TENANT page else 0) target) ∧
        (ok = false → Does (.gateCall core word tag pc regs) s fault)) ∧
      (owner = none → Does (.gateCall core word tag pc regs) s fun t => fault t ∧ (c.world ≠ .secure → t.die.get .WLD_EVENT_POT_FAULT = 1))) ∧
    (core ∉ s.die.wld.gated → ∀ regs : List Nat,
      ((s.die.core core).stack = [] → Does (.gateReturn core regs) s fault) ∧
      (∀ (f : Sys2Proof.Machine.Frame) (rest : List Sys2Proof.Machine.Frame), (s.die.core core).stack = f :: rest → Does (.gateReturn core regs) s fun t =>
        t.die.core core = { world := f.world, guest := f.guest, pc := f.ret, g := ((List.range 24).map fun k => regs.getD k 0 % 2 ^ 64).take 6 ++ f.saved, stack := rest } ∧
          (∀ k : Nat, k ≠ core → t.die.core k = s.die.core k) ∧ Frame [.wld] [] s t)) ∧
    (∀ (world guest pc : Nat) (regs : List Nat),
      let c := (s.die.core core).load pc regs
      let w := worldOfCode world
      let g := if w = .guest then guest % 2048 else 0
      (w ≠ c.world ∨ g ≠ c.guest →
        (c.stack.length < 8 → Does (.worldInterrupt core world guest pc regs) s fun t => entered t c pc w g (Config.vectorEntry w.code g) ∧
          core ∉ t.die.wld.gated) ∧
        (8 ≤ c.stack.length → Does (.worldInterrupt core world guest pc regs) s fun t => (t.die.core core).world = .secure ∧
          (t.die.core core).pc = Config.vectorEntry 3 0 % 2 ^ 64 ∧
          (t.die.core core).stack = c.stack ∧ (∀ k : Nat, 6 ≤ k → (t.die.core core).g.getD k 0 = 0) ∧
          Frame [.que, .out, .wld, .evr] lossFlds s t)) ∧
      (w = c.world → g = c.guest → Does (.worldInterrupt core world guest pc regs) s fun t => t.die.core core = s.die.core core ∧ Frame [.wld] [] s t)) ∧
    (∀ (page kind tenant : Nat) (before after : List CoreAccess), Answers (.potOwnerChange page kind tenant before after) s fun e d =>
      ((d.coreAccesses e before).ownPage page kind tenant).coreAccesses e after) ∧
    (∀ (d : Die) (page kind tenant : Nat), page < 8192 →
      (4096 ≤ page ∨ page < d.corePages →
        let t := d.ownPage page kind tenant
        t.getAt .WLD_POT_KIND page = kind % 4 ∧ t.getAt .WLD_POT_TENANT page = (if kind % 4 = 3 then tenant % 2048 else 0) ∧
          t.getAt .WLD_POT_PENDING page = 0 ∧ (∀ x ∈ t.wld.pages, x.1 / 4096 ≠ page) ∧
          (∀ x ∈ d.wld.pages, x.1 / 4096 ≠ page → x ∈ t.wld.pages) ∧ Keeps [.wld] [.WLD_POT_KIND, .WLD_POT_TENANT, .WLD_POT_PENDING] d t) ∧
      (page < 4096 → d.corePages ≤ page → d.ownPage page kind tenant = d)) ∧
    (∀ (e : Env) (d : Die), d.coreRuns core = true →
      let c := d.core core
      (∀ guest from_ page : Nat,
        (c.world = .hypervisor → (d.coreAccess e (.map core guest from_ page)).mapped (guest % 2048) (from_ % 2 ^ 36) = some page) ∧
        (c.world ≠ .hypervisor → d.coreAccess e (.map core guest from_ page) = d)) ∧
      (∀ (reg a size p : Nat) (data : Bytes), c.world = .guest → a % 4096 + size ≤ 4096 → size ≤ 8 → a % 4096 + data.length ≤ 4096 →
        d.mapped c.guest (a / 4096) = some p → p < 8192 → d.getAt .WLD_POT_KIND p ≠ 3 ∨ d.getAt .WLD_POT_TENANT p ≠ c.guest →
        d.coreAccess e (.load core reg a size false) = (d.potFault e core a).toHypervisor e core ∧
          d.coreAccess e (.store core a data false) = (d.potFault e core a).toHypervisor e core) ∧
      (∀ (a k : Nat) (data : Bytes), c.world = .secure → a / 4096 < d.corePages → a % 4096 + data.length ≤ 4096 → k < data.length →
        sget (fun _ => (0 : Byte)) (d.coreAccess e (.store core a data false)).wld.pages (a + k) = data.getD k 0))

/-- R239, R352, R353, R357, R358, R359, R361, R364: only the key restarts the watchdog, whose expiry resets the die; a release frees blocks but
never the generator, the key manager or the NVM; a commit checks its whole shadow set and leaves the active one as it is until the earlier
bursts are over; a policy program ends within 2,048 instructions, and its answer allows the use or refuses the request. -/
def Obligations.Guards : Prop :=
  ∀ (s : State), Settled s →
    (∀ value : Nat,
      (value % 65536 = 0x5A5A → Does (.wdogKick value) s fun t =>
        t.die.get .WLD_WDOG_STATUS_REMAINING_MS = clamp 1 1000 (s.die.get .WLD_WDOG_CTL_PERIOD_MS) ∧ Frame [] [.WLD_WDOG_STATUS_REMAINING_MS] s t) ∧
      (value % 65536 ≠ 0x5A5A → Answers (.wdogKick value) s fun _ d => d)) ∧
    (s.die.wdogRuns = true → s.die.get .WLD_WDOG_STATUS_REMAINING_MS = 0 → s.die.clk.resetClass < 2 → Does .wdogExpire s fun t =>
      t.die.get .RST_CAUSE_WATCHDOG = 1 ∧ t.die.clk.booted = false ∧ t.die.clk.resetClass = (if s.die.size = 1 then 3 else 2) ∧
        t.die.get .WLD_WDOG_STATUS_REMAINING_MS = 100) ∧
    (s.die.wdogRuns = false ∨ s.die.get .WLD_WDOG_STATUS_REMAINING_MS ≠ 0 → Answers .wdogExpire s fun _ d => d) ∧
    (s.die.wld.gated.length = 4 → s.die.wdogRuns = false) ∧
    (∀ blocks : Nat, Does (.holdRelease blocks) s fun t =>
      (∀ b : Nat, b < 11 → bit (t.die.get .WLD_HOLD_BLOCKS) b =
        (bit (s.die.get .WLD_HOLD_BLOCKS) b && (!bit blocks b || b == 6 || b == 7 || b == 10))) ∧
      (∀ x : Nat × Bool, x ∈ t.die.wld.deferred ↔ x ∈ s.die.wld.deferred ∧ ¬(x.1 < 11 ∧ bit blocks x.1 = true ∧ x.1 ≠ 6 ∧ x.1 ≠ 7 ∧ x.1 ≠ 10)) ∧
      Frame [.wld] [.WLD_HOLD_BLOCKS, .WLD_GATE_PENDING_BLOCKS, .PWR_STATUS_DEFERRED] s t) ∧
    (∀ mpu : Nat, mpu < 263 → s.die.getAt .MPU_STATUS_DRAINING mpu = 0 →
      let rs := (List.range 16).map (s.die.shadowRegion mpu)
      let refused (t : State) (result a : Nat) : Prop := t.die.getAt .MPU_STATUS_LAST_RESULT mpu = result ∧ t.die.getAt .MPU_STATUS_FAULT_REGION mpu = a ∧
        t.die.get .WLD_EVENT_MPU_COMMIT_REFUSED = 1 ∧
        Frame [.que, .out, .evr] ([.MPU_STATUS_LAST_RESULT, .MPU_STATUS_FAULT_REGION, .WLD_EVENT_MPU_COMMIT_REFUSED] ++ lossFlds) s t
      (∀ a : Nat, firstOverlap rs = some a → Does (.mpuCommit mpu) s fun t => refused t 2 a) ∧
      (firstOverlap rs = none → ∀ a : Nat, s.die.firstMisshapen mpu rs = some a → Does (.mpuCommit mpu) s fun t => refused t 3 a) ∧
      (firstOverlap rs = none → s.die.firstMisshapen mpu rs = none → Does (.mpuCommit mpu) s fun t =>
        t.die.getAt .MPU_STATUS_DRAINING mpu = 1 ∧ t.die.wld.commits = s.die.wld.commits ++ [(mpu, rs)] ∧ Frame [.wld] [.MPU_STATUS_DRAINING] s t)) ∧
    (∀ (m a b : Nat) (rs : List Region), firstOverlap rs = none → s.die.firstMisshapen m rs = none → rs.length = 16 → a < b → b < 16 → ∀ x y : Region,
      rs[a]? = some x → rs[b]? = some y → x.overlaps y = false ∧ x.shaped = true ∧ (m = 258 → a < 4 → x = s.die.activeRegion m a)) ∧
    (∀ (mpu : Nat) (rs : List Region), mpu < 263 → rs.length = 16 → s.die.wld.commits.find? (fun x => x.1 == mpu) = some (mpu, rs) →
      Does (.mpuCommitEffect mpu) s fun t => t.die.getAt .MPU_STATUS_DRAINING mpu = 0 ∧ t.die.getAt .MPU_STATUS_LAST_RESULT mpu = 1 ∧
        (∀ (r : Nat) (x : Region), rs[r]? = some x → t.die.getAt2 .MPU_RGN_BASE_BASE mpu r = x.base / 4096 % 2 ^ 52 ∧
          t.die.getAt2 .MPU_RGN_ATTR_SIZE_LOG2 mpu r = x.sizeLog2 % 2 ^ 6 ∧ t.die.getAt2 .MPU_RGN_ATTR_ENABLE mpu r = ofBool x.enable ∧
          t.die.getAt2 .MPU_RGN_ATTR_R mpu r = ofBool x.r ∧ t.die.getAt2 .MPU_RGN_ATTR_W mpu r = ofBool x.w ∧ t.die.getAt2 .MPU_RGN_ATTR_X mpu r = ofBool x.x) ∧
        (∀ x ∈ t.die.wld.commits, x.1 ≠ mpu) ∧ Frame [.wld] [.MPU_STATUS_DRAINING, .MPU_STATUS_LAST_RESULT, .MPU_STATUS_COMMIT_GEN, .MPU_RGN_BASE_BASE,
          .MPU_RGN_ATTR_SIZE_LOG2, .MPU_RGN_ATTR_ENABLE, .MPU_RGN_ATTR_R, .MPU_RGN_ATTR_W, .MPU_RGN_ATTR_X] s t) ∧
    (∀ (rid usage : Nat) (r : Req) (o : KeyObj), s.die.req? rid = some r → r.stage = .waiting → r.allowed = false → s.die.waitingUse r = some usage →
      s.die.readKey r.tenant r.keyHandle = .ok o → bit o.aflags 2 = true → Does (.policyEval rid) s fun t =>
        t.die.get .WLD_POLICY_EVALS_COUNT = (s.die.get .WLD_POLICY_EVALS_COUNT + 1) % 2 ^ 32 ∧
          match s.die.runPolicy s.env r.opcode r.tenant o (2 ^ usage) r.inLen 0 r.pair with
          | (d1, none) => t = s.after fun _ _ => d1.updReq rid fun x => { x with allowed := true }
          | (d1, some x) => t = s.after fun e _ => ((d1.dropCon rid).dropNtt rid).fail e r .policyDeny x) ∧
    (∀ (inputs words : List Nat) (n : Nat) (m : PolVm), words[m.pc]? = none → PolVm.run inputs words (n + 1) m = .fault) ∧
    (∀ (inputs words : List Nat) (m : PolVm) (imm : Nat), imm < 2 ^ 16 → words[m.pc]? = some (0x17 + imm * 2 ^ 16) → branchTo m.pc imm = m.pc →
      PolVm.run inputs words 2048 m = .stepLimit)

/-! ## Tamper monitors, responses and the backup domain (spec/14) -/

/-- R221, R367, R368, R369, R371, R372, R373, R374, R375, R376, R379, R380: a condition found on an enabled source latches its alarm and performs
its rank and every lower one: Throttle, Halt, Zeroize-sessions, Zeroize-all; while its condition is present a source does not fire again; in
lockdown nothing fires; a built-in stimulus is seen and nothing else happens. -/
def Obligations.Alarms : Prop :=
  ∀ (s : State), s.die.tmp.lockdown = false →
    let lands (i : Instr) (P : Die → Prop) : Prop := ∃ d : Die, exec i s = .next (s.finish d) ∧ P d
    let ranked (r : Nat) (t : Die) : Prop := (1 ≤ r → t.get .TMP_STATUS_THROTTLED = 1) ∧ (2 ≤ r → t.get .TMP_STATUS_HALTED = 1 ∧ t.lcs.auth = false) ∧
      (3 ≤ r → t.kft.sessions = [] ∧ t.key.objs = [] ∧ t.ntt.ctxs = [] ∧ 3 ≤ t.tmp.clearing) ∧
      (4 ≤ r → t.key.drk = none ∧ t.key.bbk = none ∧ t.key.nk = none ∧ t.key.esk = none ∧ t.key.share = none)
    let fired (src : Nat) (t : Die) : Prop := bit (t.get .TMP_ALARM_SOURCES) (src - 1) = true ∧ ranked (s.die.getAt .TMP_MAP_RANK src) t ∧
      (s.die.getAt .TMP_MAP_OUT src ≠ 0 → t.get .TMP_STATUS_OUT ≠ 0)
    let latched (src : Nat) (t : Die) : Prop := bit (t.get .TMP_ALARM_SOURCES) (src - 1) = true ∧ t.cond src = true
    let fresh (src : Nat) : Prop := s.die.tmp.bist = none ∧ s.die.cond src = false ∧ s.die.getAt .TMP_MAP_ENABLED src ≠ 0
    (∀ (d : Die) (e : Env) (src kind : Nat), d.cond src = true ∨ d.getAt .TMP_MAP_ENABLED src = 0 ∨ d.tmp.lockdown = true → d.alarm e src kind = d) ∧
    (∀ (pair kind : Nat) (c : Instr) (src : Nat),
      (c = .meshAlarm pair kind ∧ pair < 4 ∧ 1 ≤ kind ∧ kind ≤ 4 ∧ src = pair + 1) ∨ (c = .tamperPinAlarm pair kind ∧ pair < 3 ∧ 1 ≤ kind ∧ kind ≤ 2 ∧ src = pair + 5) →
      (s.die.getAt .TMP_MAP_ENABLED src = 0 → Answers c s fun _ d => d) ∧
      (fresh src → lands c fun t => fired src t ∧ t.cond src = true ∧ ∀ f : Fld, pinField src = some f → t.get f = kind) ∧
      (∀ b : Bist, s.die.tmp.bist = some b → b.source = src → b.kind = kind → s.die.getAt .TMP_MAP_ENABLED src ≠ 0 → lands c fun t =>
        t.tmp = { s.die.tmp with bist := some { b with detected := true } } ∧ t.get .TMP_ALARM_SOURCES = s.die.get .TMP_ALARM_SOURCES)) ∧
    (∀ (t0 t1 : Int) (aux core : Nat),
      let hi := 4 * signed16 (s.die.get .TMP_TEMP_LIMITS_HIGH)
      let lo := 4 * signed16 (s.die.get .TMP_TEMP_LIMITS_LOW)
      lands (.tempSample t0 t1 aux core) fun t => t.get .TMP_TEMP_SENSOR0 = int16 t0 ∧ t.get .TMP_TEMP_SENSOR1 = int16 t1 ∧
        t.get .TMP_SUPPLY_AUX_MV = aux % 2 ^ 16 ∧ t.get .TMP_SUPPLY_CORE_MV = core % 2 ^ 16 ∧ t.clk.thermalCap = thermalTerm (max t0 t1) ∧
        t.tmp.overHigh = decide (hi < max t0 t1) ∧ t.tmp.underLow = decide (min t0 t1 < lo) ∧
        (hi < max t0 t1 → s.die.tmp.overHigh = true → fresh 8 → latched 8 t) ∧
        (min t0 t1 < lo → s.die.tmp.underLow = true → fresh 9 → latched 9 t) ∧
        (40 < max t0 t1 - min t0 t1 → fresh 10 → latched 10 t)) ∧
    (∀ aux : Bool, let high := if aux then 0x0E else 0x0C
      let low := if aux then 0x0D else 0x0B
      (fresh high → lands (.supplyHigh aux) fun t => fired high t ∧ t.cond high = true) ∧
      (s.die.tmp.bist = none → lands (.supplyResetLevel aux) fun t => t.cond low = true ∧ t.clk.supplyHold = true ∧
        (s.die.clk.resetClass < 2 → s.die.clk.phase ≠ .stopped → t.get .RST_CAUSE_SUPPLY = 1 ∧ t.clk.booted = false)) ∧
      (s.die.clk.stable = false → Answers (.brownoutWarn aux) s fun _ d => d) ∧
      (s.die.clk.stable = true → s.die.get .TMP_STATUS_BROWNOUT = 0 → lands (.brownoutWarn aux) fun t => t.get .TMP_STATUS_BROWNOUT = 1 ∧ t.cond 0x18 = true ∧
        bit (t.get .TMP_ALARM_SOURCES) 0x17 = true ∧ (if aux then t.tmp.brownAux else t.tmp.brownCore) = true) ∧
      (s.die.get .TMP_STATUS_BROWNOUT ≠ 0 → (if aux then s.die.tmp.brownCore else s.die.tmp.brownAux) = false → lands (.brownoutEnd aux) fun t =>
        t.get .TMP_STATUS_BROWNOUT = 0 ∧ t.cond 0x18 = false ∧ t.tmp.brownAux = false ∧ t.tmp.brownCore = false)) ∧
    (∀ kind : Nat, (kind < 3 → fresh (0x12 + kind) → lands (.glitch kind) fun t => fired (0x12 + kind) t ∧ t.cond (0x12 + kind) = true) ∧
      (3 ≤ kind → Answers (.glitch kind) s fun _ d => d)) ∧
    (∀ mv : Int, lands (.vbatSample mv) fun t => t.get .TMP_VBAT_VBAT_MV = mv.toNat % 2 ^ 16 ∧
      t.tmp.backup.vbatGood = decide (1600 ≤ mv) ∧ (mv < 2200 → fresh 0x0F → latched 0x0F t) ∧ (2200 ≤ mv → t.cond 0x0F = false) ∧
      (mv < -300 → fresh 0x10 → latched 0x10 t)) ∧
    (∀ pos source rank : Nat, 0 < source → source ≤ 0x17 → rank ≤ 4 → lands (.tamperMessageReceived pos source rank) fun t =>
      bit (t.get .TMP_ALARM_SOURCES) (source - 1) = true ∧ ranked rank t ∧ (s.die.getAt .TMP_MAP_OUT source ≠ 0 → t.get .TMP_STATUS_OUT ≠ 0)) ∧
    (∀ source : Nat,
      (source ∈ clearSources → lands (.alarmConditionClear source) fun t => t.cond source = false ∧
        (∀ j : Nat, 0 < j → j ≤ 0x18 → j ≠ source → t.cond j = s.die.cond j) ∧ t.get .TMP_ALARM_SOURCES = s.die.get .TMP_ALARM_SOURCES ∧
        (source = 0x0B → s.die.cond 0x0D = false → t.clk.supplyHold = false)) ∧
      (source ∉ clearSources → Answers (.alarmConditionClear source) s fun _ d => d))

/-- R368, R370, R376, R377, R378, R384, R385, R386, R387, R388: Zeroize-sessions ends in a warm reset and Zeroize-all in lockdown; a Throttle ends
10 ms after no condition of its rank is left; a Halt ends only with its release written and its conditions gone for 1 ms; TAMPER_OUT_N is released
only by an acknowledgement with no condition left; on the cell an alarm zeroizes BBK when its repeat confirms it; the backup time is set once;
a built-in test passes exactly when its monitor has seen the stimulus. -/
def Obligations.TamperEnds : Prop :=
  ∀ (s : State), Settled s →
    let lands (i : Instr) (P : Die → Prop) : Prop := ∃ d : Die, exec i s = .next (s.finish d) ∧ P d
    (s.die.tmp.clearing = 3 → s.die.tmp.lockdown = false → s.die.clk.resetClass < 2 → s.die.clk.phase ≠ .stopped → Does .zeroizeClearDone s fun t =>
      t.die.tmp.clearing = 0 ∧ t.die.get .RST_CAUSE_TAMPER = 1 ∧ t.die.clk.booted = false ∧ t.die.key.objs = []) ∧
    (s.die.tmp.clearing = 4 → Does .zeroizeClearDone s fun t => t.die.tmp.lockdown = true ∧ t.die.tmp.clearing = 0 ∧ t.die.get .HLK_STATUS_LINK_UP = 0 ∧
      t.die.get .TMP_STATUS_RANK = 4 ∧ t.die.get .TMP_STATUS_OUT ≠ 0) ∧
    (s.die.tmp.clearing = 0 → Answers .zeroizeClearDone s fun _ d => d) ∧
    (s.die.rankedCondition 1 = false → s.die.tmp.throttleMs + 10 ≤ s.die.nowMs → Does .throttleEnd s fun t => t.die.get .TMP_STATUS_THROTTLED = 0 ∧
      Frame [] [.TMP_STATUS_THROTTLED, .TMP_STATUS_RANK, .TMP_STATUS_ACTIVE] s t) ∧
    (s.die.rankedCondition 1 = true ∨ s.die.nowMs < s.die.tmp.throttleMs + 10 → Answers .throttleEnd s fun _ d => d) ∧
    (let halt (t : State) (other : Bool) : Prop := t.die.get .TMP_STATUS_HALTED =
        (if s.die.get .TMP_STATUS_HALTED ≠ 0 ∧ other = true ∧ s.die.tmp.clearing = 0 then 0 else s.die.get .TMP_STATUS_HALTED) ∧
        Frame [.que, .tmp] [.TMP_STATUS_HALTED, .TMP_STATUS_RANK, .TMP_STATUS_ACTIVE] s t
     (s.die.rankedCondition 2 = false → Does .haltRelease s (fun t => t.die.tmp.released = true ∧ halt t s.die.tmp.quiet) ∧
        (s.die.tmp.haltMs + 1 ≤ s.die.nowMs → Does .haltQuietTimer s fun t => t.die.tmp.quiet = true ∧ halt t s.die.tmp.released)) ∧
     (s.die.rankedCondition 2 = true → Answers .haltRelease s fun _ d => d.access 0) ∧
     (s.die.rankedCondition 2 = true ∨ s.die.nowMs < s.die.tmp.haltMs + 1 → Answers .haltQuietTimer s fun _ d => d)) ∧
    (∀ (d : Die) (rank : Nat),
      ((d.stampCalm rank).tmp.throttleMs = if 1 ≤ rank then d.nowMs else d.tmp.throttleMs) ∧
        (d.stampCalm rank).tmp.haltMs = if 2 ≤ rank then d.nowMs else d.tmp.haltMs) ∧
    (Does .outAck s fun t => t.die.tmp.outAck = true ∧ Frame [.que, .out, .tmp] [.TMP_STATUS_OUT] s t ∧
      (s.die.get .TMP_STATUS_OUT ≠ 0 → s.die.outCondition = true ∨ s.die.tmp.outLog = true ∨ s.die.tmp.lockdown = true → t.die.get .TMP_STATUS_OUT ≠ 0) ∧
      (s.die.outCondition = false → s.die.tmp.outLog = false → s.die.tmp.lockdown = false → t.die.get .TMP_STATUS_OUT = 0)) ∧
    (Does .blogAck s fun t => t.die.get .TMP_BACKUP_STATUS_NEW = 0 ∧ t.die.get .TMP_BACKUP_STATUS_BACKUP_ALARM = 0 ∧ t.die.get .TMP_BACKUP_STATUS_BBK_ZEROIZED = 0 ∧
      t.die.tmp.outLog = false ∧ Frame [.que, .out, .tmp] [.TMP_BACKUP_STATUS_NEW, .TMP_BACKUP_STATUS_BACKUP_ALARM, .TMP_BACKUP_STATUS_BBK_ZEROIZED, .TMP_STATUS_OUT] s t) ∧
    (s.die.get .RNG_STATUS_STATE = 1 → 16 ≤ s.die.rng.drbgBytes → Does .meshReseed s fun t => t.die.tmp.meshSeed = s.die.rng.draws + 1 ∧
      t.die.rng.draws = s.die.rng.draws + 16 ∧ Frame [.tmp, .rng] [] s t) ∧
    (Does .backupTakeover s fun t => t.die.tmp.backup.active = true ∧ t.die.tmp.backup.enables = s.die.tmp.backup.enables ∧ t.die.clk.phase = .stopped ∧
      t.die.key.bbk = s.die.key.bbk ∧ t.die.key.drk = none ∧ t.die.key.nk = none ∧ t.die.key.esk = none ∧ t.die.que.reqs = []) ∧
    (∀ source kind : Nat,
      let b := s.die.tmp.backup
      (b.active = true → 0 < source → source ≤ 7 → bit b.enables (source - 1) = true → kind ≠ 0 → b.resample = none → Does (.backupSample source kind) s fun t =>
        t.die.tmp.backup = { b with resample := some (source, kind) } ∧ Frame [.tmp] [] s t) ∧
      (b.resample = some (source, kind) →
        (Does (.backupResample false) s fun t => t.die.tmp.backup.resample = none ∧ Frame [.tmp] [] s t) ∧
        (Does (.backupResample true) s fun t => t.die.tmp.backup.resample = none ∧ t.die.key.bbk = none ∧ t.die.get .TMP_BACKUP_STATUS_BBK_ZEROIZED = 1 ∧
          t.die.get .TMP_BACKUP_STATUS_BACKUP_ALARM = 1 ∧ t.die.get .TMP_BACKUP_STATUS_NEXT = (s.die.get .TMP_BACKUP_STATUS_NEXT + 1) % 32 ∧
          Frame [.tmp, .key] [.KEY_ROOT_STATUS_BBK_VALID, .TMP_BACKUP_STATUS_BBK_ZEROIZED, .TMP_BACKUP_STATUS_BACKUP_ALARM, .TMP_BLOG_WORD,
            .TMP_BACKUP_STATUS_NEXT, .TMP_BACKUP_STATUS_NEW] s t))) ∧
    (∀ value : Nat,
      (s.die.get .TMP_BACKUP_STATUS_RUNNING = 0 → Does (.backupTimeSet value) s fun t => t.die.get .TMP_BACKUP_STATUS_RUNNING = 1 ∧
        t.die.get .TMP_BACKUP_TIME_SECONDS = value / 65536 % 2 ^ 48 ∧ t.die.get .TMP_BACKUP_TIME_FRACTION = value % 65536 ∧
        Frame [.que] [.TMP_BACKUP_STATUS_RUNNING, .TMP_BACKUP_TIME_SECONDS, .TMP_BACKUP_TIME_FRACTION] s t) ∧
      (s.die.get .TMP_BACKUP_STATUS_RUNNING ≠ 0 → Answers (.backupTimeSet value) s fun _ d => d.access 0)) ∧
    (∀ source window : Nat, 0 < source → source ≤ 0x14 → 0 < window → window ≤ 100 → s.die.tmp.bist = none → s.die.get .TMP_STATUS_HALTED = 0 → s.die.tmp.lockdown = false →
      Does (.bistStart source window) s fun t => t.die.tmp = { s.die.tmp with bist := some { source, kind := stimulusKind source, detected := false } } ∧
        t.die.get .TMP_BIST_CTL_SOURCE = source ∧ t.die.get .TMP_BIST_CTL_WINDOW_US = window ∧ Frame [.que, .tmp] [.TMP_BIST_CTL_SOURCE, .TMP_BIST_CTL_WINDOW_US] s t) ∧
    (∀ (b : Bist) (kind : Nat), s.die.tmp.bist = some b → b.source < 32 →
      (lands (.bistWindowEnd false kind) fun d => d.tmp.bist = none ∧ d.get .TMP_BIST_STATUS_LAST_SOURCE = b.source ∧
        d.get .TMP_BIST_STATUS_RESULT = (if b.detected then 1 else 2) ∧
        (b.detected = true → d.get .TMP_BIST_STATUS_PASSES = (s.die.get .TMP_BIST_STATUS_PASSES + 1) % 2 ^ 16)) ∧
      (b.detected = true → s.die.tmp.lockdown = false → 0 < b.source → b.source ≤ 0x14 →
        (b.source ≠ 0x0B → b.source ≠ 0x0D → s.die.cond b.source = false → s.die.getAt .TMP_MAP_ENABLED b.source ≠ 0 →
          lands (.bistWindowEnd true kind) fun d => d.get .TMP_BIST_STATUS_RESULT = 3 ∧ d.cond b.source = true ∧
            bit (d.get .TMP_ALARM_SOURCES) (b.source - 1) = true) ∧
        (b.source = 0x0B ∨ b.source = 0x0D → lands (.bistWindowEnd true kind) fun d => d.cond b.source = true ∧ d.clk.supplyHold = true)))

/-! ## Clocks, power and resets (spec/15) -/

/-- R391, R392, R394, R395, R396, R397: a good FRO count makes the clocks stable; the third bad one stops the die; an arming check with 180 to
360 edges and a lock switches to the PLL, a failed one is counted, and after the third waits; a trip of the monitor goes over to the FRO and
presents CLOCK_FAIL; a failed FRO is shown while the PLL runs, and with both gone the die stops. -/
def Obligations.Clocks : Prop :=
  ∀ (s : State), Settled s →
    let lands (i : Instr) (P : Die → Prop) : Prop := ∃ d : Die, exec i s = .next (s.finish d) ∧ P d
    let armed (t : State) : Prop := t.die.clk.phase = .armed ∧ t.die.get .CLK_STATUS_ARMED = 1 ∧ t.die.get .CLK_STATUS_PLL_LOCK = 1 ∧
      t.die.get .CLK_STATUS_SOURCE = 0 ∧ t.die.get .CLK_STATUS_SETTLE_TRIES = 0 ∧ t.die.get .CLK_STATUS_REFCLK_ABSENT = 0
    (∀ count : Nat, s.die.clk.phase = .froCheck → s.die.tmp.lockdown = false → s.die.tmp.backup.vbatGood = true → Does (.froCheckDone count) s fun t =>
      t.die.get .CLK_FRO_KHZ_KHZ = count * 64 / 125 % 2 ^ 18 ∧
        (312500 ≤ count ∧ count ≤ 468750 → t.die.clk.phase = .settle ∧ t.die.clk.stable = true ∧ t.die.get .TMP_STATUS_MAP_SOURCE = 0) ∧
        (count < 312500 ∨ 468750 < count → t.die.clk.froTries = s.die.clk.froTries + 1 ∧
          (s.die.clk.froTries < 2 → t.die.clk.phase = .froCheck ∧ t.die.tmp = s.die.tmp) ∧
          (2 ≤ s.die.clk.froTries → t.die.clk.phase = .stopped ∧ t.die.tmp.backup.nofro = true) ∧ Frame [.clk, .tmp] [.CLK_FRO_KHZ_KHZ] s t)) ∧
    (∀ count : Nat, s.die.clk.phase = .froCheck → s.die.tmp.lockdown = false → s.die.tmp.backup.vbatGood = false → s.die.get .CLK_STATUS_FRO_REF ≠ 0 →
      3200 ≤ count → count ≤ 4800 → Does (.froCheckDone count) s fun t => armed t ∧ t.die.clk.stable = true) ∧
    (∀ (refclk : Nat) (lock : Bool), s.die.clk.phase = .settle →
      (180 ≤ refclk → refclk ≤ 360 → lock = true → Does (.settleEnd refclk lock) s fun t => armed t ∧
        Frame [.clk] [.CLK_STATUS_ARMED, .CLK_STATUS_PLL_LOCK, .CLK_STATUS_SOURCE, .CLK_STATUS_SETTLE_TRIES, .CLK_STATUS_REFCLK_ABSENT] s t) ∧
      (refclk < 180 ∨ 360 < refclk ∨ lock = false → Does (.settleEnd refclk lock) s fun t =>
        t.die.get .CLK_STATUS_SETTLE_TRIES = min 3 (s.die.get .CLK_STATUS_SETTLE_TRIES + 1) ∧
          (s.die.get .CLK_STATUS_SETTLE_TRIES < 2 → t.die.clk.phase = .settle) ∧
          (2 ≤ s.die.get .CLK_STATUS_SETTLE_TRIES → t.die.clk.phase = .retryWait ∧ t.die.get .CLK_STATUS_REFCLK_ABSENT ≠ 0) ∧
          Frame [.que, .out, .clk, .evr] ([.CLK_STATUS_SETTLE_TRIES, .CLK_STATUS_REFCLK_ABSENT, .CLK_EVENT_REFCLK_RETRY] ++ lossFlds) s t)) ∧
    (s.die.clk.phase = .retryWait → Does .refclkRetryTimer s fun t => t.die.clk.phase = .settle ∧ Frame [.clk] [] s t) ∧
    (s.die.clk.phase = .armed → s.die.clk.froDead = false → lands .clockFailover fun d => d.clk.phase = .failedOver ∧ d.get .CLK_STATUS_SOURCE = 1 ∧
      d.get .CLK_EVENT_FAILOVER = 1 ∧ d.get .CLK_FAIL_COUNT_COUNT = satAdd 32 (s.die.get .CLK_FAIL_COUNT_COUNT) 1 % 2 ^ 32 ∧
      (s.die.tmp.bist = none → s.die.tmp.lockdown = false → s.die.cond 0x11 = false → s.die.getAt .TMP_MAP_ENABLED 0x11 ≠ 0 →
        d.cond 0x11 = true ∧ bit (d.get .TMP_ALARM_SOURCES) 0x10 = true)) ∧
    (s.die.clk.phase = .armed → Does .froFail s fun t => t.die.clk = { s.die.clk with froDead := true } ∧ t.die.get .CLK_STATUS_FRO_FAIL = 1 ∧
      t.die.get .CLK_EVENT_FRO_FAIL = 1 ∧ Frame [.que, .out, .clk, .evr] ([.CLK_STATUS_FRO_FAIL, .CLK_EVENT_FRO_FAIL] ++ lossFlds) s t) ∧
    (∀ c : Instr, (c = .froFail ∧ s.die.clk.phase = .failedOver) ∨ (c = .clockFailover ∧ s.die.clk.phase = .armed ∧ s.die.clk.froDead = true) →
      Does c s fun t => t.die.clk.phase = .stopped ∧ t.die.que.reqs = [] ∧ t.die.key.drk = none ∧ t.die.key.esk = none ∧ t.die.key.bbk = s.die.key.bbk)

/-- R35, R353, R402, R403, R405, R407: PARK stops dispatch, and defers for each held block; the blocks power off when their work has paused and
nothing is deferred; PARK = 0 withdraws what was deferred, and dispatch restarts once the blocks are ready; an idle block is gated; a point and
a cap are taken on the lead die alone, which tells the others; each millisecond of estimates shows the power, adds the energy, and lowers no
rate while the estimate is within the cap, nor raises one above it. -/
def Obligations.Power : Prop :=
  ∀ (s : State), Settled s →
    let lands (i : Instr) (P : Die → Prop) : Prop := ∃ d : Die, exec i s = .next (s.finish d) ∧ P d
    (s.die.clk.phase = .armed → s.die.get .PWR_CTL_PARK = 0 → Does .parkEnter s fun t => t.die.get .PWR_CTL_PARK = 1 ∧ t.die.get .PWR_STATUS_STATE = 2 ∧
      t.die.dispatches = false ∧ (∀ b : Nat, b < 6 → bit (s.die.get .WLD_HOLD_BLOCKS) b = true → (b, true) ∈ t.die.wld.deferred ∧
        bit (t.die.get .WLD_GATE_PENDING_BLOCKS) b = true) ∧
      Frame [.que, .out, .wld, .evr] ([.PWR_CTL_PARK, .PWR_STATUS_STATE, .PWR_STATUS_DEFERRED, .WLD_GATE_PENDING_BLOCKS, .WLD_EVENT_GATE_DEFERRED] ++ lossFlds) s t) ∧
    (s.die.clk.phase ≠ .armed ∨ s.die.get .PWR_CTL_PARK ≠ 0 → Answers .parkEnter s fun _ d => d.access 0) ∧
    (s.die.get .PWR_STATUS_STATE = 2 →
      (s.die.working = false → s.die.wld.deferred = [] → Does .parkComplete s fun t => t.die.get .PWR_STATUS_STATE = 3 ∧ Frame [] [.PWR_STATUS_STATE] s t) ∧
      (s.die.working = true ∨ s.die.wld.deferred ≠ [] → Answers .parkComplete s fun _ d => d)) ∧
    (s.die.get .PWR_CTL_PARK ≠ 0 → Does .parkExit s fun t => t.die.get .PWR_CTL_PARK = 0 ∧ t.die.get .PWR_STATUS_STATE = 4 ∧ t.die.wld.deferred = [] ∧
      t.die.get .WLD_GATE_PENDING_BLOCKS = 0 ∧ t.die.get .PWR_STATUS_DEFERRED = 0 ∧
      Frame [.que, .wld] [.PWR_CTL_PARK, .PWR_STATUS_STATE, .PWR_STATUS_DEFERRED, .WLD_GATE_PENDING_BLOCKS] s t) ∧
    (s.die.get .PWR_STATUS_STATE = 4 → lands .unparkComplete fun d => d.get .PWR_STATUS_STATE = 0 ∧
      d.dispatches = (!s.die.has .TMP_STATUS_HALTED && !s.die.tmp.lockdown)) ∧
    (s.die.get .PWR_STATUS_STATE ≠ 4 → Answers .unparkComplete s fun _ d => d) ∧
    (∀ block : Nat, Does (.blockIdleGate block) s fun t => Frame [.clk, .wld] [] s t ∧ (∀ b ∈ t.die.clk.idle, s.die.blockBusy b = false) ∧
      (s.die.get .PWR_CTL_IDLE_EN ≠ 0 → block ≤ 10 → s.die.blockBusy block = false → block ∈ t.die.clk.idle) ∧
      (s.die.get .PWR_CTL_IDLE_EN ≠ 0 → 16 ≤ block → block < 20 → block - 16 ∈ t.die.wld.gated)) ∧
    (∀ point cap : Nat,
      let taken (t : State) : Prop := t.die.get .PWR_OPPOINT_POINT = point % 4 ∧ t.die.get .PWR_OPPOINT_CAP = clamp 80 180 (cap % 256) ∧
        t.die.get .PWR_OPPOINT_SOURCE = 1 ∧ t.die.get .PWR_STATUS_POINT = s.die.get .PWR_STATUS_POINT ∧ t.die.clk.capInForce = s.die.clk.capInForce
      let flds : List Fld := [.PWR_OPPOINT_POINT, .PWR_OPPOINT_CAP, .PWR_OPPOINT_SOURCE]
      (s.die.isLead = true → Does (.oppointWrite point cap false) s (fun t => taken t ∧
          Frame [.que, .out, .ens, .evr] (flds ++ [.PMC_TEN_CNT_COUNT]) s t) ∧ Answers (.oppointWrite point cap true) s fun _ d => d) ∧
      (s.die.isLead = false → Does (.oppointWrite point cap true) s (fun t => taken t ∧ Frame [] flds s t) ∧
        Answers (.oppointWrite point cap false) s fun _ d => d.access 0)) ∧
    (∀ busy : List Nat,
      (s.die.clk.powerCount < 999 → Does (.governorTick busy) s fun t => t.die.clk.powerCount = s.die.clk.powerCount + 1 ∧
        s.die.clk.powerSum ≤ t.die.clk.powerSum ∧ t.die.clk.rates = s.die.clk.rates ∧ Frame [.clk] [] s t) ∧
      (999 ≤ s.die.clk.powerCount → Does (.governorTick busy) s fun t => t.die.clk.powerCount = 0 ∧ t.die.clk.powerSum = 0 ∧
        (∃ sum : Nat, s.die.clk.powerSum ≤ sum ∧ t.die.get .PWR_POWER_ESTIMATE = min 65535 (sum / 100000) ∧
          t.die.get .PWR_ENERGY_MICROJOULES = (s.die.get .PWR_ENERGY_MICROJOULES + sum / 1000) % 2 ^ 64 ∧
          ∀ b : Nat, b < 3 →
            let old := s.die.clk.rates.getD b 256
            let new := t.die.clk.rates.getD b 256
            (s.die.effectiveCap < sum / 100000 → 1 ≤ old → new ≤ old ∧ 1 ≤ new) ∧
              (sum / 100000 ≤ s.die.effectiveCap → old ≤ 256 → old ≤ new ∧ new ≤ 256)) ∧
        Frame [.clk] [.PWR_POWER_ESTIMATE, .PWR_ENERGY_MICROJOULES] s t))

/-- R404, R408, R409, R410, R411, R412, R414, R44: a confirmed command resets the die for the cause it names and stops all its work without a
reply, while NVM, the DRK and the backup domain stay; a write without the confirmation does nothing; a cold reset counts a power cycle and
keeps the OTP, NVM and the backup domain; a backup reset loses BBK and not NK; the boot ends with the physical function ready. -/
def Obligations.Resets : Prop :=
  ∀ (s : State), Settled s →
    let kept (t : State) : Prop := t.die.key.drk = s.die.key.drk ∧ t.die.key.nk = s.die.key.nk ∧ t.die.key.bbk = s.die.key.bbk ∧ t.die.key.bank = s.die.key.bank ∧
      t.die.tin.base = s.die.tin.base ∧ t.die.tin.deltas = s.die.tin.deltas ∧ t.die.tmp.backup.seq = s.die.tmp.backup.seq ∧ t.otp = s.otp
    let reset (t : State) (class_ : Nat) (cause : Fld) : Prop := t.die.get cause = 1 ∧ t.die.clk.booted = false ∧ t.die.clk.resetClass = class_ ∧
      t.die.que.reqs = [] ∧ t.die.kft.sessions = [] ∧ t.die.con.jobs = [] ∧ t.die.ntt.jobs = [] ∧ t.die.key.esk = none ∧ t.die.lcs.auth = false ∧ t.mem = s.mem ∧ kept t
    let runs (class_ : Nat) : Prop := s.die.clk.resetClass < class_ ∧ s.die.tmp.lockdown = false ∧ s.die.clk.phase ≠ .stopped
    let warm : Nat := if s.die.size = 1 then 3 else 2
    (∀ confirm : Nat, (confirm % 256 = 0xC3 → runs 2 → Does (.warmResetCmd confirm) s fun t => reset t warm .RST_CAUSE_MANAGER ∧
        t.die.get .RST_COUNT_WARM = satAdd 16 (s.die.get .RST_COUNT_WARM) 1 % 2 ^ 16) ∧
      (confirm % 256 = 0xC3 → s.die.isLead = true → runs 3 → Does (.ensembleResetCmd confirm) s fun t => reset t 3 .RST_CAUSE_ENSEMBLE) ∧
      (confirm % 256 ≠ 0xC3 → Answers (.warmResetCmd confirm) s (fun _ d => d.access 0) ∧ Answers (.ensembleResetCmd confirm) s (fun _ d => d.access 0) ∧
        Answers (.powerCycleCmd confirm) s fun _ d => d.access 0) ∧
      (s.die.isLead = false → Answers (.ensembleResetCmd confirm) s fun _ d => d.access 0) ∧
      (confirm % 256 = 0xC3 → s.die.isLead = true → s.die.get .RST_PWR_REQ_ASSERTED = 0 → Does (.powerCycleCmd confirm) s fun t =>
        t.die.get .RST_PWR_REQ_ASSERTED = 1 ∧ .pin .pwrReqN false ∈ t.die.out ∧ Frame [.que, .out, .evr] (.RST_PWR_REQ_ASSERTED :: lossFlds) s t) ∧
      (confirm % 256 = 0xC3 → s.die.isLead = false → Does (.powerCycleCmd confirm) s fun t => Frame [.que, .out, .evr] lossFlds s t)) ∧
    (runs 3 → Does .ensembleResetReceived s fun t => reset t 3 .RST_CAUSE_ENSEMBLE) ∧
    (s.die.tmp.lockdown = true ∨ 3 ≤ s.die.clk.resetClass ∨ s.die.clk.phase = .stopped → Answers .ensembleResetReceived s fun _ d => d) ∧
    (s.die.get .RST_PWR_REQ_ASSERTED ≠ 0 → Does .pwrReqTimeout s fun t => t.die.get .RST_PWR_REQ_ASSERTED = 0 ∧ t.die.get .RST_PWR_REQ_TIMEOUT = 1 ∧
      t.die.out = .pin .pwrReqN true :: s.die.out ∧ Frame [.out] [.RST_PWR_REQ_ASSERTED, .RST_PWR_REQ_TIMEOUT] s t) ∧
    (∀ porst : Bool, Does (.coldReset porst) s fun t => t.die.get (if porst then .RST_CAUSE_PORST else .RST_CAUSE_POWER_ON) = 1 ∧
      t.die.clk = ClkState.reset ∧ t.die.nowMs = 0 ∧ t.die.que.reqs = [] ∧ t.die.key.drk = none ∧ t.die.key.nk = none ∧ t.die.key.esk = none ∧ t.die.key.objs = [] ∧
      t.die.key.bbk = s.die.key.bbk ∧ t.die.key.bank = s.die.key.bank ∧ t.die.tin.base = s.die.tin.base ∧ t.die.evr.ring = s.die.evr.ring ∧
      t.die.tmp.backup.active = false ∧ t.die.tmp.lockdown = false ∧ t.otp = s.otp ∧ t.mem = s.mem ∧
      t.die.get .EVR_POWER_CYCLES_VALUE = satAdd 32 (s.die.get .EVR_POWER_CYCLES_VALUE) 1 % 2 ^ 32 ∧ t.die.get .EVR_SEQ_VALUE = s.die.get .EVR_SEQ_VALUE) ∧
    (Does .backupReset s fun t => t.die.key.bbk = none ∧ t.die.key.nk = s.die.key.nk ∧ t.die.get .RST_CAUSE_BACKUP_LOST = 1 ∧ t.die.tmp.backup.seq = 0 ∧
      t.die.get .TMP_BACKUP_STATUS_RUNNING = 0 ∧ ∀ i j : Nat, i < 32 → j < 2 → t.die.getAt2 .TMP_BLOG_WORD i j = 0) ∧
    (s.die.key.bbk = none → s.die.key.nk.isSome = true → s.die.clk.booted = true → 32 ≤ s.die.rng.feBytes → Does .bbkRewrap s fun t =>
      t.die.key.bbk.isSome = true ∧ t.die.key.nk.isSome = s.die.key.drk.isSome ∧ t.die.get .KEY_ROOT_STATUS_BBK_VALID = 1) ∧
    (s.die.mayBoot = false → Answers .bootRom s fun _ d => d) ∧
    (s.die.mayBoot = true → Does .bootRom s fun t => t.pending = s.pending ∧ t.mem = s.mem ∧
      (t.die.get .KEY_ROOT_STATUS_PUF_FAIL = 0 ∨ s.die.clk.resetClass ≠ 4 → t.die.clk.booted = true ∧ t.die.clk.resetClass = 0 ∧ t.die.key.measLocked = true ∧
        t.die.getAt .TEN_STATE_STATE 0 = 2 ∧ t.die.getAt .QUE_PAGE_STATUS_READY 0 = 1 ∧ t.die.lcs.pending = [] ∧ t.die.que.crs = false ∧
        t.die.get .LCS_STATE_STATE = (lcsOf t.otp.voted).1))

/-! ## The event recorder and the central reader (spec/17) -/

/-- R434, R437, R438, R443, R444, R445, R447: a write takes the next staged entry to the slot that NEXT names, under the next SEQ and with VALID
last; after its first or second step the slot holds no record and the entry is still staged, and a reset then leaves the slot torn; no write
begins during a brown-out warning, and one that has begun ends; a freeze lasts until it is cleared or times out after 1,000 ms, and no
general entry is written meanwhile; a window of the reader writes its sample, or drops it when the ring is full, and takes WINDOW_US over
for the next one. -/
def Obligations.Recorder : Prop :=
  ∀ (s : State), Settled s →
    let slot := s.die.get .EVR_STATUS_NEXT
    let cur : Option (Staged × Nat) := match s.die.evr.writing with
      | some w => some w
      | none => if s.die.get .TMP_STATUS_BROWNOUT = 0 then s.die.nextStaged.map fun x => (x, 0) else none
    (∀ (x : Staged) (done : Nat), cur = some (x, done) →
      (Does (.recordWrite 0) s fun t =>
        let seq := (s.die.get .EVR_SEQ_VALUE + 1) % 2 ^ 32
        t.die.get .EVR_SEQ_VALUE = seq ∧ t.die.get .EVR_STATUS_NEXT = (slot + 1) % 1024 ∧ t.die.evr.torn = none ∧ t.die.evr.writing = none ∧
          tget t.die.evr.ring slot = slice x.record 0 4 ++ leBytes 4 seq ++ slice x.record 8 244 ++ leBytes 4 0x56524543 ∧
          (∀ k : Nat, k ≠ slot → tget t.die.evr.ring k = tget s.die.evr.ring k) ∧
          t.die.evr.staging = (s.die.evr.staging.filter fun y => y.place != x.place) ∧ t.die.evr.supp = s.die.evr.supp ∧
          Frame [.que, .out, .evr] [.EVR_SEQ_VALUE, .EVR_STATUS_NEXT, .EVR_EVENT_RECORD] s t) ∧
      (∀ cut : Nat, cut ≠ 0 → done < min cut 2 → Does (.recordWrite cut) s fun t => t.die.evr.writing = some (x, min cut 2) ∧
        t.die.evr.staging = s.die.evr.staging ∧ (∃ b : Bytes, tget t.die.evr.ring slot = b ++ zeros 4) ∧
        (∀ k : Nat, k ≠ slot → tget t.die.evr.ring k = tget s.die.evr.ring k) ∧ Frame [.evr] [] s t)) ∧
    (∀ cut : Nat, cur = none → Answers (.recordWrite cut) s fun _ d => d) ∧
    (s.die.evr.writing ≠ none → ∀ porst : Bool, Does (.coldReset porst) s fun t => t.die.evr.torn = some slot ∧ t.die.evr.writing = none ∧
      t.die.get .EVR_STATUS_NEXT = slot ∧ t.die.evr.ring = s.die.evr.ring) ∧
    (∀ x : Staged, s.die.nextStaged = some x → x ∈ s.die.evr.staging ∧
      ((∃ y ∈ s.die.evr.staging, isClassP y.trigger = true) → isClassP x.trigger = true) ∧
      (s.die.evr.frozen = true → isClassP x.trigger = true)) ∧
    (Does .freezeSet s fun t => t.die.evr.frozen = true ∧ (s.die.evr.frozen = false → t.die.evr.freezeMs = s.die.nowMs) ∧ t.die.get .EVR_CTL_FREEZE = 1 ∧ t.die.evr.staging = s.die.evr.staging ∧
      Frame [.que, .evr] [.EVR_CTL_FREEZE] s t) ∧
    (Does .freezeClear s fun t => t.die.evr.frozen = false ∧ t.die.get .EVR_CTL_FREEZE = 0 ∧ t.die.evr.staging = s.die.evr.staging ∧
      Frame [.que, .evr] [.EVR_CTL_FREEZE] s t) ∧
    (s.die.evr.frozen = true → s.die.evr.freezeMs + 1000 ≤ s.die.nowMs → Does .freezeTimeout s fun t => t.die.evr.frozen = false ∧ t.die.get .EVR_CTL_FREEZE = 0 ∧
      t.die.get .EVR_EVENT_FREEZE_TIMEOUT = 1 ∧ Frame [.que, .out, .evr] ([.EVR_CTL_FREEZE, .EVR_EVENT_FREEZE_TIMEOUT] ++ lossFlds) s t) ∧
    (s.die.evr.frozen = false ∨ s.die.nowMs < s.die.evr.freezeMs + 1000 → Answers .freezeTimeout s fun _ d => d) ∧
    (∀ (tick : Nat) (level : List Nat),
      (s.die.get .PMC_CTL_ENABLE = 0 ∨ s.die.clk.booted = false → Answers (.pmcWindow tick level) s fun _ d => d) ∧
      (s.die.get .PMC_CTL_ENABLE ≠ 0 → s.die.clk.booted = true →
        let size := 2 ^ clamp 6 16 (s.die.get .PMC_RING_CTL_SIZE_LOG2)
        let tail := s.die.get .PMC_RING_TAIL_INDEX
        let a := s.die.get .PMC_RING_BASE_ADDR / 4096 * 4096 + tail % size * 512
        let closes (t : State) : Prop := t.die.evr.windowSeq = s.die.evr.windowSeq + 1 ∧
          t.die.evr.windowUs = clamp 1 1000000 (s.die.get .PMC_CTL_WINDOW_US) ∧ t.die.evr.nextSel = none ∧ t.die.evr.ports.length ≤ 1
        (size ≤ idxSub tail (s.die.get .PMC_RING_HEAD_INDEX) → Does (.pmcWindow tick level) s fun t => closes t ∧
          t.die.evr.droppedNow = s.die.evr.droppedNow + 1 ∧ t.die.get .PMC_STATUS_DROPPED = satAdd 32 (s.die.get .PMC_STATUS_DROPPED) 1 % 2 ^ 32 ∧
          t.die.get .PMC_EVENT_OVERRUN = 1 ∧ t.mem = s.mem ∧
          Frame [.que, .out, .evr] ([.PMC_STATUS_DROPPED, .PMC_EVENT_OVERRUN, .PMC_SEL_SELECTION] ++ lossFlds) s t) ∧
        (idxSub tail (s.die.get .PMC_RING_HEAD_INDEX) < size → s.die.dmaOk (s.die.tenantOf 0) a 512 true = true →
          Does (.pmcWindow tick level) s fun t => closes t ∧ t.die.evr.droppedNow = 0 ∧ t.die.get .PMC_RING_TAIL_INDEX = (tail + 1) % 2 ^ 32 ∧
            memReads t.mem a 512 = Die.sample { s.die with evr := { s.die.evr with windowSeq := s.die.evr.windowSeq + 1 } } tick level
              (tail / size % 2 == 0) ∧
            (∀ k : Nat, k < a ∨ a + 512 ≤ k → memRead t.mem k = memRead s.mem k) ∧
            Frame [.mem, .que, .out, .evr] [.PMC_RING_TAIL_INDEX, .PMC_SEL_SELECTION] s t)))

/-- R431: class P is the codes 0x0A01 to 0x0A17, 0x0A20 and group 0x0C; such a trigger is always enabled; its report stages an entry of
its own whenever a place is free, also one of the reserved places 28 to 31, and never adds to what is coalesced; every other trigger is
general, and its report takes no reserved place. -/
def Obligations.ClassRecords : Prop :=
  (∀ x : Nat, isClassP x = true ↔ (0x0A01 ≤ x ∧ x ≤ 0x0A17) ∨ x = 0x0A20 ∨ (0x0C00 ≤ x ∧ x ≤ 0x0CFF)) ∧
    ∀ (e : Env) (d : Die) (r : Report),
      let t := d.report e r
      let taken (p : Nat) : Prop := ∃ y ∈ d.evr.staging, y.place = p
      (isClassP r.trigger = true → d.triggerEnabled r.trigger = true ∧
        ((∃ p : Nat, p < 32 ∧ ¬ taken p) → ∃ y : Staged, y.trigger = r.trigger ∧ y.place < 32 ∧ ¬ taken y.place ∧
          t.evr.staging = d.evr.staging ++ [y] ∧ tget t.evr.supp r.trigger = 0) ∧
        ((∀ p : Nat, p < 32 → taken p) → t.evr.staging = d.evr.staging ∧ t.evr.supp = d.evr.supp)) ∧
      (isClassP r.trigger = false → t.evr.staging = d.evr.staging ∨
        ∃ y : Staged, y.trigger = r.trigger ∧ y.place < 28 ∧ ¬ taken y.place ∧ t.evr.staging = d.evr.staging ++ [y])

/-! ## Register writes, steps, reset, and what every step keeps -/

/-- R11, R43, R47, R353, R399, R451, R457: a write sets each bit of an RW field to the bit written, clears a W1C bit and sets a W1S bit where a 1 is written,
and leaves the bits it does not cover; no write changes an RO or WO field, and none of the host an SO field, apart from the
ring indices that starting a ring clears and what follows from the release of a held block; an access that is not 4 or 8 aligned bytes, or
through a BAR that is disabled, writes nothing; a 4-byte write of the physical function sets every RW field of its word whose rule does not
have the write ignored; host memory and the work of the blocks stay as they are. -/
def Obligations.RegisterWrites : Prop :=
  let follows : List Fld := [.PMC_RING_TAIL_INDEX, .PMC_RING_HEAD_INDEX, .ENS_ENV_OUT_TAIL_INDEX, .ENS_ENV_OUT_HEAD_INDEX,
    .WLD_GATE_PENDING_BLOCKS, .PWR_STATUS_DEFERRED, .PMC_TEN_CNT_COUNT]
  (∀ (d : Die) (w : Writer) (f : Fld) (i j v m : Nat), m ≠ 0 → f.info.own = false → d.writeIgnored f i j v = false →
    ∀ k : Nat, k < f.width →
      let old := bit (d.getAt2 f i j) k
      let new := bit ((d.writeField w f i j v m).getAt2 f i j) k
      (f.info.acc = .rw → new = if bit m k then bit v k else old) ∧
        (f.info.acc = .w1c → new = (old && !(bit m k && bit v k))) ∧
        (f.info.acc = .w1s → new = (old || (bit m k && bit v k)))) ∧
    ∀ (s : State) (w : Writer) (off size v : Nat), Settled s →
      (Does (.registerWrite w off size v) s fun t => t.mem = s.mem ∧
        (∀ k : Block, k ∉ [.que, .out, .ens, .wld, .clk, .evr] → k.Same s.die t.die) ∧ t.die.que.reqs = s.die.que.reqs ∧
        t.die.evr.staging = s.die.evr.staging ∧ t.die.evr.ring = s.die.evr.ring ∧
        ∀ (f : Fld) (i j : Nat), f ∉ follows → f.info.acc = .ro ∨ f.info.acc = .wo ∨ f.info.own = true ∨ (f.info.acc = .so ∧ w ≠ .secure) →
          t.die.getAt2 f i j = s.die.getAt2 f i j) ∧
      (s.die.reached w = false → Answers (.registerWrite w off size v) s fun _ d => d) ∧
      (s.die.reached w = true → ¬ (size = 4 ∧ off % 4 = 0) → ¬ (size = 8 ∧ off % 8 = 0) → Answers (.registerWrite w off size v) s fun _ d =>
        match w with
        | .host fn => d.access fn
        | .secure => d) ∧
      (∀ (f : Fld) (i j : Nat), s.die.canSend = true → off % 4 = 0 → off < 0x1000000 → f.locate false 0 off = some (i, j, false) →
        f.info.lo + f.width ≤ 32 → f.info.acc = .rw → f.info.own = false → f ∉ follows → (∀ (d : Die) (x : Nat), d.writeIgnored f i j x = false) →
        Does (.registerWrite (.host 0) off 4 v) s fun t => t.die.getAt2 f i j = v % 2 ^ 32 / 2 ^ f.info.lo % 2 ^ f.width)

/-- R9, R13: the step of a state with command c at the front of its queue is the effect of c on that state with the queue's rest. -/
def Obligations.StepRunsFront : Prop :=
  ∀ (c : Instr) (s : State), step { s with pending := c :: s.pending } = exec c s

/-- R10, R391, R411, R414: right after power is applied no command waits, no request, session, job or handshake exists and host memory is as the
model's choice of log entry 3 has it; RST_CAUSE shows POWER_ON alone; a field whose table gives a reset value reads it, as in the
registers named here; the FRO start check runs, every core is in the secure world, and no tenant is ready. -/
def Obligations.ResetState : Prop :=
  State.reset.pending = [] ∧ Canonical State.reset ∧ State.reset.mem = [] ∧
    (let d := State.reset.die
     d.que.reqs = [] ∧ d.kft.sessions = [] ∧ d.con.jobs = [] ∧ d.ntt.jobs = [] ∧ d.ntt.ctxs = [] ∧ d.out = [] ∧
      d.get .RST_CAUSE_POWER_ON = 1 ∧ d.get .RST_CAUSE_PORST = 0 ∧ d.get .RST_CAUSE_BACKUP_LOST = 0 ∧ d.get .RST_CAUSE_TAMPER = 0 ∧
      d.clk.phase = .froCheck ∧ d.clk.booted = false ∧ (∀ c ∈ d.wld.cores, c.world = .secure) ∧ d.wld.cores.length = 4 ∧
      (∀ (f : Fld) (i j : Nat), f.info.src = .value → f ≠ .RST_CAUSE_POWER_ON → d.getAt2 f i j = f.info.rst) ∧
      d.get .HLK_CTL_MAX_RATE = 3 ∧ d.getAt2 .QUE_PAIR_CTL_SIZE_LOG2 255 15 = 6 ∧ d.getAt2 .QUE_PAIR_STATUS_STATE 255 15 = 0 ∧
      d.getAt .REC_TEN_CFG0_REKEY_FRAC 7 = 2 ∧ d.get .REC_STATUS_LANES_IN_SERVICE = 255 ∧ d.get .CON_CORES_IN_SERVICE_CORES = 0xFFFFFF ∧
      d.get .NTT_CORES_IN_SERVICE = 15 ∧ d.get .NTT_HS_CTL_RETAIN_H = 24 ∧ d.get .RNG_HEALTH_CFG_APT_CUTOFF = 0x319 ∧
      d.get .RNG_HEALTH_CFG_RCT_CUTOFF = 0x29 ∧ d.get .WLD_HOLD_BLOCKS = 0x4C0 ∧ d.get .WLD_WDOG_CTL_PERIOD_MS = 100 ∧
      d.get .CLK_STATUS_SOURCE = 1 ∧ d.get .PMC_RING_CTL_SIZE_LOG2 = 6 ∧ d.getAt .TEN_STATE_STATE 0 = 0)

/-- R42, R57: from every state with memory in its canonical form and nothing posted, a step answers a next state, for every command and with
no command waiting; the rest of the queue is as it was, memory is in its canonical form again, and every write the step posted
has reached it. -/
def Obligations.MemoryCanonicalKept : Prop :=
  ∀ s : State, Canonical s → ∃ t : State, step s = .next t ∧ Canonical t ∧ t.pending = s.pending.tail

/-- R416, R417, R421: whatever a step does, each copy of the codeword keeps every bit that was set, the journal loses no entry, DIE_SERIAL and
CLK_SETTLE stay as they are; and a die whose voted codeword has a bit of its SCRAP field set decodes to Scrap after the step too. -/
def Obligations.OtpOnlyGains : Prop :=
  ∀ s t : State, step s = .next t → OtpKept s.otp t.otp ∧
    (bits s.otp.voted 63 56 ≠ 0 → bits t.otp.voted 63 56 ≠ 0 ∧ lcsOf t.otp.voted = (6, false))
end

