-- ==== Sys2Proof/Laws/Sparse.lean ====
section
/-! SUPPORT. Sparse maps: reading after writing, and the canonical form. -/
namespace Sys2Proof.Laws

open Sys2Proof.Machine

variable {α : Type}

theorem sget_sins (d : Nat → α) (m : List (Nat × α)) (k j : Nat) (v : α) :
    sget d (sins m k v) j = if j = k then v else sget d m j := by
  induction m with
  | nil => simp [sins, sget]
  | cons p r ih =>
    obtain ⟨k', v'⟩ := p
    simp only [sins]
    split
    · simp [sget]
    · split
      · rename_i h; subst h; by_cases hj : j = k <;> simp [sget, hj]
      · rename_i h1 h2
        simp only [sget, ih]
        by_cases hj : j = k'
        · simp [hj]; omega
        · simp [hj]

theorem sget_filter (d : Nat → α) (m : List (Nat × α)) (k j : Nat) :
    sget d (m.filter fun p => p.1 != k) j = if j = k then d k else sget d m j := by
  induction m with
  | nil => simp only [List.filter_nil, sget]; split <;> simp_all
  | cons p r ih =>
    obtain ⟨k', v'⟩ := p
    by_cases h : k' = k
    · subst h
      simp only [List.filter_cons, bne_self_eq_false, Bool.false_eq_true, if_false, ih, sget]
      by_cases hj : j = k' <;> simp [hj]
    · simp only [List.filter_cons, bne_iff_ne, ne_eq, h, not_false_eq_true, if_true, sget, ih]
      by_cases hj : j = k'
      · subst hj; simp [h]
      · simp [hj]

variable [DecidableEq α]

/-- Reading after writing, on any list. -/
theorem sget_sput (d : Nat → α) (m : List (Nat × α)) (k j : Nat) (v : α) :
    sget d (sput d m k v) j = if j = k then v else sget d m j := by
  unfold sput
  split
  · rename_i h; rw [sget_filter, h]
  · exact sget_sins d m k j v

theorem sget_sput_same (d : Nat → α) (m : List (Nat × α)) (k : Nat) (v : α) : sget d (sput d m k v) k = v := by
  simp [sget_sput]

theorem sget_sput_ne (d : Nat → α) (m : List (Nat × α)) {k j : Nat} (v : α) (h : j ≠ k) :
    sget d (sput d m k v) j = sget d m j := by simp [sget_sput, h]

theorem swfFrom_mono (d : Nat → α) (m : List (Nat × α)) {a b : Nat} (h : a ≤ b) (hb : swfFrom d b m = true) :
    swfFrom d a m = true := by
  cases m with
  | nil => rfl
  | cons p r =>
    simp only [swfFrom, Bool.and_eq_true, decide_eq_true_eq] at hb ⊢
    exact ⟨⟨by omega, hb.1.2⟩, hb.2⟩

theorem swfFrom_filter (d : Nat → α) (f : Nat × α → Bool) (m : List (Nat × α)) :
    ∀ lo, swfFrom d lo m = true → swfFrom d lo (m.filter f) = true := by
  induction m with
  | nil => intro _ _; rfl
  | cons p r ih =>
    intro lo h
    simp only [swfFrom, Bool.and_eq_true, decide_eq_true_eq] at h
    rw [List.filter_cons]
    split
    · simp only [swfFrom, Bool.and_eq_true, decide_eq_true_eq]
      exact ⟨h.1, ih _ h.2⟩
    · exact swfFrom_mono d _ (by omega) (ih _ h.2)

theorem swfFrom_sins (d : Nat → α) (k : Nat) (v : α) (hv : v ≠ d k) (m : List (Nat × α)) :
    ∀ lo, lo ≤ k → swfFrom d lo m = true → swfFrom d lo (sins m k v) = true := by
  induction m with
  | nil => intro lo h _; simp [sins, swfFrom, h, hv]
  | cons p r ih =>
    obtain ⟨k', v'⟩ := p
    intro lo h hm
    simp only [swfFrom, Bool.and_eq_true, decide_eq_true_eq] at hm
    simp only [sins]
    split
    · simp only [swfFrom, Bool.and_eq_true, decide_eq_true_eq]
      exact ⟨⟨h, hv⟩, ⟨by omega, hm.1.2⟩, hm.2⟩
    · split
      · rename_i e; subst e
        simp only [swfFrom, Bool.and_eq_true, decide_eq_true_eq]
        exact ⟨⟨h, hv⟩, hm.2⟩
      · simp only [swfFrom, Bool.and_eq_true, decide_eq_true_eq]
        exact ⟨hm.1, ih _ (by omega) hm.2⟩

/-- A write keeps the canonical form. -/
theorem swf_sput (d : Nat → α) (m : List (Nat × α)) (k : Nat) (v : α) (h : swf d m = true) : swf d (sput d m k v) = true := by
  unfold sput
  split
  · exact swfFrom_filter d _ m 0 h
  · rename_i hv; exact swfFrom_sins d k v hv m 0 (Nat.zero_le _) h

theorem swf_filter (d : Nat → α) (f : Nat × α → Bool) (m : List (Nat × α)) (h : swf d m = true) : swf d (m.filter f) = true :=
  swfFrom_filter d f m 0 h

end Sys2Proof.Laws
end

