-- ==== Sys2Proof/Laws/Registers.lean ====
section
/-! SUPPORT. The register file: fields have numbers of their own, and reading after writing. -/
namespace Sys2Proof.Laws

open Sys2Proof.Machine

theorem num_inj {f g : Fld} (h : f.num = g.num) : f = g := by
  rw [← Fld.ofNat_ctorIdx f, ← Fld.ofNat_ctorIdx g]; exact congrArg Fld.ofNat h

set_option maxRecDepth 100000 in
theorem allFlds_nums : allFlds.map Fld.num = List.range 583 := by decide

theorem num_lt (f : Fld) : f.num < 583 := by cases f <;> decide

/-- A field is found by its number. -/
theorem fldOfNum_num (f : Fld) : fldOfNum f.num = f := by
  have hl : allFlds.length = 583 := by simpa using congrArg List.length allFlds_nums
  have hf : f.num < allFlds.length := by rw [hl]; exact num_lt f
  apply num_inj
  have h := congrArg (fun l => l[f.num]?) allFlds_nums
  simp only [List.getElem?_map, List.getElem?_range (num_lt f)] at h
  unfold fldOfNum
  rw [List.getD_eq_getElem?_getD]
  cases e : allFlds[f.num]? with
  | none => simp [e] at h
  | some x => simpa [e] using h

/-- Two elements share a place only when field and indices agree. -/
theorem fldKey_inj {f g : Fld} {i j a b : Nat} (h : fldKey f i j = fldKey g a b) :
    f = g ∧ i % 65536 = a % 65536 ∧ j % 65536 = b % 65536 := by
  unfold fldKey at h
  refine ⟨num_inj (by omega), by omega, by omega⟩

theorem fldKey_eq_iff (f g : Fld) (i j a b : Nat) :
    fldKey f i j = fldKey g a b ↔ f = g ∧ i % 65536 = a % 65536 ∧ j % 65536 = b % 65536 := by
  refine ⟨fldKey_inj, ?_⟩
  rintro ⟨rfl, h1, h2⟩
  simp [fldKey, h1, h2]

/-- Reading a register element after writing one. -/
theorem getAt2_setAt2 (d : Die) (f g : Fld) (i j a b v : Nat) :
    (d.setAt2 f i j v).getAt2 g a b =
      if g = f ∧ a % 65536 = i % 65536 ∧ b % 65536 = j % 65536 then v % 2 ^ f.width else d.getAt2 g a b := by
  unfold Die.setAt2 Die.getAt2
  by_cases h : g = f
  · subst h
    simp only [sget_sput, fldKey_eq_iff]
  · have : fldKey g a b ≠ fldKey f i j := fun e => h (fldKey_inj e).1
    simp only [h, false_and, if_false]
    generalize v % 2 ^ f.width = x
    unfold sput
    split
    · rename_i hx
      have := sget_filter (fun _ => g.info.rst) d.regs (fldKey f i j) (fldKey g a b)
      rw [this, if_neg ‹_›]
    · rw [sget_sins, if_neg ‹_›]

theorem getAt2_setAt2_ne (d : Die) {f g : Fld} (i j a b v : Nat) (h : g ≠ f) :
    (d.setAt2 f i j v).getAt2 g a b = d.getAt2 g a b := by simp [getAt2_setAt2, h]

@[simp] theorem get_set (d : Die) (f g : Fld) (v : Nat) : (d.set f v).get g = if g = f then v % 2 ^ f.width else d.get g := by
  simp [Die.get, Die.set, getAt2_setAt2]

@[simp] theorem getAt_set (d : Die) (f g : Fld) (a v : Nat) :
    (d.set f v).getAt g a = if g = f ∧ a % 65536 = 0 then v % 2 ^ f.width else d.getAt g a := by
  simp [Die.getAt, Die.set, getAt2_setAt2]

@[simp] theorem get_setAt (d : Die) (f g : Fld) (i v : Nat) :
    (d.setAt f i v).get g = if g = f ∧ i % 65536 = 0 then v % 2 ^ f.width else d.get g := by
  simp [Die.get, Die.setAt, getAt2_setAt2, eq_comm]

@[simp] theorem getAt_setAt (d : Die) (f g : Fld) (i a v : Nat) :
    (d.setAt f i v).getAt g a = if g = f ∧ a % 65536 = i % 65536 then v % 2 ^ f.width else d.getAt g a := by
  simp [Die.getAt, Die.setAt, getAt2_setAt2]

@[simp] theorem getAt2_set (d : Die) (f g : Fld) (a b v : Nat) :
    (d.set f v).getAt2 g a b = if g = f ∧ a % 65536 = 0 ∧ b % 65536 = 0 then v % 2 ^ f.width else d.getAt2 g a b := by
  simp [Die.set, getAt2_setAt2]

@[simp] theorem getAt2_setAt (d : Die) (f g : Fld) (i a b v : Nat) :
    (d.setAt f i v).getAt2 g a b =
      if g = f ∧ a % 65536 = i % 65536 ∧ b % 65536 = 0 then v % 2 ^ f.width else d.getAt2 g a b := by
  simp [Die.setAt, getAt2_setAt2]

@[simp] theorem get_setAt2 (d : Die) (f g : Fld) (i j v : Nat) :
    (d.setAt2 f i j v).get g = if g = f ∧ i % 65536 = 0 ∧ j % 65536 = 0 then v % 2 ^ f.width else d.get g := by
  simp [Die.get, getAt2_setAt2, eq_comm]

@[simp] theorem getAt_setAt2 (d : Die) (f g : Fld) (i j a v : Nat) :
    (d.setAt2 f i j v).getAt g a =
      if g = f ∧ a % 65536 = i % 65536 ∧ j % 65536 = 0 then v % 2 ^ f.width else d.getAt g a := by
  simp [Die.getAt, getAt2_setAt2, eq_comm]

/-- A field read as a condition. -/
theorem has_eq (d : Die) (f : Fld) : d.has f = (d.get f != 0) := rfl
theorem hasAt_eq (d : Die) (f : Fld) (i : Nat) : d.hasAt f i = (d.getAt f i != 0) := rfl
theorem hasAt2_eq (d : Die) (f : Fld) (i j : Nat) : d.hasAt2 f i j = (d.getAt2 f i j != 0) := rfl

/-- The register file of reset is canonical, and a write keeps it so. -/
theorem regsWf_setAt2 (d : Die) (f : Fld) (i j v : Nat) (h : regsWf d.regs = true) : regsWf (d.setAt2 f i j v).regs = true := by
  have e : regDefault (fldKey f i j) = f.info.rst := by
    have : fldKey f i j / 65536 / 65536 = f.num := by unfold fldKey; omega
    unfold regDefault; rw [this, fldOfNum_num]
  have : (d.setAt2 f i j v).regs = sput regDefault d.regs (fldKey f i j) (v % 2 ^ f.width) := by
    simp only [Die.setAt2, sput, e]
  rw [this]
  exact swf_sput _ _ _ _ h

theorem regsWf_resetFlds (d : Die) (p : Fld → Nat → Bool) (h : regsWf d.regs = true) : regsWf (d.resetFlds p).regs = true :=
  swf_filter _ _ _ h

end Sys2Proof.Laws
end

