-- ==== Sys2Proof/Laws/State.lean ====
section
/-! SUPPORT. One lemma per field of the die for each named update: what the update leaves as it was. -/
namespace Sys2Proof.Laws

open Sys2Proof.Machine


/-! ## setAt2 -/

@[simp] theorem setAt2_posted (d : Die) (f : Fld) (i j v : Nat) : (d.setAt2 f i j v).posted = d.posted := rfl
@[simp] theorem setAt2_out (d : Die) (f : Fld) (i j v : Nat) : (d.setAt2 f i j v).out = d.out := rfl
@[simp] theorem setAt2_nowMs (d : Die) (f : Fld) (i j v : Nat) : (d.setAt2 f i j v).nowMs = d.nowMs := rfl
@[simp] theorem setAt2_que (d : Die) (f : Fld) (i j v : Nat) : (d.setAt2 f i j v).que = d.que := rfl
@[simp] theorem setAt2_rcp (d : Die) (f : Fld) (i j v : Nat) : (d.setAt2 f i j v).rcp = d.rcp := rfl
@[simp] theorem setAt2_kft (d : Die) (f : Fld) (i j v : Nat) : (d.setAt2 f i j v).kft = d.kft := rfl
@[simp] theorem setAt2_mlf (d : Die) (f : Fld) (i j v : Nat) : (d.setAt2 f i j v).mlf = d.mlf := rfl
@[simp] theorem setAt2_con (d : Die) (f : Fld) (i j v : Nat) : (d.setAt2 f i j v).con = d.con := rfl
@[simp] theorem setAt2_ntt (d : Die) (f : Fld) (i j v : Nat) : (d.setAt2 f i j v).ntt = d.ntt := rfl
@[simp] theorem setAt2_key (d : Die) (f : Fld) (i j v : Nat) : (d.setAt2 f i j v).key = d.key := rfl
@[simp] theorem setAt2_rng (d : Die) (f : Fld) (i j v : Nat) : (d.setAt2 f i j v).rng = d.rng := rfl
@[simp] theorem setAt2_ten (d : Die) (f : Fld) (i j v : Nat) : (d.setAt2 f i j v).ten = d.ten := rfl
@[simp] theorem setAt2_tin (d : Die) (f : Fld) (i j v : Nat) : (d.setAt2 f i j v).tin = d.tin := rfl
@[simp] theorem setAt2_ens (d : Die) (f : Fld) (i j v : Nat) : (d.setAt2 f i j v).ens = d.ens := rfl
@[simp] theorem setAt2_wld (d : Die) (f : Fld) (i j v : Nat) : (d.setAt2 f i j v).wld = d.wld := rfl
@[simp] theorem setAt2_tmp (d : Die) (f : Fld) (i j v : Nat) : (d.setAt2 f i j v).tmp = d.tmp := rfl
@[simp] theorem setAt2_clk (d : Die) (f : Fld) (i j v : Nat) : (d.setAt2 f i j v).clk = d.clk := rfl
@[simp] theorem setAt2_lcs (d : Die) (f : Fld) (i j v : Nat) : (d.setAt2 f i j v).lcs = d.lcs := rfl
@[simp] theorem setAt2_evr (d : Die) (f : Fld) (i j v : Nat) : (d.setAt2 f i j v).evr = d.evr := rfl

/-! ## setAt -/

@[simp] theorem setAt_posted (d : Die) (f : Fld) (i v : Nat) : (d.setAt f i v).posted = d.posted := rfl
@[simp] theorem setAt_out (d : Die) (f : Fld) (i v : Nat) : (d.setAt f i v).out = d.out := rfl
@[simp] theorem setAt_nowMs (d : Die) (f : Fld) (i v : Nat) : (d.setAt f i v).nowMs = d.nowMs := rfl
@[simp] theorem setAt_que (d : Die) (f : Fld) (i v : Nat) : (d.setAt f i v).que = d.que := rfl
@[simp] theorem setAt_rcp (d : Die) (f : Fld) (i v : Nat) : (d.setAt f i v).rcp = d.rcp := rfl
@[simp] theorem setAt_kft (d : Die) (f : Fld) (i v : Nat) : (d.setAt f i v).kft = d.kft := rfl
@[simp] theorem setAt_mlf (d : Die) (f : Fld) (i v : Nat) : (d.setAt f i v).mlf = d.mlf := rfl
@[simp] theorem setAt_con (d : Die) (f : Fld) (i v : Nat) : (d.setAt f i v).con = d.con := rfl
@[simp] theorem setAt_ntt (d : Die) (f : Fld) (i v : Nat) : (d.setAt f i v).ntt = d.ntt := rfl
@[simp] theorem setAt_key (d : Die) (f : Fld) (i v : Nat) : (d.setAt f i v).key = d.key := rfl
@[simp] theorem setAt_rng (d : Die) (f : Fld) (i v : Nat) : (d.setAt f i v).rng = d.rng := rfl
@[simp] theorem setAt_ten (d : Die) (f : Fld) (i v : Nat) : (d.setAt f i v).ten = d.ten := rfl
@[simp] theorem setAt_tin (d : Die) (f : Fld) (i v : Nat) : (d.setAt f i v).tin = d.tin := rfl
@[simp] theorem setAt_ens (d : Die) (f : Fld) (i v : Nat) : (d.setAt f i v).ens = d.ens := rfl
@[simp] theorem setAt_wld (d : Die) (f : Fld) (i v : Nat) : (d.setAt f i v).wld = d.wld := rfl
@[simp] theorem setAt_tmp (d : Die) (f : Fld) (i v : Nat) : (d.setAt f i v).tmp = d.tmp := rfl
@[simp] theorem setAt_clk (d : Die) (f : Fld) (i v : Nat) : (d.setAt f i v).clk = d.clk := rfl
@[simp] theorem setAt_lcs (d : Die) (f : Fld) (i v : Nat) : (d.setAt f i v).lcs = d.lcs := rfl
@[simp] theorem setAt_evr (d : Die) (f : Fld) (i v : Nat) : (d.setAt f i v).evr = d.evr := rfl

/-! ## set -/

@[simp] theorem set_posted (d : Die) (f : Fld) (v : Nat) : (d.set f v).posted = d.posted := rfl
@[simp] theorem set_out (d : Die) (f : Fld) (v : Nat) : (d.set f v).out = d.out := rfl
@[simp] theorem set_nowMs (d : Die) (f : Fld) (v : Nat) : (d.set f v).nowMs = d.nowMs := rfl
@[simp] theorem set_que (d : Die) (f : Fld) (v : Nat) : (d.set f v).que = d.que := rfl
@[simp] theorem set_rcp (d : Die) (f : Fld) (v : Nat) : (d.set f v).rcp = d.rcp := rfl
@[simp] theorem set_kft (d : Die) (f : Fld) (v : Nat) : (d.set f v).kft = d.kft := rfl
@[simp] theorem set_mlf (d : Die) (f : Fld) (v : Nat) : (d.set f v).mlf = d.mlf := rfl
@[simp] theorem set_con (d : Die) (f : Fld) (v : Nat) : (d.set f v).con = d.con := rfl
@[simp] theorem set_ntt (d : Die) (f : Fld) (v : Nat) : (d.set f v).ntt = d.ntt := rfl
@[simp] theorem set_key (d : Die) (f : Fld) (v : Nat) : (d.set f v).key = d.key := rfl
@[simp] theorem set_rng (d : Die) (f : Fld) (v : Nat) : (d.set f v).rng = d.rng := rfl
@[simp] theorem set_ten (d : Die) (f : Fld) (v : Nat) : (d.set f v).ten = d.ten := rfl
@[simp] theorem set_tin (d : Die) (f : Fld) (v : Nat) : (d.set f v).tin = d.tin := rfl
@[simp] theorem set_ens (d : Die) (f : Fld) (v : Nat) : (d.set f v).ens = d.ens := rfl
@[simp] theorem set_wld (d : Die) (f : Fld) (v : Nat) : (d.set f v).wld = d.wld := rfl
@[simp] theorem set_tmp (d : Die) (f : Fld) (v : Nat) : (d.set f v).tmp = d.tmp := rfl
@[simp] theorem set_clk (d : Die) (f : Fld) (v : Nat) : (d.set f v).clk = d.clk := rfl
@[simp] theorem set_lcs (d : Die) (f : Fld) (v : Nat) : (d.set f v).lcs = d.lcs := rfl
@[simp] theorem set_evr (d : Die) (f : Fld) (v : Nat) : (d.set f v).evr = d.evr := rfl

/-! ## addAt2 -/

@[simp] theorem addAt2_posted (d : Die) (f : Fld) (i j n : Nat) : (d.addAt2 f i j n).posted = d.posted := rfl
@[simp] theorem addAt2_out (d : Die) (f : Fld) (i j n : Nat) : (d.addAt2 f i j n).out = d.out := rfl
@[simp] theorem addAt2_nowMs (d : Die) (f : Fld) (i j n : Nat) : (d.addAt2 f i j n).nowMs = d.nowMs := rfl
@[simp] theorem addAt2_que (d : Die) (f : Fld) (i j n : Nat) : (d.addAt2 f i j n).que = d.que := rfl
@[simp] theorem addAt2_rcp (d : Die) (f : Fld) (i j n : Nat) : (d.addAt2 f i j n).rcp = d.rcp := rfl
@[simp] theorem addAt2_kft (d : Die) (f : Fld) (i j n : Nat) : (d.addAt2 f i j n).kft = d.kft := rfl
@[simp] theorem addAt2_mlf (d : Die) (f : Fld) (i j n : Nat) : (d.addAt2 f i j n).mlf = d.mlf := rfl
@[simp] theorem addAt2_con (d : Die) (f : Fld) (i j n : Nat) : (d.addAt2 f i j n).con = d.con := rfl
@[simp] theorem addAt2_ntt (d : Die) (f : Fld) (i j n : Nat) : (d.addAt2 f i j n).ntt = d.ntt := rfl
@[simp] theorem addAt2_key (d : Die) (f : Fld) (i j n : Nat) : (d.addAt2 f i j n).key = d.key := rfl
@[simp] theorem addAt2_rng (d : Die) (f : Fld) (i j n : Nat) : (d.addAt2 f i j n).rng = d.rng := rfl
@[simp] theorem addAt2_ten (d : Die) (f : Fld) (i j n : Nat) : (d.addAt2 f i j n).ten = d.ten := rfl
@[simp] theorem addAt2_tin (d : Die) (f : Fld) (i j n : Nat) : (d.addAt2 f i j n).tin = d.tin := rfl
@[simp] theorem addAt2_ens (d : Die) (f : Fld) (i j n : Nat) : (d.addAt2 f i j n).ens = d.ens := rfl
@[simp] theorem addAt2_wld (d : Die) (f : Fld) (i j n : Nat) : (d.addAt2 f i j n).wld = d.wld := rfl
@[simp] theorem addAt2_tmp (d : Die) (f : Fld) (i j n : Nat) : (d.addAt2 f i j n).tmp = d.tmp := rfl
@[simp] theorem addAt2_clk (d : Die) (f : Fld) (i j n : Nat) : (d.addAt2 f i j n).clk = d.clk := rfl
@[simp] theorem addAt2_lcs (d : Die) (f : Fld) (i j n : Nat) : (d.addAt2 f i j n).lcs = d.lcs := rfl
@[simp] theorem addAt2_evr (d : Die) (f : Fld) (i j n : Nat) : (d.addAt2 f i j n).evr = d.evr := rfl

/-! ## addAt -/

@[simp] theorem addAt_posted (d : Die) (f : Fld) (i n : Nat) : (d.addAt f i n).posted = d.posted := rfl
@[simp] theorem addAt_out (d : Die) (f : Fld) (i n : Nat) : (d.addAt f i n).out = d.out := rfl
@[simp] theorem addAt_nowMs (d : Die) (f : Fld) (i n : Nat) : (d.addAt f i n).nowMs = d.nowMs := rfl
@[simp] theorem addAt_que (d : Die) (f : Fld) (i n : Nat) : (d.addAt f i n).que = d.que := rfl
@[simp] theorem addAt_rcp (d : Die) (f : Fld) (i n : Nat) : (d.addAt f i n).rcp = d.rcp := rfl
@[simp] theorem addAt_kft (d : Die) (f : Fld) (i n : Nat) : (d.addAt f i n).kft = d.kft := rfl
@[simp] theorem addAt_mlf (d : Die) (f : Fld) (i n : Nat) : (d.addAt f i n).mlf = d.mlf := rfl
@[simp] theorem addAt_con (d : Die) (f : Fld) (i n : Nat) : (d.addAt f i n).con = d.con := rfl
@[simp] theorem addAt_ntt (d : Die) (f : Fld) (i n : Nat) : (d.addAt f i n).ntt = d.ntt := rfl
@[simp] theorem addAt_key (d : Die) (f : Fld) (i n : Nat) : (d.addAt f i n).key = d.key := rfl
@[simp] theorem addAt_rng (d : Die) (f : Fld) (i n : Nat) : (d.addAt f i n).rng = d.rng := rfl
@[simp] theorem addAt_ten (d : Die) (f : Fld) (i n : Nat) : (d.addAt f i n).ten = d.ten := rfl
@[simp] theorem addAt_tin (d : Die) (f : Fld) (i n : Nat) : (d.addAt f i n).tin = d.tin := rfl
@[simp] theorem addAt_ens (d : Die) (f : Fld) (i n : Nat) : (d.addAt f i n).ens = d.ens := rfl
@[simp] theorem addAt_wld (d : Die) (f : Fld) (i n : Nat) : (d.addAt f i n).wld = d.wld := rfl
@[simp] theorem addAt_tmp (d : Die) (f : Fld) (i n : Nat) : (d.addAt f i n).tmp = d.tmp := rfl
@[simp] theorem addAt_clk (d : Die) (f : Fld) (i n : Nat) : (d.addAt f i n).clk = d.clk := rfl
@[simp] theorem addAt_lcs (d : Die) (f : Fld) (i n : Nat) : (d.addAt f i n).lcs = d.lcs := rfl
@[simp] theorem addAt_evr (d : Die) (f : Fld) (i n : Nat) : (d.addAt f i n).evr = d.evr := rfl

/-! ## add -/

@[simp] theorem add_posted (d : Die) (f : Fld) (n : Nat) : (d.add f n).posted = d.posted := rfl
@[simp] theorem add_out (d : Die) (f : Fld) (n : Nat) : (d.add f n).out = d.out := rfl
@[simp] theorem add_nowMs (d : Die) (f : Fld) (n : Nat) : (d.add f n).nowMs = d.nowMs := rfl
@[simp] theorem add_que (d : Die) (f : Fld) (n : Nat) : (d.add f n).que = d.que := rfl
@[simp] theorem add_rcp (d : Die) (f : Fld) (n : Nat) : (d.add f n).rcp = d.rcp := rfl
@[simp] theorem add_kft (d : Die) (f : Fld) (n : Nat) : (d.add f n).kft = d.kft := rfl
@[simp] theorem add_mlf (d : Die) (f : Fld) (n : Nat) : (d.add f n).mlf = d.mlf := rfl
@[simp] theorem add_con (d : Die) (f : Fld) (n : Nat) : (d.add f n).con = d.con := rfl
@[simp] theorem add_ntt (d : Die) (f : Fld) (n : Nat) : (d.add f n).ntt = d.ntt := rfl
@[simp] theorem add_key (d : Die) (f : Fld) (n : Nat) : (d.add f n).key = d.key := rfl
@[simp] theorem add_rng (d : Die) (f : Fld) (n : Nat) : (d.add f n).rng = d.rng := rfl
@[simp] theorem add_ten (d : Die) (f : Fld) (n : Nat) : (d.add f n).ten = d.ten := rfl
@[simp] theorem add_tin (d : Die) (f : Fld) (n : Nat) : (d.add f n).tin = d.tin := rfl
@[simp] theorem add_ens (d : Die) (f : Fld) (n : Nat) : (d.add f n).ens = d.ens := rfl
@[simp] theorem add_wld (d : Die) (f : Fld) (n : Nat) : (d.add f n).wld = d.wld := rfl
@[simp] theorem add_tmp (d : Die) (f : Fld) (n : Nat) : (d.add f n).tmp = d.tmp := rfl
@[simp] theorem add_clk (d : Die) (f : Fld) (n : Nat) : (d.add f n).clk = d.clk := rfl
@[simp] theorem add_lcs (d : Die) (f : Fld) (n : Nat) : (d.add f n).lcs = d.lcs := rfl
@[simp] theorem add_evr (d : Die) (f : Fld) (n : Nat) : (d.add f n).evr = d.evr := rfl

/-! ## wrapAt2 -/

@[simp] theorem wrapAt2_posted (d : Die) (f : Fld) (i j n : Nat) : (d.wrapAt2 f i j n).posted = d.posted := rfl
@[simp] theorem wrapAt2_out (d : Die) (f : Fld) (i j n : Nat) : (d.wrapAt2 f i j n).out = d.out := rfl
@[simp] theorem wrapAt2_nowMs (d : Die) (f : Fld) (i j n : Nat) : (d.wrapAt2 f i j n).nowMs = d.nowMs := rfl
@[simp] theorem wrapAt2_que (d : Die) (f : Fld) (i j n : Nat) : (d.wrapAt2 f i j n).que = d.que := rfl
@[simp] theorem wrapAt2_rcp (d : Die) (f : Fld) (i j n : Nat) : (d.wrapAt2 f i j n).rcp = d.rcp := rfl
@[simp] theorem wrapAt2_kft (d : Die) (f : Fld) (i j n : Nat) : (d.wrapAt2 f i j n).kft = d.kft := rfl
@[simp] theorem wrapAt2_mlf (d : Die) (f : Fld) (i j n : Nat) : (d.wrapAt2 f i j n).mlf = d.mlf := rfl
@[simp] theorem wrapAt2_con (d : Die) (f : Fld) (i j n : Nat) : (d.wrapAt2 f i j n).con = d.con := rfl
@[simp] theorem wrapAt2_ntt (d : Die) (f : Fld) (i j n : Nat) : (d.wrapAt2 f i j n).ntt = d.ntt := rfl
@[simp] theorem wrapAt2_key (d : Die) (f : Fld) (i j n : Nat) : (d.wrapAt2 f i j n).key = d.key := rfl
@[simp] theorem wrapAt2_rng (d : Die) (f : Fld) (i j n : Nat) : (d.wrapAt2 f i j n).rng = d.rng := rfl
@[simp] theorem wrapAt2_ten (d : Die) (f : Fld) (i j n : Nat) : (d.wrapAt2 f i j n).ten = d.ten := rfl
@[simp] theorem wrapAt2_tin (d : Die) (f : Fld) (i j n : Nat) : (d.wrapAt2 f i j n).tin = d.tin := rfl
@[simp] theorem wrapAt2_ens (d : Die) (f : Fld) (i j n : Nat) : (d.wrapAt2 f i j n).ens = d.ens := rfl
@[simp] theorem wrapAt2_wld (d : Die) (f : Fld) (i j n : Nat) : (d.wrapAt2 f i j n).wld = d.wld := rfl
@[simp] theorem wrapAt2_tmp (d : Die) (f : Fld) (i j n : Nat) : (d.wrapAt2 f i j n).tmp = d.tmp := rfl
@[simp] theorem wrapAt2_clk (d : Die) (f : Fld) (i j n : Nat) : (d.wrapAt2 f i j n).clk = d.clk := rfl
@[simp] theorem wrapAt2_lcs (d : Die) (f : Fld) (i j n : Nat) : (d.wrapAt2 f i j n).lcs = d.lcs := rfl
@[simp] theorem wrapAt2_evr (d : Die) (f : Fld) (i j n : Nat) : (d.wrapAt2 f i j n).evr = d.evr := rfl

/-! ## wrap -/

@[simp] theorem wrap_posted (d : Die) (f : Fld) (n : Nat) : (d.wrap f n).posted = d.posted := rfl
@[simp] theorem wrap_out (d : Die) (f : Fld) (n : Nat) : (d.wrap f n).out = d.out := rfl
@[simp] theorem wrap_nowMs (d : Die) (f : Fld) (n : Nat) : (d.wrap f n).nowMs = d.nowMs := rfl
@[simp] theorem wrap_que (d : Die) (f : Fld) (n : Nat) : (d.wrap f n).que = d.que := rfl
@[simp] theorem wrap_rcp (d : Die) (f : Fld) (n : Nat) : (d.wrap f n).rcp = d.rcp := rfl
@[simp] theorem wrap_kft (d : Die) (f : Fld) (n : Nat) : (d.wrap f n).kft = d.kft := rfl
@[simp] theorem wrap_mlf (d : Die) (f : Fld) (n : Nat) : (d.wrap f n).mlf = d.mlf := rfl
@[simp] theorem wrap_con (d : Die) (f : Fld) (n : Nat) : (d.wrap f n).con = d.con := rfl
@[simp] theorem wrap_ntt (d : Die) (f : Fld) (n : Nat) : (d.wrap f n).ntt = d.ntt := rfl
@[simp] theorem wrap_key (d : Die) (f : Fld) (n : Nat) : (d.wrap f n).key = d.key := rfl
@[simp] theorem wrap_rng (d : Die) (f : Fld) (n : Nat) : (d.wrap f n).rng = d.rng := rfl
@[simp] theorem wrap_ten (d : Die) (f : Fld) (n : Nat) : (d.wrap f n).ten = d.ten := rfl
@[simp] theorem wrap_tin (d : Die) (f : Fld) (n : Nat) : (d.wrap f n).tin = d.tin := rfl
@[simp] theorem wrap_ens (d : Die) (f : Fld) (n : Nat) : (d.wrap f n).ens = d.ens := rfl
@[simp] theorem wrap_wld (d : Die) (f : Fld) (n : Nat) : (d.wrap f n).wld = d.wld := rfl
@[simp] theorem wrap_tmp (d : Die) (f : Fld) (n : Nat) : (d.wrap f n).tmp = d.tmp := rfl
@[simp] theorem wrap_clk (d : Die) (f : Fld) (n : Nat) : (d.wrap f n).clk = d.clk := rfl
@[simp] theorem wrap_lcs (d : Die) (f : Fld) (n : Nat) : (d.wrap f n).lcs = d.lcs := rfl
@[simp] theorem wrap_evr (d : Die) (f : Fld) (n : Nat) : (d.wrap f n).evr = d.evr := rfl

/-! ## subAt -/

@[simp] theorem subAt_posted (d : Die) (f : Fld) (i n : Nat) : (d.subAt f i n).posted = d.posted := rfl
@[simp] theorem subAt_out (d : Die) (f : Fld) (i n : Nat) : (d.subAt f i n).out = d.out := rfl
@[simp] theorem subAt_nowMs (d : Die) (f : Fld) (i n : Nat) : (d.subAt f i n).nowMs = d.nowMs := rfl
@[simp] theorem subAt_que (d : Die) (f : Fld) (i n : Nat) : (d.subAt f i n).que = d.que := rfl
@[simp] theorem subAt_rcp (d : Die) (f : Fld) (i n : Nat) : (d.subAt f i n).rcp = d.rcp := rfl
@[simp] theorem subAt_kft (d : Die) (f : Fld) (i n : Nat) : (d.subAt f i n).kft = d.kft := rfl
@[simp] theorem subAt_mlf (d : Die) (f : Fld) (i n : Nat) : (d.subAt f i n).mlf = d.mlf := rfl
@[simp] theorem subAt_con (d : Die) (f : Fld) (i n : Nat) : (d.subAt f i n).con = d.con := rfl
@[simp] theorem subAt_ntt (d : Die) (f : Fld) (i n : Nat) : (d.subAt f i n).ntt = d.ntt := rfl
@[simp] theorem subAt_key (d : Die) (f : Fld) (i n : Nat) : (d.subAt f i n).key = d.key := rfl
@[simp] theorem subAt_rng (d : Die) (f : Fld) (i n : Nat) : (d.subAt f i n).rng = d.rng := rfl
@[simp] theorem subAt_ten (d : Die) (f : Fld) (i n : Nat) : (d.subAt f i n).ten = d.ten := rfl
@[simp] theorem subAt_tin (d : Die) (f : Fld) (i n : Nat) : (d.subAt f i n).tin = d.tin := rfl
@[simp] theorem subAt_ens (d : Die) (f : Fld) (i n : Nat) : (d.subAt f i n).ens = d.ens := rfl
@[simp] theorem subAt_wld (d : Die) (f : Fld) (i n : Nat) : (d.subAt f i n).wld = d.wld := rfl
@[simp] theorem subAt_tmp (d : Die) (f : Fld) (i n : Nat) : (d.subAt f i n).tmp = d.tmp := rfl
@[simp] theorem subAt_clk (d : Die) (f : Fld) (i n : Nat) : (d.subAt f i n).clk = d.clk := rfl
@[simp] theorem subAt_lcs (d : Die) (f : Fld) (i n : Nat) : (d.subAt f i n).lcs = d.lcs := rfl
@[simp] theorem subAt_evr (d : Die) (f : Fld) (i n : Nat) : (d.subAt f i n).evr = d.evr := rfl

/-! ## sub -/

@[simp] theorem sub_posted (d : Die) (f : Fld) (n : Nat) : (d.sub f n).posted = d.posted := rfl
@[simp] theorem sub_out (d : Die) (f : Fld) (n : Nat) : (d.sub f n).out = d.out := rfl
@[simp] theorem sub_nowMs (d : Die) (f : Fld) (n : Nat) : (d.sub f n).nowMs = d.nowMs := rfl
@[simp] theorem sub_que (d : Die) (f : Fld) (n : Nat) : (d.sub f n).que = d.que := rfl
@[simp] theorem sub_rcp (d : Die) (f : Fld) (n : Nat) : (d.sub f n).rcp = d.rcp := rfl
@[simp] theorem sub_kft (d : Die) (f : Fld) (n : Nat) : (d.sub f n).kft = d.kft := rfl
@[simp] theorem sub_mlf (d : Die) (f : Fld) (n : Nat) : (d.sub f n).mlf = d.mlf := rfl
@[simp] theorem sub_con (d : Die) (f : Fld) (n : Nat) : (d.sub f n).con = d.con := rfl
@[simp] theorem sub_ntt (d : Die) (f : Fld) (n : Nat) : (d.sub f n).ntt = d.ntt := rfl
@[simp] theorem sub_key (d : Die) (f : Fld) (n : Nat) : (d.sub f n).key = d.key := rfl
@[simp] theorem sub_rng (d : Die) (f : Fld) (n : Nat) : (d.sub f n).rng = d.rng := rfl
@[simp] theorem sub_ten (d : Die) (f : Fld) (n : Nat) : (d.sub f n).ten = d.ten := rfl
@[simp] theorem sub_tin (d : Die) (f : Fld) (n : Nat) : (d.sub f n).tin = d.tin := rfl
@[simp] theorem sub_ens (d : Die) (f : Fld) (n : Nat) : (d.sub f n).ens = d.ens := rfl
@[simp] theorem sub_wld (d : Die) (f : Fld) (n : Nat) : (d.sub f n).wld = d.wld := rfl
@[simp] theorem sub_tmp (d : Die) (f : Fld) (n : Nat) : (d.sub f n).tmp = d.tmp := rfl
@[simp] theorem sub_clk (d : Die) (f : Fld) (n : Nat) : (d.sub f n).clk = d.clk := rfl
@[simp] theorem sub_lcs (d : Die) (f : Fld) (n : Nat) : (d.sub f n).lcs = d.lcs := rfl
@[simp] theorem sub_evr (d : Die) (f : Fld) (n : Nat) : (d.sub f n).evr = d.evr := rfl

/-! ## resetFlds -/

@[simp] theorem resetFlds_posted (d : Die) (p : Fld → Nat → Bool) : (d.resetFlds p).posted = d.posted := rfl
@[simp] theorem resetFlds_out (d : Die) (p : Fld → Nat → Bool) : (d.resetFlds p).out = d.out := rfl
@[simp] theorem resetFlds_nowMs (d : Die) (p : Fld → Nat → Bool) : (d.resetFlds p).nowMs = d.nowMs := rfl
@[simp] theorem resetFlds_que (d : Die) (p : Fld → Nat → Bool) : (d.resetFlds p).que = d.que := rfl
@[simp] theorem resetFlds_rcp (d : Die) (p : Fld → Nat → Bool) : (d.resetFlds p).rcp = d.rcp := rfl
@[simp] theorem resetFlds_kft (d : Die) (p : Fld → Nat → Bool) : (d.resetFlds p).kft = d.kft := rfl
@[simp] theorem resetFlds_mlf (d : Die) (p : Fld → Nat → Bool) : (d.resetFlds p).mlf = d.mlf := rfl
@[simp] theorem resetFlds_con (d : Die) (p : Fld → Nat → Bool) : (d.resetFlds p).con = d.con := rfl
@[simp] theorem resetFlds_ntt (d : Die) (p : Fld → Nat → Bool) : (d.resetFlds p).ntt = d.ntt := rfl
@[simp] theorem resetFlds_key (d : Die) (p : Fld → Nat → Bool) : (d.resetFlds p).key = d.key := rfl
@[simp] theorem resetFlds_rng (d : Die) (p : Fld → Nat → Bool) : (d.resetFlds p).rng = d.rng := rfl
@[simp] theorem resetFlds_ten (d : Die) (p : Fld → Nat → Bool) : (d.resetFlds p).ten = d.ten := rfl
@[simp] theorem resetFlds_tin (d : Die) (p : Fld → Nat → Bool) : (d.resetFlds p).tin = d.tin := rfl
@[simp] theorem resetFlds_ens (d : Die) (p : Fld → Nat → Bool) : (d.resetFlds p).ens = d.ens := rfl
@[simp] theorem resetFlds_wld (d : Die) (p : Fld → Nat → Bool) : (d.resetFlds p).wld = d.wld := rfl
@[simp] theorem resetFlds_tmp (d : Die) (p : Fld → Nat → Bool) : (d.resetFlds p).tmp = d.tmp := rfl
@[simp] theorem resetFlds_clk (d : Die) (p : Fld → Nat → Bool) : (d.resetFlds p).clk = d.clk := rfl
@[simp] theorem resetFlds_lcs (d : Die) (p : Fld → Nat → Bool) : (d.resetFlds p).lcs = d.lcs := rfl
@[simp] theorem resetFlds_evr (d : Die) (p : Fld → Nat → Bool) : (d.resetFlds p).evr = d.evr := rfl

/-! ## emit -/

@[simp] theorem emit_regs (d : Die) (o : Output) : (d.emit o).regs = d.regs := rfl
@[simp] theorem emit_posted (d : Die) (o : Output) : (d.emit o).posted = d.posted := rfl
@[simp] theorem emit_nowMs (d : Die) (o : Output) : (d.emit o).nowMs = d.nowMs := rfl
@[simp] theorem emit_que (d : Die) (o : Output) : (d.emit o).que = d.que := rfl
@[simp] theorem emit_rcp (d : Die) (o : Output) : (d.emit o).rcp = d.rcp := rfl
@[simp] theorem emit_kft (d : Die) (o : Output) : (d.emit o).kft = d.kft := rfl
@[simp] theorem emit_mlf (d : Die) (o : Output) : (d.emit o).mlf = d.mlf := rfl
@[simp] theorem emit_con (d : Die) (o : Output) : (d.emit o).con = d.con := rfl
@[simp] theorem emit_ntt (d : Die) (o : Output) : (d.emit o).ntt = d.ntt := rfl
@[simp] theorem emit_key (d : Die) (o : Output) : (d.emit o).key = d.key := rfl
@[simp] theorem emit_rng (d : Die) (o : Output) : (d.emit o).rng = d.rng := rfl
@[simp] theorem emit_ten (d : Die) (o : Output) : (d.emit o).ten = d.ten := rfl
@[simp] theorem emit_tin (d : Die) (o : Output) : (d.emit o).tin = d.tin := rfl
@[simp] theorem emit_ens (d : Die) (o : Output) : (d.emit o).ens = d.ens := rfl
@[simp] theorem emit_wld (d : Die) (o : Output) : (d.emit o).wld = d.wld := rfl
@[simp] theorem emit_tmp (d : Die) (o : Output) : (d.emit o).tmp = d.tmp := rfl
@[simp] theorem emit_clk (d : Die) (o : Output) : (d.emit o).clk = d.clk := rfl
@[simp] theorem emit_lcs (d : Die) (o : Output) : (d.emit o).lcs = d.lcs := rfl
@[simp] theorem emit_evr (d : Die) (o : Output) : (d.emit o).evr = d.evr := rfl
@[simp] theorem emit_get (d : Die) (o : Output) (g : Fld) : (d.emit o).get g = d.get g := rfl
@[simp] theorem emit_getAt (d : Die) (o : Output) (g : Fld) (a : Nat) : (d.emit o).getAt g a = d.getAt g a := rfl
@[simp] theorem emit_getAt2 (d : Die) (o : Output) (g : Fld) (a b : Nat) : (d.emit o).getAt2 g a b = d.getAt2 g a b := rfl

/-! ## draw -/

@[simp] theorem draw_regs (d : Die) (n : Nat) : (d.draw n).regs = d.regs := rfl
@[simp] theorem draw_posted (d : Die) (n : Nat) : (d.draw n).posted = d.posted := rfl
@[simp] theorem draw_out (d : Die) (n : Nat) : (d.draw n).out = d.out := rfl
@[simp] theorem draw_nowMs (d : Die) (n : Nat) : (d.draw n).nowMs = d.nowMs := rfl
@[simp] theorem draw_que (d : Die) (n : Nat) : (d.draw n).que = d.que := rfl
@[simp] theorem draw_rcp (d : Die) (n : Nat) : (d.draw n).rcp = d.rcp := rfl
@[simp] theorem draw_kft (d : Die) (n : Nat) : (d.draw n).kft = d.kft := rfl
@[simp] theorem draw_mlf (d : Die) (n : Nat) : (d.draw n).mlf = d.mlf := rfl
@[simp] theorem draw_con (d : Die) (n : Nat) : (d.draw n).con = d.con := rfl
@[simp] theorem draw_ntt (d : Die) (n : Nat) : (d.draw n).ntt = d.ntt := rfl
@[simp] theorem draw_key (d : Die) (n : Nat) : (d.draw n).key = d.key := rfl
@[simp] theorem draw_ten (d : Die) (n : Nat) : (d.draw n).ten = d.ten := rfl
@[simp] theorem draw_tin (d : Die) (n : Nat) : (d.draw n).tin = d.tin := rfl
@[simp] theorem draw_ens (d : Die) (n : Nat) : (d.draw n).ens = d.ens := rfl
@[simp] theorem draw_wld (d : Die) (n : Nat) : (d.draw n).wld = d.wld := rfl
@[simp] theorem draw_tmp (d : Die) (n : Nat) : (d.draw n).tmp = d.tmp := rfl
@[simp] theorem draw_clk (d : Die) (n : Nat) : (d.draw n).clk = d.clk := rfl
@[simp] theorem draw_lcs (d : Die) (n : Nat) : (d.draw n).lcs = d.lcs := rfl
@[simp] theorem draw_evr (d : Die) (n : Nat) : (d.draw n).evr = d.evr := rfl
@[simp] theorem draw_get (d : Die) (n : Nat) (g : Fld) : (d.draw n).get g = d.get g := rfl
@[simp] theorem draw_getAt (d : Die) (n : Nat) (g : Fld) (a : Nat) : (d.draw n).getAt g a = d.getAt g a := rfl
@[simp] theorem draw_getAt2 (d : Die) (n : Nat) (g : Fld) (a b : Nat) : (d.draw n).getAt2 g a b = d.getAt2 g a b := rfl

/-! ## updReq -/

@[simp] theorem updReq_regs (d : Die) (rid : Nat) (f : Req → Req) : (d.updReq rid f).regs = d.regs := rfl
@[simp] theorem updReq_posted (d : Die) (rid : Nat) (f : Req → Req) : (d.updReq rid f).posted = d.posted := rfl
@[simp] theorem updReq_out (d : Die) (rid : Nat) (f : Req → Req) : (d.updReq rid f).out = d.out := rfl
@[simp] theorem updReq_nowMs (d : Die) (rid : Nat) (f : Req → Req) : (d.updReq rid f).nowMs = d.nowMs := rfl
@[simp] theorem updReq_rcp (d : Die) (rid : Nat) (f : Req → Req) : (d.updReq rid f).rcp = d.rcp := rfl
@[simp] theorem updReq_kft (d : Die) (rid : Nat) (f : Req → Req) : (d.updReq rid f).kft = d.kft := rfl
@[simp] theorem updReq_mlf (d : Die) (rid : Nat) (f : Req → Req) : (d.updReq rid f).mlf = d.mlf := rfl
@[simp] theorem updReq_con (d : Die) (rid : Nat) (f : Req → Req) : (d.updReq rid f).con = d.con := rfl
@[simp] theorem updReq_ntt (d : Die) (rid : Nat) (f : Req → Req) : (d.updReq rid f).ntt = d.ntt := rfl
@[simp] theorem updReq_key (d : Die) (rid : Nat) (f : Req → Req) : (d.updReq rid f).key = d.key := rfl
@[simp] theorem updReq_rng (d : Die) (rid : Nat) (f : Req → Req) : (d.updReq rid f).rng = d.rng := rfl
@[simp] theorem updReq_ten (d : Die) (rid : Nat) (f : Req → Req) : (d.updReq rid f).ten = d.ten := rfl
@[simp] theorem updReq_tin (d : Die) (rid : Nat) (f : Req → Req) : (d.updReq rid f).tin = d.tin := rfl
@[simp] theorem updReq_ens (d : Die) (rid : Nat) (f : Req → Req) : (d.updReq rid f).ens = d.ens := rfl
@[simp] theorem updReq_wld (d : Die) (rid : Nat) (f : Req → Req) : (d.updReq rid f).wld = d.wld := rfl
@[simp] theorem updReq_tmp (d : Die) (rid : Nat) (f : Req → Req) : (d.updReq rid f).tmp = d.tmp := rfl
@[simp] theorem updReq_clk (d : Die) (rid : Nat) (f : Req → Req) : (d.updReq rid f).clk = d.clk := rfl
@[simp] theorem updReq_lcs (d : Die) (rid : Nat) (f : Req → Req) : (d.updReq rid f).lcs = d.lcs := rfl
@[simp] theorem updReq_evr (d : Die) (rid : Nat) (f : Req → Req) : (d.updReq rid f).evr = d.evr := rfl
@[simp] theorem updReq_get (d : Die) (rid : Nat) (f : Req → Req) (g : Fld) : (d.updReq rid f).get g = d.get g := rfl
@[simp] theorem updReq_getAt (d : Die) (rid : Nat) (f : Req → Req) (g : Fld) (a : Nat) : (d.updReq rid f).getAt g a = d.getAt g a := rfl
@[simp] theorem updReq_getAt2 (d : Die) (rid : Nat) (f : Req → Req) (g : Fld) (a b : Nat) : (d.updReq rid f).getAt2 g a b = d.getAt2 g a b := rfl

/-! ## setStage -/

@[simp] theorem setStage_regs (d : Die) (rid : Nat) (st : Stage) : (d.setStage rid st).regs = d.regs := rfl
@[simp] theorem setStage_posted (d : Die) (rid : Nat) (st : Stage) : (d.setStage rid st).posted = d.posted := rfl
@[simp] theorem setStage_out (d : Die) (rid : Nat) (st : Stage) : (d.setStage rid st).out = d.out := rfl
@[simp] theorem setStage_nowMs (d : Die) (rid : Nat) (st : Stage) : (d.setStage rid st).nowMs = d.nowMs := rfl
@[simp] theorem setStage_rcp (d : Die) (rid : Nat) (st : Stage) : (d.setStage rid st).rcp = d.rcp := rfl
@[simp] theorem setStage_kft (d : Die) (rid : Nat) (st : Stage) : (d.setStage rid st).kft = d.kft := rfl
@[simp] theorem setStage_mlf (d : Die) (rid : Nat) (st : Stage) : (d.setStage rid st).mlf = d.mlf := rfl
@[simp] theorem setStage_con (d : Die) (rid : Nat) (st : Stage) : (d.setStage rid st).con = d.con := rfl
@[simp] theorem setStage_ntt (d : Die) (rid : Nat) (st : Stage) : (d.setStage rid st).ntt = d.ntt := rfl
@[simp] theorem setStage_key (d : Die) (rid : Nat) (st : Stage) : (d.setStage rid st).key = d.key := rfl
@[simp] theorem setStage_rng (d : Die) (rid : Nat) (st : Stage) : (d.setStage rid st).rng = d.rng := rfl
@[simp] theorem setStage_ten (d : Die) (rid : Nat) (st : Stage) : (d.setStage rid st).ten = d.ten := rfl
@[simp] theorem setStage_tin (d : Die) (rid : Nat) (st : Stage) : (d.setStage rid st).tin = d.tin := rfl
@[simp] theorem setStage_ens (d : Die) (rid : Nat) (st : Stage) : (d.setStage rid st).ens = d.ens := rfl
@[simp] theorem setStage_wld (d : Die) (rid : Nat) (st : Stage) : (d.setStage rid st).wld = d.wld := rfl
@[simp] theorem setStage_tmp (d : Die) (rid : Nat) (st : Stage) : (d.setStage rid st).tmp = d.tmp := rfl
@[simp] theorem setStage_clk (d : Die) (rid : Nat) (st : Stage) : (d.setStage rid st).clk = d.clk := rfl
@[simp] theorem setStage_lcs (d : Die) (rid : Nat) (st : Stage) : (d.setStage rid st).lcs = d.lcs := rfl
@[simp] theorem setStage_evr (d : Die) (rid : Nat) (st : Stage) : (d.setStage rid st).evr = d.evr := rfl
@[simp] theorem setStage_get (d : Die) (rid : Nat) (st : Stage) (g : Fld) : (d.setStage rid st).get g = d.get g := rfl
@[simp] theorem setStage_getAt (d : Die) (rid : Nat) (st : Stage) (g : Fld) (a : Nat) : (d.setStage rid st).getAt g a = d.getAt g a := rfl
@[simp] theorem setStage_getAt2 (d : Die) (rid : Nat) (st : Stage) (g : Fld) (a b : Nat) : (d.setStage rid st).getAt2 g a b = d.getAt2 g a b := rfl

/-! ## dropReq -/

@[simp] theorem dropReq_regs (d : Die) (rid : Nat) : (d.dropReq rid).regs = d.regs := rfl
@[simp] theorem dropReq_posted (d : Die) (rid : Nat) : (d.dropReq rid).posted = d.posted := rfl
@[simp] theorem dropReq_out (d : Die) (rid : Nat) : (d.dropReq rid).out = d.out := rfl
@[simp] theorem dropReq_nowMs (d : Die) (rid : Nat) : (d.dropReq rid).nowMs = d.nowMs := rfl
@[simp] theorem dropReq_rcp (d : Die) (rid : Nat) : (d.dropReq rid).rcp = d.rcp := rfl
@[simp] theorem dropReq_kft (d : Die) (rid : Nat) : (d.dropReq rid).kft = d.kft := rfl
@[simp] theorem dropReq_mlf (d : Die) (rid : Nat) : (d.dropReq rid).mlf = d.mlf := rfl
@[simp] theorem dropReq_con (d : Die) (rid : Nat) : (d.dropReq rid).con = d.con := rfl
@[simp] theorem dropReq_ntt (d : Die) (rid : Nat) : (d.dropReq rid).ntt = d.ntt := rfl
@[simp] theorem dropReq_key (d : Die) (rid : Nat) : (d.dropReq rid).key = d.key := rfl
@[simp] theorem dropReq_rng (d : Die) (rid : Nat) : (d.dropReq rid).rng = d.rng := rfl
@[simp] theorem dropReq_ten (d : Die) (rid : Nat) : (d.dropReq rid).ten = d.ten := rfl
@[simp] theorem dropReq_tin (d : Die) (rid : Nat) : (d.dropReq rid).tin = d.tin := rfl
@[simp] theorem dropReq_ens (d : Die) (rid : Nat) : (d.dropReq rid).ens = d.ens := rfl
@[simp] theorem dropReq_wld (d : Die) (rid : Nat) : (d.dropReq rid).wld = d.wld := rfl
@[simp] theorem dropReq_tmp (d : Die) (rid : Nat) : (d.dropReq rid).tmp = d.tmp := rfl
@[simp] theorem dropReq_clk (d : Die) (rid : Nat) : (d.dropReq rid).clk = d.clk := rfl
@[simp] theorem dropReq_lcs (d : Die) (rid : Nat) : (d.dropReq rid).lcs = d.lcs := rfl
@[simp] theorem dropReq_evr (d : Die) (rid : Nat) : (d.dropReq rid).evr = d.evr := rfl
@[simp] theorem dropReq_get (d : Die) (rid : Nat) (g : Fld) : (d.dropReq rid).get g = d.get g := rfl
@[simp] theorem dropReq_getAt (d : Die) (rid : Nat) (g : Fld) (a : Nat) : (d.dropReq rid).getAt g a = d.getAt g a := rfl
@[simp] theorem dropReq_getAt2 (d : Die) (rid : Nat) (g : Fld) (a b : Nat) : (d.dropReq rid).getAt2 g a b = d.getAt2 g a b := rfl

/-! ## setPair -/

@[simp] theorem setPair_regs (d : Die) (fn pair : Nat) (p : PairState) : (d.setPair fn pair p).regs = d.regs := rfl
@[simp] theorem setPair_posted (d : Die) (fn pair : Nat) (p : PairState) : (d.setPair fn pair p).posted = d.posted := rfl
@[simp] theorem setPair_out (d : Die) (fn pair : Nat) (p : PairState) : (d.setPair fn pair p).out = d.out := rfl
@[simp] theorem setPair_nowMs (d : Die) (fn pair : Nat) (p : PairState) : (d.setPair fn pair p).nowMs = d.nowMs := rfl
@[simp] theorem setPair_rcp (d : Die) (fn pair : Nat) (p : PairState) : (d.setPair fn pair p).rcp = d.rcp := rfl
@[simp] theorem setPair_kft (d : Die) (fn pair : Nat) (p : PairState) : (d.setPair fn pair p).kft = d.kft := rfl
@[simp] theorem setPair_mlf (d : Die) (fn pair : Nat) (p : PairState) : (d.setPair fn pair p).mlf = d.mlf := rfl
@[simp] theorem setPair_con (d : Die) (fn pair : Nat) (p : PairState) : (d.setPair fn pair p).con = d.con := rfl
@[simp] theorem setPair_ntt (d : Die) (fn pair : Nat) (p : PairState) : (d.setPair fn pair p).ntt = d.ntt := rfl
@[simp] theorem setPair_key (d : Die) (fn pair : Nat) (p : PairState) : (d.setPair fn pair p).key = d.key := rfl
@[simp] theorem setPair_rng (d : Die) (fn pair : Nat) (p : PairState) : (d.setPair fn pair p).rng = d.rng := rfl
@[simp] theorem setPair_ten (d : Die) (fn pair : Nat) (p : PairState) : (d.setPair fn pair p).ten = d.ten := rfl
@[simp] theorem setPair_tin (d : Die) (fn pair : Nat) (p : PairState) : (d.setPair fn pair p).tin = d.tin := rfl
@[simp] theorem setPair_ens (d : Die) (fn pair : Nat) (p : PairState) : (d.setPair fn pair p).ens = d.ens := rfl
@[simp] theorem setPair_wld (d : Die) (fn pair : Nat) (p : PairState) : (d.setPair fn pair p).wld = d.wld := rfl
@[simp] theorem setPair_tmp (d : Die) (fn pair : Nat) (p : PairState) : (d.setPair fn pair p).tmp = d.tmp := rfl
@[simp] theorem setPair_clk (d : Die) (fn pair : Nat) (p : PairState) : (d.setPair fn pair p).clk = d.clk := rfl
@[simp] theorem setPair_lcs (d : Die) (fn pair : Nat) (p : PairState) : (d.setPair fn pair p).lcs = d.lcs := rfl
@[simp] theorem setPair_evr (d : Die) (fn pair : Nat) (p : PairState) : (d.setPair fn pair p).evr = d.evr := rfl
@[simp] theorem setPair_get (d : Die) (fn pair : Nat) (p : PairState) (g : Fld) : (d.setPair fn pair p).get g = d.get g := rfl
@[simp] theorem setPair_getAt (d : Die) (fn pair : Nat) (p : PairState) (g : Fld) (a : Nat) : (d.setPair fn pair p).getAt g a = d.getAt g a := rfl
@[simp] theorem setPair_getAt2 (d : Die) (fn pair : Nat) (p : PairState) (g : Fld) (a b : Nat) : (d.setPair fn pair p).getAt2 g a b = d.getAt2 g a b := rfl

/-! ## setNtf -/

@[simp] theorem setNtf_regs (d : Die) (fn : Nat) (n : NtfState) : (d.setNtf fn n).regs = d.regs := rfl
@[simp] theorem setNtf_posted (d : Die) (fn : Nat) (n : NtfState) : (d.setNtf fn n).posted = d.posted := rfl
@[simp] theorem setNtf_out (d : Die) (fn : Nat) (n : NtfState) : (d.setNtf fn n).out = d.out := rfl
@[simp] theorem setNtf_nowMs (d : Die) (fn : Nat) (n : NtfState) : (d.setNtf fn n).nowMs = d.nowMs := rfl
@[simp] theorem setNtf_rcp (d : Die) (fn : Nat) (n : NtfState) : (d.setNtf fn n).rcp = d.rcp := rfl
@[simp] theorem setNtf_kft (d : Die) (fn : Nat) (n : NtfState) : (d.setNtf fn n).kft = d.kft := rfl
@[simp] theorem setNtf_mlf (d : Die) (fn : Nat) (n : NtfState) : (d.setNtf fn n).mlf = d.mlf := rfl
@[simp] theorem setNtf_con (d : Die) (fn : Nat) (n : NtfState) : (d.setNtf fn n).con = d.con := rfl
@[simp] theorem setNtf_ntt (d : Die) (fn : Nat) (n : NtfState) : (d.setNtf fn n).ntt = d.ntt := rfl
@[simp] theorem setNtf_key (d : Die) (fn : Nat) (n : NtfState) : (d.setNtf fn n).key = d.key := rfl
@[simp] theorem setNtf_rng (d : Die) (fn : Nat) (n : NtfState) : (d.setNtf fn n).rng = d.rng := rfl
@[simp] theorem setNtf_ten (d : Die) (fn : Nat) (n : NtfState) : (d.setNtf fn n).ten = d.ten := rfl
@[simp] theorem setNtf_tin (d : Die) (fn : Nat) (n : NtfState) : (d.setNtf fn n).tin = d.tin := rfl
@[simp] theorem setNtf_ens (d : Die) (fn : Nat) (n : NtfState) : (d.setNtf fn n).ens = d.ens := rfl
@[simp] theorem setNtf_wld (d : Die) (fn : Nat) (n : NtfState) : (d.setNtf fn n).wld = d.wld := rfl
@[simp] theorem setNtf_tmp (d : Die) (fn : Nat) (n : NtfState) : (d.setNtf fn n).tmp = d.tmp := rfl
@[simp] theorem setNtf_clk (d : Die) (fn : Nat) (n : NtfState) : (d.setNtf fn n).clk = d.clk := rfl
@[simp] theorem setNtf_lcs (d : Die) (fn : Nat) (n : NtfState) : (d.setNtf fn n).lcs = d.lcs := rfl
@[simp] theorem setNtf_evr (d : Die) (fn : Nat) (n : NtfState) : (d.setNtf fn n).evr = d.evr := rfl
@[simp] theorem setNtf_get (d : Die) (fn : Nat) (n : NtfState) (g : Fld) : (d.setNtf fn n).get g = d.get g := rfl
@[simp] theorem setNtf_getAt (d : Die) (fn : Nat) (n : NtfState) (g : Fld) (a : Nat) : (d.setNtf fn n).getAt g a = d.getAt g a := rfl
@[simp] theorem setNtf_getAt2 (d : Die) (fn : Nat) (n : NtfState) (g : Fld) (a b : Nat) : (d.setNtf fn n).getAt2 g a b = d.getAt2 g a b := rfl

/-! ## setCtl -/

@[simp] theorem setCtl_regs (d : Die) (fn : Nat) (c : TenantCtl) : (d.setCtl fn c).regs = d.regs := rfl
@[simp] theorem setCtl_posted (d : Die) (fn : Nat) (c : TenantCtl) : (d.setCtl fn c).posted = d.posted := rfl
@[simp] theorem setCtl_out (d : Die) (fn : Nat) (c : TenantCtl) : (d.setCtl fn c).out = d.out := rfl
@[simp] theorem setCtl_nowMs (d : Die) (fn : Nat) (c : TenantCtl) : (d.setCtl fn c).nowMs = d.nowMs := rfl
@[simp] theorem setCtl_que (d : Die) (fn : Nat) (c : TenantCtl) : (d.setCtl fn c).que = d.que := rfl
@[simp] theorem setCtl_rcp (d : Die) (fn : Nat) (c : TenantCtl) : (d.setCtl fn c).rcp = d.rcp := rfl
@[simp] theorem setCtl_kft (d : Die) (fn : Nat) (c : TenantCtl) : (d.setCtl fn c).kft = d.kft := rfl
@[simp] theorem setCtl_mlf (d : Die) (fn : Nat) (c : TenantCtl) : (d.setCtl fn c).mlf = d.mlf := rfl
@[simp] theorem setCtl_con (d : Die) (fn : Nat) (c : TenantCtl) : (d.setCtl fn c).con = d.con := rfl
@[simp] theorem setCtl_ntt (d : Die) (fn : Nat) (c : TenantCtl) : (d.setCtl fn c).ntt = d.ntt := rfl
@[simp] theorem setCtl_key (d : Die) (fn : Nat) (c : TenantCtl) : (d.setCtl fn c).key = d.key := rfl
@[simp] theorem setCtl_rng (d : Die) (fn : Nat) (c : TenantCtl) : (d.setCtl fn c).rng = d.rng := rfl
@[simp] theorem setCtl_tin (d : Die) (fn : Nat) (c : TenantCtl) : (d.setCtl fn c).tin = d.tin := rfl
@[simp] theorem setCtl_ens (d : Die) (fn : Nat) (c : TenantCtl) : (d.setCtl fn c).ens = d.ens := rfl
@[simp] theorem setCtl_wld (d : Die) (fn : Nat) (c : TenantCtl) : (d.setCtl fn c).wld = d.wld := rfl
@[simp] theorem setCtl_tmp (d : Die) (fn : Nat) (c : TenantCtl) : (d.setCtl fn c).tmp = d.tmp := rfl
@[simp] theorem setCtl_clk (d : Die) (fn : Nat) (c : TenantCtl) : (d.setCtl fn c).clk = d.clk := rfl
@[simp] theorem setCtl_lcs (d : Die) (fn : Nat) (c : TenantCtl) : (d.setCtl fn c).lcs = d.lcs := rfl
@[simp] theorem setCtl_evr (d : Die) (fn : Nat) (c : TenantCtl) : (d.setCtl fn c).evr = d.evr := rfl
@[simp] theorem setCtl_get (d : Die) (fn : Nat) (c : TenantCtl) (g : Fld) : (d.setCtl fn c).get g = d.get g := rfl
@[simp] theorem setCtl_getAt (d : Die) (fn : Nat) (c : TenantCtl) (g : Fld) (a : Nat) : (d.setCtl fn c).getAt g a = d.getAt g a := rfl
@[simp] theorem setCtl_getAt2 (d : Die) (fn : Nat) (c : TenantCtl) (g : Fld) (a b : Nat) : (d.setCtl fn c).getAt2 g a b = d.getAt2 g a b := rfl

/-! ## updCtl -/

@[simp] theorem updCtl_regs (d : Die) (fn : Nat) (f : TenantCtl → TenantCtl) : (d.updCtl fn f).regs = d.regs := rfl
@[simp] theorem updCtl_posted (d : Die) (fn : Nat) (f : TenantCtl → TenantCtl) : (d.updCtl fn f).posted = d.posted := rfl
@[simp] theorem updCtl_out (d : Die) (fn : Nat) (f : TenantCtl → TenantCtl) : (d.updCtl fn f).out = d.out := rfl
@[simp] theorem updCtl_nowMs (d : Die) (fn : Nat) (f : TenantCtl → TenantCtl) : (d.updCtl fn f).nowMs = d.nowMs := rfl
@[simp] theorem updCtl_que (d : Die) (fn : Nat) (f : TenantCtl → TenantCtl) : (d.updCtl fn f).que = d.que := rfl
@[simp] theorem updCtl_rcp (d : Die) (fn : Nat) (f : TenantCtl → TenantCtl) : (d.updCtl fn f).rcp = d.rcp := rfl
@[simp] theorem updCtl_kft (d : Die) (fn : Nat) (f : TenantCtl → TenantCtl) : (d.updCtl fn f).kft = d.kft := rfl
@[simp] theorem updCtl_mlf (d : Die) (fn : Nat) (f : TenantCtl → TenantCtl) : (d.updCtl fn f).mlf = d.mlf := rfl
@[simp] theorem updCtl_con (d : Die) (fn : Nat) (f : TenantCtl → TenantCtl) : (d.updCtl fn f).con = d.con := rfl
@[simp] theorem updCtl_ntt (d : Die) (fn : Nat) (f : TenantCtl → TenantCtl) : (d.updCtl fn f).ntt = d.ntt := rfl
@[simp] theorem updCtl_key (d : Die) (fn : Nat) (f : TenantCtl → TenantCtl) : (d.updCtl fn f).key = d.key := rfl
@[simp] theorem updCtl_rng (d : Die) (fn : Nat) (f : TenantCtl → TenantCtl) : (d.updCtl fn f).rng = d.rng := rfl
@[simp] theorem updCtl_tin (d : Die) (fn : Nat) (f : TenantCtl → TenantCtl) : (d.updCtl fn f).tin = d.tin := rfl
@[simp] theorem updCtl_ens (d : Die) (fn : Nat) (f : TenantCtl → TenantCtl) : (d.updCtl fn f).ens = d.ens := rfl
@[simp] theorem updCtl_wld (d : Die) (fn : Nat) (f : TenantCtl → TenantCtl) : (d.updCtl fn f).wld = d.wld := rfl
@[simp] theorem updCtl_tmp (d : Die) (fn : Nat) (f : TenantCtl → TenantCtl) : (d.updCtl fn f).tmp = d.tmp := rfl
@[simp] theorem updCtl_clk (d : Die) (fn : Nat) (f : TenantCtl → TenantCtl) : (d.updCtl fn f).clk = d.clk := rfl
@[simp] theorem updCtl_lcs (d : Die) (fn : Nat) (f : TenantCtl → TenantCtl) : (d.updCtl fn f).lcs = d.lcs := rfl
@[simp] theorem updCtl_evr (d : Die) (fn : Nat) (f : TenantCtl → TenantCtl) : (d.updCtl fn f).evr = d.evr := rfl
@[simp] theorem updCtl_get (d : Die) (fn : Nat) (f : TenantCtl → TenantCtl) (g : Fld) : (d.updCtl fn f).get g = d.get g := rfl
@[simp] theorem updCtl_getAt (d : Die) (fn : Nat) (f : TenantCtl → TenantCtl) (g : Fld) (a : Nat) : (d.updCtl fn f).getAt g a = d.getAt g a := rfl
@[simp] theorem updCtl_getAt2 (d : Die) (fn : Nat) (f : TenantCtl → TenantCtl) (g : Fld) (a b : Nat) : (d.updCtl fn f).getAt2 g a b = d.getAt2 g a b := rfl

end Sys2Proof.Laws
end

