-- ==== Sys2Proof/Laws/Frames.lean ====
section
/-! SUPPORT. Frames of the shared operations: what signals, events, reports, counts, ring messages and posted writes leave as it
was. -/
namespace Sys2Proof.Laws

open Sys2Proof.Machine

/-- What every step of a fold leaves alone, the fold leaves alone. -/
theorem foldl_frame {ι β : Type} (f : Die → ι → Die) (g : Die → β) (h : ∀ d x, g (f d x) = g d) (l : List ι) :
    ∀ d, g (l.foldl f d) = g d := by
  induction l with
  | nil => intro d; rfl
  | cons x r ih => intro d; rw [List.foldl_cons, ih, h]

/-- Registers read alike where the register files are alike. -/
theorem get_of_regs {d1 d2 : Die} (h : d1.regs = d2.regs) (f : Fld) : d1.get f = d2.get f := by
  simp only [Die.get, Die.getAt2, h]
theorem getAt_of_regs {d1 d2 : Die} (h : d1.regs = d2.regs) (f : Fld) (i : Nat) : d1.getAt f i = d2.getAt f i := by
  simp only [Die.getAt, Die.getAt2, h]
theorem getAt2_of_regs {d1 d2 : Die} (h : d1.regs = d2.regs) (f : Fld) (i j : Nat) : d1.getAt2 f i j = d2.getAt2 f i j := by
  simp only [Die.getAt2, h]

/-! ## count: the counters of spec/17 -/

theorem count_of (P : Die → Die → Prop) (hr : ∀ d, P d d) (ht : ∀ {a b c}, P a b → P b c → P a c)
    (h1 : ∀ (d : Die) (c : List (Nat × Nat)), P d { d with evr := { d.evr with counts := c } })
    (h2 : ∀ (d : Die) (fn k n : Nat), P d (d.wrapAt2 .PMC_TEN_CNT_COUNT fn k n))
    (d : Die) (block event tenant n : Nat) : P d (d.count block event tenant n) := by
  have fold : ∀ {ι : Type} (f : Die → ι → Die) (l : List ι), (∀ d x, P d (f d x)) → ∀ d, P d (l.foldl f d) := by
    intro ι f l hf
    induction l with
    | nil => intro d; exact hr d
    | cons x r ih => intro d; exact ht (hf d x) (ih (f d x))
  have a : P d (if d.has .PMC_CTL_ENABLE then (List.range 52).foldl (fun d k =>
      if d.selCounts k block event tenant
      then { d with evr := { d.evr with counts := tput d.evr.counts k (tget d.evr.counts k + n) } } else d) d else d) := by
    split
    · refine fold _ _ (fun d k => ?_) d
      split
      · exact h1 d _
      · exact hr d
    · exact hr d
  unfold Die.count
  simp only
  split
  · refine ht a (fold _ _ (fun d k => ?_) _)
    split
    · exact h2 d _ _ _
    · exact hr d
  · exact a

@[simp] theorem count_posted (d : Die) (b e t n : Nat) : (d.count b e t n).posted = d.posted :=
  (count_of (fun x y => y.posted = x.posted) (fun _ => rfl) (fun h k => k.trans h) (fun _ _ => rfl) (fun _ _ _ _ => rfl) d b e t n)
@[simp] theorem count_out (d : Die) (b e t n : Nat) : (d.count b e t n).out = d.out :=
  (count_of (fun x y => y.out = x.out) (fun _ => rfl) (fun h k => k.trans h) (fun _ _ => rfl) (fun _ _ _ _ => rfl) d b e t n)
@[simp] theorem count_nowMs (d : Die) (b e t n : Nat) : (d.count b e t n).nowMs = d.nowMs :=
  (count_of (fun x y => y.nowMs = x.nowMs) (fun _ => rfl) (fun h k => k.trans h) (fun _ _ => rfl) (fun _ _ _ _ => rfl) d b e t n)
@[simp] theorem count_que (d : Die) (b e t n : Nat) : (d.count b e t n).que = d.que :=
  (count_of (fun x y => y.que = x.que) (fun _ => rfl) (fun h k => k.trans h) (fun _ _ => rfl) (fun _ _ _ _ => rfl) d b e t n)
@[simp] theorem count_rcp (d : Die) (b e t n : Nat) : (d.count b e t n).rcp = d.rcp :=
  (count_of (fun x y => y.rcp = x.rcp) (fun _ => rfl) (fun h k => k.trans h) (fun _ _ => rfl) (fun _ _ _ _ => rfl) d b e t n)
@[simp] theorem count_kft (d : Die) (b e t n : Nat) : (d.count b e t n).kft = d.kft :=
  (count_of (fun x y => y.kft = x.kft) (fun _ => rfl) (fun h k => k.trans h) (fun _ _ => rfl) (fun _ _ _ _ => rfl) d b e t n)
@[simp] theorem count_mlf (d : Die) (b e t n : Nat) : (d.count b e t n).mlf = d.mlf :=
  (count_of (fun x y => y.mlf = x.mlf) (fun _ => rfl) (fun h k => k.trans h) (fun _ _ => rfl) (fun _ _ _ _ => rfl) d b e t n)
@[simp] theorem count_con (d : Die) (b e t n : Nat) : (d.count b e t n).con = d.con :=
  (count_of (fun x y => y.con = x.con) (fun _ => rfl) (fun h k => k.trans h) (fun _ _ => rfl) (fun _ _ _ _ => rfl) d b e t n)
@[simp] theorem count_ntt (d : Die) (b e t n : Nat) : (d.count b e t n).ntt = d.ntt :=
  (count_of (fun x y => y.ntt = x.ntt) (fun _ => rfl) (fun h k => k.trans h) (fun _ _ => rfl) (fun _ _ _ _ => rfl) d b e t n)
@[simp] theorem count_key (d : Die) (b e t n : Nat) : (d.count b e t n).key = d.key :=
  (count_of (fun x y => y.key = x.key) (fun _ => rfl) (fun h k => k.trans h) (fun _ _ => rfl) (fun _ _ _ _ => rfl) d b e t n)
@[simp] theorem count_rng (d : Die) (b e t n : Nat) : (d.count b e t n).rng = d.rng :=
  (count_of (fun x y => y.rng = x.rng) (fun _ => rfl) (fun h k => k.trans h) (fun _ _ => rfl) (fun _ _ _ _ => rfl) d b e t n)
@[simp] theorem count_ten (d : Die) (b e t n : Nat) : (d.count b e t n).ten = d.ten :=
  (count_of (fun x y => y.ten = x.ten) (fun _ => rfl) (fun h k => k.trans h) (fun _ _ => rfl) (fun _ _ _ _ => rfl) d b e t n)
@[simp] theorem count_tin (d : Die) (b e t n : Nat) : (d.count b e t n).tin = d.tin :=
  (count_of (fun x y => y.tin = x.tin) (fun _ => rfl) (fun h k => k.trans h) (fun _ _ => rfl) (fun _ _ _ _ => rfl) d b e t n)
@[simp] theorem count_ens (d : Die) (b e t n : Nat) : (d.count b e t n).ens = d.ens :=
  (count_of (fun x y => y.ens = x.ens) (fun _ => rfl) (fun h k => k.trans h) (fun _ _ => rfl) (fun _ _ _ _ => rfl) d b e t n)
@[simp] theorem count_wld (d : Die) (b e t n : Nat) : (d.count b e t n).wld = d.wld :=
  (count_of (fun x y => y.wld = x.wld) (fun _ => rfl) (fun h k => k.trans h) (fun _ _ => rfl) (fun _ _ _ _ => rfl) d b e t n)
@[simp] theorem count_tmp (d : Die) (b e t n : Nat) : (d.count b e t n).tmp = d.tmp :=
  (count_of (fun x y => y.tmp = x.tmp) (fun _ => rfl) (fun h k => k.trans h) (fun _ _ => rfl) (fun _ _ _ _ => rfl) d b e t n)
@[simp] theorem count_clk (d : Die) (b e t n : Nat) : (d.count b e t n).clk = d.clk :=
  (count_of (fun x y => y.clk = x.clk) (fun _ => rfl) (fun h k => k.trans h) (fun _ _ => rfl) (fun _ _ _ _ => rfl) d b e t n)
@[simp] theorem count_lcs (d : Die) (b e t n : Nat) : (d.count b e t n).lcs = d.lcs :=
  (count_of (fun x y => y.lcs = x.lcs) (fun _ => rfl) (fun h k => k.trans h) (fun _ _ => rfl) (fun _ _ _ _ => rfl) d b e t n)

/-- Counting changes no register but the tenant counters. -/
theorem count_getAt2 (d : Die) (b e t n : Nat) {g : Fld} (a c : Nat) (h : g ≠ .PMC_TEN_CNT_COUNT) :
    (d.count b e t n).getAt2 g a c = d.getAt2 g a c :=
  count_of (fun x y => y.getAt2 g a c = x.getAt2 g a c) (fun _ => rfl) (fun h k => k.trans h) (fun _ _ => rfl)
    (fun d _ _ _ => getAt2_setAt2_ne d _ _ _ _ _ h) d b e t n
theorem count_getAt (d : Die) (b e t n : Nat) {g : Fld} (a : Nat) (h : g ≠ .PMC_TEN_CNT_COUNT) :
    (d.count b e t n).getAt g a = d.getAt g a := count_getAt2 d b e t n a 0 h
theorem count_get (d : Die) (b e t n : Nat) {g : Fld} (h : g ≠ .PMC_TEN_CNT_COUNT) :
    (d.count b e t n).get g = d.get g := count_getAt2 d b e t n 0 0 h

/-- An event that carries no tenant changes no register. -/
theorem count_regs (d : Die) (b e t n : Nat) (h : eventHasTenant b e = false) : (d.count b e t n).regs = d.regs := by
  unfold Die.count
  simp only [h, Bool.false_and, Bool.false_eq_true, if_false]
  split
  · exact foldl_frame _ Die.regs (fun d k => by split <;> rfl) _ d
  · rfl

/-! ## port -/

@[simp] theorem port_regs (d : Die) (p n : Nat) : (d.port p n).regs = d.regs := by
  unfold Die.port
  split
  · rw [count_regs]
    by_cases h : p < 2
    · simp [h, eventHasTenant]
    · by_cases h2 : p < 6 <;> simp [h, h2, eventHasTenant]
  · rfl
@[simp] theorem port_posted (d : Die) (p n : Nat) : (d.port p n).posted = d.posted := by
  unfold Die.port; split
  · simp
  · rfl
@[simp] theorem port_out (d : Die) (p n : Nat) : (d.port p n).out = d.out := by
  unfold Die.port; split
  · simp
  · rfl
@[simp] theorem port_nowMs (d : Die) (p n : Nat) : (d.port p n).nowMs = d.nowMs := by
  unfold Die.port; split
  · simp
  · rfl
@[simp] theorem port_que (d : Die) (p n : Nat) : (d.port p n).que = d.que := by
  unfold Die.port; split
  · simp
  · rfl
@[simp] theorem port_rcp (d : Die) (p n : Nat) : (d.port p n).rcp = d.rcp := by
  unfold Die.port; split
  · simp
  · rfl
@[simp] theorem port_kft (d : Die) (p n : Nat) : (d.port p n).kft = d.kft := by
  unfold Die.port; split
  · simp
  · rfl
@[simp] theorem port_mlf (d : Die) (p n : Nat) : (d.port p n).mlf = d.mlf := by
  unfold Die.port; split
  · simp
  · rfl
@[simp] theorem port_con (d : Die) (p n : Nat) : (d.port p n).con = d.con := by
  unfold Die.port; split
  · simp
  · rfl
@[simp] theorem port_ntt (d : Die) (p n : Nat) : (d.port p n).ntt = d.ntt := by
  unfold Die.port; split
  · simp
  · rfl
@[simp] theorem port_key (d : Die) (p n : Nat) : (d.port p n).key = d.key := by
  unfold Die.port; split
  · simp
  · rfl
@[simp] theorem port_rng (d : Die) (p n : Nat) : (d.port p n).rng = d.rng := by
  unfold Die.port; split
  · simp
  · rfl
@[simp] theorem port_ten (d : Die) (p n : Nat) : (d.port p n).ten = d.ten := by
  unfold Die.port; split
  · simp
  · rfl
@[simp] theorem port_tin (d : Die) (p n : Nat) : (d.port p n).tin = d.tin := by
  unfold Die.port; split
  · simp
  · rfl
@[simp] theorem port_ens (d : Die) (p n : Nat) : (d.port p n).ens = d.ens := by
  unfold Die.port; split
  · simp
  · rfl
@[simp] theorem port_wld (d : Die) (p n : Nat) : (d.port p n).wld = d.wld := by
  unfold Die.port; split
  · simp
  · rfl
@[simp] theorem port_tmp (d : Die) (p n : Nat) : (d.port p n).tmp = d.tmp := by
  unfold Die.port; split
  · simp
  · rfl
@[simp] theorem port_clk (d : Die) (p n : Nat) : (d.port p n).clk = d.clk := by
  unfold Die.port; split
  · simp
  · rfl
@[simp] theorem port_lcs (d : Die) (p n : Nat) : (d.port p n).lcs = d.lcs := by
  unfold Die.port; split
  · simp
  · rfl
@[simp] theorem port_get (d : Die) (p n : Nat) (g : Fld) : (d.port p n).get g = d.get g := get_of_regs (port_regs d p n) g
@[simp] theorem port_getAt (d : Die) (p n : Nat) (g : Fld) (a : Nat) : (d.port p n).getAt g a = d.getAt g a :=
  getAt_of_regs (port_regs d p n) g a
@[simp] theorem port_getAt2 (d : Die) (p n : Nat) (g : Fld) (a b : Nat) : (d.port p n).getAt2 g a b = d.getAt2 g a b :=
  getAt2_of_regs (port_regs d p n) g a b

/-! ## settle: the end of a command -/

@[simp] theorem settle_regs (d : Die) : d.settle.regs = d.regs := port_regs d 1 _
@[simp] theorem settle_posted (d : Die) : d.settle.posted = [] := rfl
@[simp] theorem settle_out (d : Die) : d.settle.out = d.out := port_out d 1 _
@[simp] theorem settle_nowMs (d : Die) : d.settle.nowMs = d.nowMs := port_nowMs d 1 _
@[simp] theorem settle_que (d : Die) : d.settle.que = d.que := port_que d 1 _
@[simp] theorem settle_rcp (d : Die) : d.settle.rcp = d.rcp := port_rcp d 1 _
@[simp] theorem settle_kft (d : Die) : d.settle.kft = d.kft := port_kft d 1 _
@[simp] theorem settle_mlf (d : Die) : d.settle.mlf = d.mlf := port_mlf d 1 _
@[simp] theorem settle_con (d : Die) : d.settle.con = d.con := port_con d 1 _
@[simp] theorem settle_ntt (d : Die) : d.settle.ntt = d.ntt := port_ntt d 1 _
@[simp] theorem settle_key (d : Die) : d.settle.key = d.key := port_key d 1 _
@[simp] theorem settle_rng (d : Die) : d.settle.rng = d.rng := port_rng d 1 _
@[simp] theorem settle_ten (d : Die) : d.settle.ten = d.ten := port_ten d 1 _
@[simp] theorem settle_tin (d : Die) : d.settle.tin = d.tin := port_tin d 1 _
@[simp] theorem settle_ens (d : Die) : d.settle.ens = d.ens := port_ens d 1 _
@[simp] theorem settle_wld (d : Die) : d.settle.wld = d.wld := port_wld d 1 _
@[simp] theorem settle_tmp (d : Die) : d.settle.tmp = d.tmp := port_tmp d 1 _
@[simp] theorem settle_clk (d : Die) : d.settle.clk = d.clk := port_clk d 1 _
@[simp] theorem settle_lcs (d : Die) : d.settle.lcs = d.lcs := port_lcs d 1 _
@[simp] theorem settle_get (d : Die) (g : Fld) : d.settle.get g = d.get g := port_get d 1 _ _
@[simp] theorem settle_getAt (d : Die) (g : Fld) (a : Nat) : d.settle.getAt g a = d.getAt g a := port_getAt d 1 _ _ _
@[simp] theorem settle_getAt2 (d : Die) (g : Fld) (a b : Nat) : d.settle.getAt2 g a b = d.getAt2 g a b := port_getAt2 d 1 _ _ _ _

/-! ## signal -/

@[simp] theorem signal_regs (d : Die) (fn v : Nat) : (d.signal fn v).regs = d.regs := by
  unfold Die.signal; simp only; split <;> rfl
@[simp] theorem signal_posted (d : Die) (fn v : Nat) : (d.signal fn v).posted = d.posted := by
  unfold Die.signal; simp only; split <;> rfl
@[simp] theorem signal_nowMs (d : Die) (fn v : Nat) : (d.signal fn v).nowMs = d.nowMs := by
  unfold Die.signal; simp only; split <;> rfl
@[simp] theorem signal_rcp (d : Die) (fn v : Nat) : (d.signal fn v).rcp = d.rcp := by
  unfold Die.signal; simp only; split <;> rfl
@[simp] theorem signal_kft (d : Die) (fn v : Nat) : (d.signal fn v).kft = d.kft := by
  unfold Die.signal; simp only; split <;> rfl
@[simp] theorem signal_mlf (d : Die) (fn v : Nat) : (d.signal fn v).mlf = d.mlf := by
  unfold Die.signal; simp only; split <;> rfl
@[simp] theorem signal_con (d : Die) (fn v : Nat) : (d.signal fn v).con = d.con := by
  unfold Die.signal; simp only; split <;> rfl
@[simp] theorem signal_ntt (d : Die) (fn v : Nat) : (d.signal fn v).ntt = d.ntt := by
  unfold Die.signal; simp only; split <;> rfl
@[simp] theorem signal_key (d : Die) (fn v : Nat) : (d.signal fn v).key = d.key := by
  unfold Die.signal; simp only; split <;> rfl
@[simp] theorem signal_rng (d : Die) (fn v : Nat) : (d.signal fn v).rng = d.rng := by
  unfold Die.signal; simp only; split <;> rfl
@[simp] theorem signal_ten (d : Die) (fn v : Nat) : (d.signal fn v).ten = d.ten := by
  unfold Die.signal; simp only; split <;> rfl
@[simp] theorem signal_tin (d : Die) (fn v : Nat) : (d.signal fn v).tin = d.tin := by
  unfold Die.signal; simp only; split <;> rfl
@[simp] theorem signal_ens (d : Die) (fn v : Nat) : (d.signal fn v).ens = d.ens := by
  unfold Die.signal; simp only; split <;> rfl
@[simp] theorem signal_wld (d : Die) (fn v : Nat) : (d.signal fn v).wld = d.wld := by
  unfold Die.signal; simp only; split <;> rfl
@[simp] theorem signal_tmp (d : Die) (fn v : Nat) : (d.signal fn v).tmp = d.tmp := by
  unfold Die.signal; simp only; split <;> rfl
@[simp] theorem signal_clk (d : Die) (fn v : Nat) : (d.signal fn v).clk = d.clk := by
  unfold Die.signal; simp only; split <;> rfl
@[simp] theorem signal_lcs (d : Die) (fn v : Nat) : (d.signal fn v).lcs = d.lcs := by
  unfold Die.signal; simp only; split <;> rfl
@[simp] theorem signal_evr (d : Die) (fn v : Nat) : (d.signal fn v).evr = d.evr := by
  unfold Die.signal; simp only; split <;> rfl
@[simp] theorem signal_get (d : Die) (fn v : Nat) (g : Fld) : (d.signal fn v).get g = d.get g := get_of_regs (signal_regs d fn v) g
@[simp] theorem signal_getAt (d : Die) (fn v : Nat) (g : Fld) (a : Nat) : (d.signal fn v).getAt g a = d.getAt g a := getAt_of_regs (signal_regs d fn v) g a
@[simp] theorem signal_getAt2 (d : Die) (fn v : Nat) (g : Fld) (a b : Nat) : (d.signal fn v).getAt2 g a b = d.getAt2 g a b := getAt2_of_regs (signal_regs d fn v) g a b

/-- A signal sets or clears a pending bit: the requests, ring pairs and notification rings are as they were. -/
theorem signal_que (d : Die) (fn v : Nat) : (d.signal fn v).que = { d.que with msix := (d.signal fn v).que.msix } := by
  unfold Die.signal; simp only; split <;> rfl
@[simp] theorem signal_reqs (d : Die) (fn v : Nat) : (d.signal fn v).que.reqs = d.que.reqs := by rw [signal_que]

/-! ## event -/

@[simp] theorem event_posted (d : Die) (ev : Fld) : (d.event ev).posted = d.posted := by
  unfold Die.event; simp only; split <;> (try split) <;> simp
@[simp] theorem event_nowMs (d : Die) (ev : Fld) : (d.event ev).nowMs = d.nowMs := by
  unfold Die.event; simp only; split <;> (try split) <;> simp
@[simp] theorem event_rcp (d : Die) (ev : Fld) : (d.event ev).rcp = d.rcp := by
  unfold Die.event; simp only; split <;> (try split) <;> simp
@[simp] theorem event_kft (d : Die) (ev : Fld) : (d.event ev).kft = d.kft := by
  unfold Die.event; simp only; split <;> (try split) <;> simp
@[simp] theorem event_mlf (d : Die) (ev : Fld) : (d.event ev).mlf = d.mlf := by
  unfold Die.event; simp only; split <;> (try split) <;> simp
@[simp] theorem event_con (d : Die) (ev : Fld) : (d.event ev).con = d.con := by
  unfold Die.event; simp only; split <;> (try split) <;> simp
@[simp] theorem event_ntt (d : Die) (ev : Fld) : (d.event ev).ntt = d.ntt := by
  unfold Die.event; simp only; split <;> (try split) <;> simp
@[simp] theorem event_key (d : Die) (ev : Fld) : (d.event ev).key = d.key := by
  unfold Die.event; simp only; split <;> (try split) <;> simp
@[simp] theorem event_rng (d : Die) (ev : Fld) : (d.event ev).rng = d.rng := by
  unfold Die.event; simp only; split <;> (try split) <;> simp
@[simp] theorem event_ten (d : Die) (ev : Fld) : (d.event ev).ten = d.ten := by
  unfold Die.event; simp only; split <;> (try split) <;> simp
@[simp] theorem event_tin (d : Die) (ev : Fld) : (d.event ev).tin = d.tin := by
  unfold Die.event; simp only; split <;> (try split) <;> simp
@[simp] theorem event_ens (d : Die) (ev : Fld) : (d.event ev).ens = d.ens := by
  unfold Die.event; simp only; split <;> (try split) <;> simp
@[simp] theorem event_wld (d : Die) (ev : Fld) : (d.event ev).wld = d.wld := by
  unfold Die.event; simp only; split <;> (try split) <;> simp
@[simp] theorem event_tmp (d : Die) (ev : Fld) : (d.event ev).tmp = d.tmp := by
  unfold Die.event; simp only; split <;> (try split) <;> simp
@[simp] theorem event_clk (d : Die) (ev : Fld) : (d.event ev).clk = d.clk := by
  unfold Die.event; simp only; split <;> (try split) <;> simp
@[simp] theorem event_lcs (d : Die) (ev : Fld) : (d.event ev).lcs = d.lcs := by
  unfold Die.event; simp only; split <;> (try split) <;> simp
@[simp] theorem event_evr (d : Die) (ev : Fld) : (d.event ev).evr = d.evr := by
  unfold Die.event; simp only; split <;> (try split) <;> simp
@[simp] theorem event_reqs (d : Die) (ev : Fld) : (d.event ev).que.reqs = d.que.reqs := by
  unfold Die.event; simp only; split <;> (try split) <;> simp

/-- The registers after an event: its bit is set. -/
theorem event_regs (d : Die) (ev : Fld) : (d.event ev).regs = (d.set ev 1).regs := by
  unfold Die.event; simp only; split <;> (try split) <;> simp

@[simp] theorem event_get (d : Die) (ev g : Fld) : (d.event ev).get g = if g = ev then 1 % 2 ^ ev.width else d.get g := by
  rw [get_of_regs (event_regs d ev), get_set]
@[simp] theorem event_getAt (d : Die) (ev g : Fld) (a : Nat) :
    (d.event ev).getAt g a = if g = ev ∧ a % 65536 = 0 then 1 % 2 ^ ev.width else d.getAt g a := by
  rw [getAt_of_regs (event_regs d ev), getAt_set]
@[simp] theorem event_getAt2 (d : Die) (ev g : Fld) (a b : Nat) :
    (d.event ev).getAt2 g a b = if g = ev ∧ a % 65536 = 0 ∧ b % 65536 = 0 then 1 % 2 ^ ev.width else d.getAt2 g a b := by
  rw [getAt2_of_regs (event_regs d ev), getAt2_set]

/-! ## report -/

@[simp] theorem report_posted (d : Die) (e : Env) (r : Report) : (d.report e r).posted = d.posted := by
  unfold Die.report; repeat' split
  all_goals simp
@[simp] theorem report_nowMs (d : Die) (e : Env) (r : Report) : (d.report e r).nowMs = d.nowMs := by
  unfold Die.report; repeat' split
  all_goals simp
@[simp] theorem report_rcp (d : Die) (e : Env) (r : Report) : (d.report e r).rcp = d.rcp := by
  unfold Die.report; repeat' split
  all_goals simp
@[simp] theorem report_kft (d : Die) (e : Env) (r : Report) : (d.report e r).kft = d.kft := by
  unfold Die.report; repeat' split
  all_goals simp
@[simp] theorem report_mlf (d : Die) (e : Env) (r : Report) : (d.report e r).mlf = d.mlf := by
  unfold Die.report; repeat' split
  all_goals simp
@[simp] theorem report_con (d : Die) (e : Env) (r : Report) : (d.report e r).con = d.con := by
  unfold Die.report; repeat' split
  all_goals simp
@[simp] theorem report_ntt (d : Die) (e : Env) (r : Report) : (d.report e r).ntt = d.ntt := by
  unfold Die.report; repeat' split
  all_goals simp
@[simp] theorem report_key (d : Die) (e : Env) (r : Report) : (d.report e r).key = d.key := by
  unfold Die.report; repeat' split
  all_goals simp
@[simp] theorem report_rng (d : Die) (e : Env) (r : Report) : (d.report e r).rng = d.rng := by
  unfold Die.report; repeat' split
  all_goals simp
@[simp] theorem report_ten (d : Die) (e : Env) (r : Report) : (d.report e r).ten = d.ten := by
  unfold Die.report; repeat' split
  all_goals simp
@[simp] theorem report_tin (d : Die) (e : Env) (r : Report) : (d.report e r).tin = d.tin := by
  unfold Die.report; repeat' split
  all_goals simp
@[simp] theorem report_ens (d : Die) (e : Env) (r : Report) : (d.report e r).ens = d.ens := by
  unfold Die.report; repeat' split
  all_goals simp
@[simp] theorem report_wld (d : Die) (e : Env) (r : Report) : (d.report e r).wld = d.wld := by
  unfold Die.report; repeat' split
  all_goals simp
@[simp] theorem report_tmp (d : Die) (e : Env) (r : Report) : (d.report e r).tmp = d.tmp := by
  unfold Die.report; repeat' split
  all_goals simp
@[simp] theorem report_clk (d : Die) (e : Env) (r : Report) : (d.report e r).clk = d.clk := by
  unfold Die.report; repeat' split
  all_goals simp
@[simp] theorem report_lcs (d : Die) (e : Env) (r : Report) : (d.report e r).lcs = d.lcs := by
  unfold Die.report; repeat' split
  all_goals simp
@[simp] theorem report_reqs (d : Die) (e : Env) (r : Report) : (d.report e r).que.reqs = d.que.reqs := by
  unfold Die.report; repeat' split
  all_goals simp

/-- A report changes no register but the loss counter and its event. -/
theorem report_getAt2 (d : Die) (e : Env) (r : Report) {g : Fld} (a b : Nat) (h1 : g ≠ .EVR_LOST_VALUE) (h2 : g ≠ .EVR_EVENT_LOST) :
    (d.report e r).getAt2 g a b = d.getAt2 g a b := by
  unfold Die.report
  repeat' split
  all_goals first
    | rfl
    | simp [h2, Die.add, Die.addAt2, getAt2_setAt2, h1]
theorem report_getAt (d : Die) (e : Env) (r : Report) {g : Fld} (a : Nat) (h1 : g ≠ .EVR_LOST_VALUE) (h2 : g ≠ .EVR_EVENT_LOST) :
    (d.report e r).getAt g a = d.getAt g a := report_getAt2 d e r a 0 h1 h2
theorem report_get (d : Die) (e : Env) (r : Report) {g : Fld} (h1 : g ≠ .EVR_LOST_VALUE) (h2 : g ≠ .EVR_EVENT_LOST) :
    (d.report e r).get g = d.get g := report_getAt2 d e r 0 0 h1 h2

@[simp] theorem reportOf_posted (d : Die) (e : Env) (c : Nat) : (d.reportOf e c).posted = d.posted := report_posted d e _
@[simp] theorem reportOf_nowMs (d : Die) (e : Env) (c : Nat) : (d.reportOf e c).nowMs = d.nowMs := report_nowMs d e _
@[simp] theorem reportOf_rcp (d : Die) (e : Env) (c : Nat) : (d.reportOf e c).rcp = d.rcp := report_rcp d e _
@[simp] theorem reportOf_kft (d : Die) (e : Env) (c : Nat) : (d.reportOf e c).kft = d.kft := report_kft d e _
@[simp] theorem reportOf_mlf (d : Die) (e : Env) (c : Nat) : (d.reportOf e c).mlf = d.mlf := report_mlf d e _
@[simp] theorem reportOf_con (d : Die) (e : Env) (c : Nat) : (d.reportOf e c).con = d.con := report_con d e _
@[simp] theorem reportOf_ntt (d : Die) (e : Env) (c : Nat) : (d.reportOf e c).ntt = d.ntt := report_ntt d e _
@[simp] theorem reportOf_key (d : Die) (e : Env) (c : Nat) : (d.reportOf e c).key = d.key := report_key d e _
@[simp] theorem reportOf_rng (d : Die) (e : Env) (c : Nat) : (d.reportOf e c).rng = d.rng := report_rng d e _
@[simp] theorem reportOf_ten (d : Die) (e : Env) (c : Nat) : (d.reportOf e c).ten = d.ten := report_ten d e _
@[simp] theorem reportOf_tin (d : Die) (e : Env) (c : Nat) : (d.reportOf e c).tin = d.tin := report_tin d e _
@[simp] theorem reportOf_ens (d : Die) (e : Env) (c : Nat) : (d.reportOf e c).ens = d.ens := report_ens d e _
@[simp] theorem reportOf_wld (d : Die) (e : Env) (c : Nat) : (d.reportOf e c).wld = d.wld := report_wld d e _
@[simp] theorem reportOf_tmp (d : Die) (e : Env) (c : Nat) : (d.reportOf e c).tmp = d.tmp := report_tmp d e _
@[simp] theorem reportOf_clk (d : Die) (e : Env) (c : Nat) : (d.reportOf e c).clk = d.clk := report_clk d e _
@[simp] theorem reportOf_lcs (d : Die) (e : Env) (c : Nat) : (d.reportOf e c).lcs = d.lcs := report_lcs d e _
@[simp] theorem reportOf_reqs (d : Die) (e : Env) (c : Nat) : (d.reportOf e c).que.reqs = d.que.reqs := report_reqs d e _
theorem reportOf_getAt (d : Die) (e : Env) (c : Nat) {g : Fld} (a : Nat) (h1 : g ≠ .EVR_LOST_VALUE) (h2 : g ≠ .EVR_EVENT_LOST) :
    (d.reportOf e c).getAt g a = d.getAt g a := report_getAt2 d e _ a 0 h1 h2
theorem reportOf_get (d : Die) (e : Env) (c : Nat) {g : Fld} (h1 : g ≠ .EVR_LOST_VALUE) (h2 : g ≠ .EVR_EVENT_LOST) :
    (d.reportOf e c).get g = d.get g := report_getAt2 d e _ 0 0 h1 h2

/-! ## Ring messages -/

@[simp] theorem onLink_regs (d : Die) (b : Bool) (n : Nat) : (d.onLink b n).regs = d.regs := by
  unfold Die.onLink; cases b <;> simp
@[simp] theorem onLink_posted (d : Die) (b : Bool) (n : Nat) : (d.onLink b n).posted = d.posted := by
  unfold Die.onLink; cases b <;> simp
@[simp] theorem onLink_out (d : Die) (b : Bool) (n : Nat) : (d.onLink b n).out = d.out := by
  unfold Die.onLink; cases b <;> simp
@[simp] theorem onLink_nowMs (d : Die) (b : Bool) (n : Nat) : (d.onLink b n).nowMs = d.nowMs := by
  unfold Die.onLink; cases b <;> simp
@[simp] theorem onLink_que (d : Die) (b : Bool) (n : Nat) : (d.onLink b n).que = d.que := by
  unfold Die.onLink; cases b <;> simp
@[simp] theorem onLink_rcp (d : Die) (b : Bool) (n : Nat) : (d.onLink b n).rcp = d.rcp := by
  unfold Die.onLink; cases b <;> simp
@[simp] theorem onLink_kft (d : Die) (b : Bool) (n : Nat) : (d.onLink b n).kft = d.kft := by
  unfold Die.onLink; cases b <;> simp
@[simp] theorem onLink_mlf (d : Die) (b : Bool) (n : Nat) : (d.onLink b n).mlf = d.mlf := by
  unfold Die.onLink; cases b <;> simp
@[simp] theorem onLink_con (d : Die) (b : Bool) (n : Nat) : (d.onLink b n).con = d.con := by
  unfold Die.onLink; cases b <;> simp
@[simp] theorem onLink_ntt (d : Die) (b : Bool) (n : Nat) : (d.onLink b n).ntt = d.ntt := by
  unfold Die.onLink; cases b <;> simp
@[simp] theorem onLink_key (d : Die) (b : Bool) (n : Nat) : (d.onLink b n).key = d.key := by
  unfold Die.onLink; cases b <;> simp
@[simp] theorem onLink_rng (d : Die) (b : Bool) (n : Nat) : (d.onLink b n).rng = d.rng := by
  unfold Die.onLink; cases b <;> simp
@[simp] theorem onLink_ten (d : Die) (b : Bool) (n : Nat) : (d.onLink b n).ten = d.ten := by
  unfold Die.onLink; cases b <;> simp
@[simp] theorem onLink_tin (d : Die) (b : Bool) (n : Nat) : (d.onLink b n).tin = d.tin := by
  unfold Die.onLink; cases b <;> simp
@[simp] theorem onLink_wld (d : Die) (b : Bool) (n : Nat) : (d.onLink b n).wld = d.wld := by
  unfold Die.onLink; cases b <;> simp
@[simp] theorem onLink_tmp (d : Die) (b : Bool) (n : Nat) : (d.onLink b n).tmp = d.tmp := by
  unfold Die.onLink; cases b <;> simp
@[simp] theorem onLink_clk (d : Die) (b : Bool) (n : Nat) : (d.onLink b n).clk = d.clk := by
  unfold Die.onLink; cases b <;> simp
@[simp] theorem onLink_lcs (d : Die) (b : Bool) (n : Nat) : (d.onLink b n).lcs = d.lcs := by
  unfold Die.onLink; cases b <;> simp
@[simp] theorem sendRing_regs (d : Die) (k : RingKind) (q : Option Nat) (b : Bytes) : (d.sendRing k q b).regs = d.regs := by
  unfold Die.sendRing; simp only; split
  · rfl
  · rw [foldl_frame _ Die.regs (fun d x => onLink_regs d x _)]; rfl
@[simp] theorem sendRing_posted (d : Die) (k : RingKind) (q : Option Nat) (b : Bytes) : (d.sendRing k q b).posted = d.posted := by
  unfold Die.sendRing; simp only; split
  · rfl
  · rw [foldl_frame _ Die.posted (fun d x => onLink_posted d x _)]; rfl
@[simp] theorem sendRing_nowMs (d : Die) (k : RingKind) (q : Option Nat) (b : Bytes) : (d.sendRing k q b).nowMs = d.nowMs := by
  unfold Die.sendRing; simp only; split
  · rfl
  · rw [foldl_frame _ Die.nowMs (fun d x => onLink_nowMs d x _)]; rfl
@[simp] theorem sendRing_que (d : Die) (k : RingKind) (q : Option Nat) (b : Bytes) : (d.sendRing k q b).que = d.que := by
  unfold Die.sendRing; simp only; split
  · rfl
  · rw [foldl_frame _ Die.que (fun d x => onLink_que d x _)]; rfl
@[simp] theorem sendRing_rcp (d : Die) (k : RingKind) (q : Option Nat) (b : Bytes) : (d.sendRing k q b).rcp = d.rcp := by
  unfold Die.sendRing; simp only; split
  · rfl
  · rw [foldl_frame _ Die.rcp (fun d x => onLink_rcp d x _)]; rfl
@[simp] theorem sendRing_kft (d : Die) (k : RingKind) (q : Option Nat) (b : Bytes) : (d.sendRing k q b).kft = d.kft := by
  unfold Die.sendRing; simp only; split
  · rfl
  · rw [foldl_frame _ Die.kft (fun d x => onLink_kft d x _)]; rfl
@[simp] theorem sendRing_mlf (d : Die) (k : RingKind) (q : Option Nat) (b : Bytes) : (d.sendRing k q b).mlf = d.mlf := by
  unfold Die.sendRing; simp only; split
  · rfl
  · rw [foldl_frame _ Die.mlf (fun d x => onLink_mlf d x _)]; rfl
@[simp] theorem sendRing_con (d : Die) (k : RingKind) (q : Option Nat) (b : Bytes) : (d.sendRing k q b).con = d.con := by
  unfold Die.sendRing; simp only; split
  · rfl
  · rw [foldl_frame _ Die.con (fun d x => onLink_con d x _)]; rfl
@[simp] theorem sendRing_ntt (d : Die) (k : RingKind) (q : Option Nat) (b : Bytes) : (d.sendRing k q b).ntt = d.ntt := by
  unfold Die.sendRing; simp only; split
  · rfl
  · rw [foldl_frame _ Die.ntt (fun d x => onLink_ntt d x _)]; rfl
@[simp] theorem sendRing_key (d : Die) (k : RingKind) (q : Option Nat) (b : Bytes) : (d.sendRing k q b).key = d.key := by
  unfold Die.sendRing; simp only; split
  · rfl
  · rw [foldl_frame _ Die.key (fun d x => onLink_key d x _)]; rfl
@[simp] theorem sendRing_rng (d : Die) (k : RingKind) (q : Option Nat) (b : Bytes) : (d.sendRing k q b).rng = d.rng := by
  unfold Die.sendRing; simp only; split
  · rfl
  · rw [foldl_frame _ Die.rng (fun d x => onLink_rng d x _)]; rfl
@[simp] theorem sendRing_ten (d : Die) (k : RingKind) (q : Option Nat) (b : Bytes) : (d.sendRing k q b).ten = d.ten := by
  unfold Die.sendRing; simp only; split
  · rfl
  · rw [foldl_frame _ Die.ten (fun d x => onLink_ten d x _)]; rfl
@[simp] theorem sendRing_tin (d : Die) (k : RingKind) (q : Option Nat) (b : Bytes) : (d.sendRing k q b).tin = d.tin := by
  unfold Die.sendRing; simp only; split
  · rfl
  · rw [foldl_frame _ Die.tin (fun d x => onLink_tin d x _)]; rfl
@[simp] theorem sendRing_wld (d : Die) (k : RingKind) (q : Option Nat) (b : Bytes) : (d.sendRing k q b).wld = d.wld := by
  unfold Die.sendRing; simp only; split
  · rfl
  · rw [foldl_frame _ Die.wld (fun d x => onLink_wld d x _)]; rfl
@[simp] theorem sendRing_tmp (d : Die) (k : RingKind) (q : Option Nat) (b : Bytes) : (d.sendRing k q b).tmp = d.tmp := by
  unfold Die.sendRing; simp only; split
  · rfl
  · rw [foldl_frame _ Die.tmp (fun d x => onLink_tmp d x _)]; rfl
@[simp] theorem sendRing_clk (d : Die) (k : RingKind) (q : Option Nat) (b : Bytes) : (d.sendRing k q b).clk = d.clk := by
  unfold Die.sendRing; simp only; split
  · rfl
  · rw [foldl_frame _ Die.clk (fun d x => onLink_clk d x _)]; rfl
@[simp] theorem sendRing_lcs (d : Die) (k : RingKind) (q : Option Nat) (b : Bytes) : (d.sendRing k q b).lcs = d.lcs := by
  unfold Die.sendRing; simp only; split
  · rfl
  · rw [foldl_frame _ Die.lcs (fun d x => onLink_lcs d x _)]; rfl
@[simp] theorem sendRing_get (d : Die) (k : RingKind) (q : Option Nat) (b : Bytes) (g : Fld) : (d.sendRing k q b).get g = d.get g :=
  get_of_regs (sendRing_regs d k q b) g
@[simp] theorem sendRing_getAt (d : Die) (k : RingKind) (q : Option Nat) (b : Bytes) (g : Fld) (a : Nat) : (d.sendRing k q b).getAt g a = d.getAt g a :=
  getAt_of_regs (sendRing_regs d k q b) g a
@[simp] theorem sendRing_getAt2 (d : Die) (k : RingKind) (q : Option Nat) (b : Bytes) (g : Fld) (a c : Nat) : (d.sendRing k q b).getAt2 g a c = d.getAt2 g a c :=
  getAt2_of_regs (sendRing_regs d k q b) g a c

/-! ## Posted writes -/

@[simp] theorem dmaWrite_regs (d : Die) (a : Nat) (b : Bytes) : (d.dmaWrite a b).regs = d.regs := by unfold Die.dmaWrite; split <;> rfl
@[simp] theorem dmaWrite_out (d : Die) (a : Nat) (b : Bytes) : (d.dmaWrite a b).out = d.out := by unfold Die.dmaWrite; split <;> rfl
@[simp] theorem dmaWrite_nowMs (d : Die) (a : Nat) (b : Bytes) : (d.dmaWrite a b).nowMs = d.nowMs := by unfold Die.dmaWrite; split <;> rfl
@[simp] theorem dmaWrite_que (d : Die) (a : Nat) (b : Bytes) : (d.dmaWrite a b).que = d.que := by unfold Die.dmaWrite; split <;> rfl
@[simp] theorem dmaWrite_rcp (d : Die) (a : Nat) (b : Bytes) : (d.dmaWrite a b).rcp = d.rcp := by unfold Die.dmaWrite; split <;> rfl
@[simp] theorem dmaWrite_kft (d : Die) (a : Nat) (b : Bytes) : (d.dmaWrite a b).kft = d.kft := by unfold Die.dmaWrite; split <;> rfl
@[simp] theorem dmaWrite_mlf (d : Die) (a : Nat) (b : Bytes) : (d.dmaWrite a b).mlf = d.mlf := by unfold Die.dmaWrite; split <;> rfl
@[simp] theorem dmaWrite_con (d : Die) (a : Nat) (b : Bytes) : (d.dmaWrite a b).con = d.con := by unfold Die.dmaWrite; split <;> rfl
@[simp] theorem dmaWrite_ntt (d : Die) (a : Nat) (b : Bytes) : (d.dmaWrite a b).ntt = d.ntt := by unfold Die.dmaWrite; split <;> rfl
@[simp] theorem dmaWrite_key (d : Die) (a : Nat) (b : Bytes) : (d.dmaWrite a b).key = d.key := by unfold Die.dmaWrite; split <;> rfl
@[simp] theorem dmaWrite_rng (d : Die) (a : Nat) (b : Bytes) : (d.dmaWrite a b).rng = d.rng := by unfold Die.dmaWrite; split <;> rfl
@[simp] theorem dmaWrite_ten (d : Die) (a : Nat) (b : Bytes) : (d.dmaWrite a b).ten = d.ten := by unfold Die.dmaWrite; split <;> rfl
@[simp] theorem dmaWrite_tin (d : Die) (a : Nat) (b : Bytes) : (d.dmaWrite a b).tin = d.tin := by unfold Die.dmaWrite; split <;> rfl
@[simp] theorem dmaWrite_ens (d : Die) (a : Nat) (b : Bytes) : (d.dmaWrite a b).ens = d.ens := by unfold Die.dmaWrite; split <;> rfl
@[simp] theorem dmaWrite_wld (d : Die) (a : Nat) (b : Bytes) : (d.dmaWrite a b).wld = d.wld := by unfold Die.dmaWrite; split <;> rfl
@[simp] theorem dmaWrite_tmp (d : Die) (a : Nat) (b : Bytes) : (d.dmaWrite a b).tmp = d.tmp := by unfold Die.dmaWrite; split <;> rfl
@[simp] theorem dmaWrite_clk (d : Die) (a : Nat) (b : Bytes) : (d.dmaWrite a b).clk = d.clk := by unfold Die.dmaWrite; split <;> rfl
@[simp] theorem dmaWrite_lcs (d : Die) (a : Nat) (b : Bytes) : (d.dmaWrite a b).lcs = d.lcs := by unfold Die.dmaWrite; split <;> rfl
@[simp] theorem dmaWrite_evr (d : Die) (a : Nat) (b : Bytes) : (d.dmaWrite a b).evr = d.evr := by unfold Die.dmaWrite; split <;> rfl
@[simp] theorem dmaWrite_get (d : Die) (a : Nat) (b : Bytes) (g : Fld) : (d.dmaWrite a b).get g = d.get g :=
  get_of_regs (dmaWrite_regs d a b) g
@[simp] theorem dmaWrite_getAt (d : Die) (a : Nat) (b : Bytes) (g : Fld) (p : Nat) : (d.dmaWrite a b).getAt g p = d.getAt g p :=
  getAt_of_regs (dmaWrite_regs d a b) g p
@[simp] theorem dmaWrite_getAt2 (d : Die) (a : Nat) (b : Bytes) (g : Fld) (p q : Nat) : (d.dmaWrite a b).getAt2 g p q = d.getAt2 g p q :=
  getAt2_of_regs (dmaWrite_regs d a b) g p q

end Sys2Proof.Laws
end

