-- ==== Sys2Proof/Laws/Keeps.lean ====
section
/-! SUPPORT. A calculus of frames: `Keeps bs fs a b` is built up along the operations that lead from die `a` to die `b`. Each lemma
`keeps_<operation>` takes what holds up to the operation, and asks that the blocks and fields which it changes are listed. -/
namespace Sys2Proof.Laws

open Sys2Proof.Machine Sys2Proof.Safety

variable {bs : List Block} {fs : List Fld} {a d : Die}

theorem keeps_refl (d : Die) : Keeps bs fs d d := ⟨fun k _ => by cases k <;> rfl, fun _ _ _ _ => rfl⟩

theorem keeps_trans {b c : Die} (h1 : Keeps bs fs a b) (h2 : Keeps bs fs b c) : Keeps bs fs a c := by
  refine ⟨fun k hk => ?_, fun f i j hf => (h2.2 f i j hf).trans (h1.2 f i j hf)⟩
  have x := h1.1 k hk
  have y := h2.1 k hk
  cases k <;> exact Eq.trans y x

theorem keeps_mono {bs' : List Block} {fs' : List Fld} {b : Die} (h : Keeps bs fs a b) (hb : ∀ k ∈ bs, k ∈ bs') (hf : ∀ f ∈ fs, f ∈ fs') :
    Keeps bs' fs' a b :=
  ⟨fun k hk => h.1 k fun x => hk (hb k x), fun f i j x => h.2 f i j fun y => x (hf f y)⟩

theorem keeps_ite {c : Prop} [Decidable c] {x y : Die} (h1 : c → Keeps bs fs a x) (h2 : ¬c → Keeps bs fs a y) :
    Keeps bs fs a (if c then x else y) := by
  split
  · exact h1 ‹_›
  · exact h2 ‹_›

theorem keeps_foldl {ι : Type} (f : Die → ι → Die) (l : List ι) (hf : ∀ b x, Keeps bs fs b (f b x)) :
    ∀ d, Keeps bs fs a d → Keeps bs fs a (l.foldl f d) := by
  induction l with
  | nil => intro d h; exact h
  | cons x r ih => intro d h; exact ih _ (keeps_trans h (hf d x))

/-- Blocks that a change does not touch, and fields that it does not touch. -/
theorem keeps_step {b : Die} (h : Keeps bs fs a d) (hb : ∀ k, k ∉ bs → k.Same d b) (hr : RegsBut fs d b) : Keeps bs fs a b :=
  keeps_trans h ⟨hb, hr⟩

/-! ## One block is replaced -/

theorem keeps_mem (h : Keeps bs fs a d) (hb : Block.mem ∈ bs) (x : List (Nat × Bytes)) : Keeps bs fs a { d with posted := x } :=
  keeps_step h (fun k hk => by cases k <;> first | rfl | exact absurd hb hk) fun _ _ _ _ => rfl
theorem keeps_out (h : Keeps bs fs a d) (hb : Block.out ∈ bs) (x : List Output) : Keeps bs fs a { d with out := x } :=
  keeps_step h (fun k hk => by cases k <;> first | rfl | exact absurd hb hk) fun _ _ _ _ => rfl
theorem keeps_nowMs (h : Keeps bs fs a d) (hb : Block.nowMs ∈ bs) (x : Nat) : Keeps bs fs a { d with nowMs := x } :=
  keeps_step h (fun k hk => by cases k <;> first | rfl | exact absurd hb hk) fun _ _ _ _ => rfl
theorem keeps_que (h : Keeps bs fs a d) (hb : Block.que ∈ bs) (x : QueState) : Keeps bs fs a { d with que := x } :=
  keeps_step h (fun k hk => by cases k <;> first | rfl | exact absurd hb hk) fun _ _ _ _ => rfl
theorem keeps_rcp (h : Keeps bs fs a d) (hb : Block.rcp ∈ bs) (x : RecState) : Keeps bs fs a { d with rcp := x } :=
  keeps_step h (fun k hk => by cases k <;> first | rfl | exact absurd hb hk) fun _ _ _ _ => rfl
theorem keeps_kft (h : Keeps bs fs a d) (hb : Block.kft ∈ bs) (x : KftState) : Keeps bs fs a { d with kft := x } :=
  keeps_step h (fun k hk => by cases k <;> first | rfl | exact absurd hb hk) fun _ _ _ _ => rfl
theorem keeps_mlf (h : Keeps bs fs a d) (hb : Block.mlf ∈ bs) (x : MlfState) : Keeps bs fs a { d with mlf := x } :=
  keeps_step h (fun k hk => by cases k <;> first | rfl | exact absurd hb hk) fun _ _ _ _ => rfl
theorem keeps_con (h : Keeps bs fs a d) (hb : Block.con ∈ bs) (x : ConState) : Keeps bs fs a { d with con := x } :=
  keeps_step h (fun k hk => by cases k <;> first | rfl | exact absurd hb hk) fun _ _ _ _ => rfl
theorem keeps_ntt (h : Keeps bs fs a d) (hb : Block.ntt ∈ bs) (x : NttState) : Keeps bs fs a { d with ntt := x } :=
  keeps_step h (fun k hk => by cases k <;> first | rfl | exact absurd hb hk) fun _ _ _ _ => rfl
theorem keeps_key (h : Keeps bs fs a d) (hb : Block.key ∈ bs) (x : KeyState) : Keeps bs fs a { d with key := x } :=
  keeps_step h (fun k hk => by cases k <;> first | rfl | exact absurd hb hk) fun _ _ _ _ => rfl
theorem keeps_rng (h : Keeps bs fs a d) (hb : Block.rng ∈ bs) (x : RngState) : Keeps bs fs a { d with rng := x } :=
  keeps_step h (fun k hk => by cases k <;> first | rfl | exact absurd hb hk) fun _ _ _ _ => rfl
theorem keeps_ten (h : Keeps bs fs a d) (hb : Block.ten ∈ bs) (x : TenState) : Keeps bs fs a { d with ten := x } :=
  keeps_step h (fun k hk => by cases k <;> first | rfl | exact absurd hb hk) fun _ _ _ _ => rfl
theorem keeps_tin (h : Keeps bs fs a d) (hb : Block.tin ∈ bs) (x : TinState) : Keeps bs fs a { d with tin := x } :=
  keeps_step h (fun k hk => by cases k <;> first | rfl | exact absurd hb hk) fun _ _ _ _ => rfl
theorem keeps_ens (h : Keeps bs fs a d) (hb : Block.ens ∈ bs) (x : EnsState) : Keeps bs fs a { d with ens := x } :=
  keeps_step h (fun k hk => by cases k <;> first | rfl | exact absurd hb hk) fun _ _ _ _ => rfl
theorem keeps_wld (h : Keeps bs fs a d) (hb : Block.wld ∈ bs) (x : WldState) : Keeps bs fs a { d with wld := x } :=
  keeps_step h (fun k hk => by cases k <;> first | rfl | exact absurd hb hk) fun _ _ _ _ => rfl
theorem keeps_tmp (h : Keeps bs fs a d) (hb : Block.tmp ∈ bs) (x : TmpState) : Keeps bs fs a { d with tmp := x } :=
  keeps_step h (fun k hk => by cases k <;> first | rfl | exact absurd hb hk) fun _ _ _ _ => rfl
theorem keeps_clk (h : Keeps bs fs a d) (hb : Block.clk ∈ bs) (x : ClkState) : Keeps bs fs a { d with clk := x } :=
  keeps_step h (fun k hk => by cases k <;> first | rfl | exact absurd hb hk) fun _ _ _ _ => rfl
theorem keeps_lcs (h : Keeps bs fs a d) (hb : Block.lcs ∈ bs) (x : LcsState) : Keeps bs fs a { d with lcs := x } :=
  keeps_step h (fun k hk => by cases k <;> first | rfl | exact absurd hb hk) fun _ _ _ _ => rfl
theorem keeps_evr (h : Keeps bs fs a d) (hb : Block.evr ∈ bs) (x : EvrState) : Keeps bs fs a { d with evr := x } :=
  keeps_step h (fun k hk => by cases k <;> first | rfl | exact absurd hb hk) fun _ _ _ _ => rfl

/-! ## Registers -/

theorem keeps_setAt2 (h : Keeps bs fs a d) {f : Fld} (hf : f ∈ fs) (i j v : Nat) : Keeps bs fs a (d.setAt2 f i j v) :=
  keeps_step h (fun k _ => by cases k <;> rfl) fun g p q hg => getAt2_setAt2_ne d _ _ _ _ _ fun e => hg (e ▸ hf)
theorem keeps_setAt (h : Keeps bs fs a d) {f : Fld} (hf : f ∈ fs) (i v : Nat) : Keeps bs fs a (d.setAt f i v) := keeps_setAt2 h hf i 0 v
theorem keeps_set (h : Keeps bs fs a d) {f : Fld} (hf : f ∈ fs) (v : Nat) : Keeps bs fs a (d.set f v) := keeps_setAt2 h hf 0 0 v
theorem keeps_addAt2 (h : Keeps bs fs a d) {f : Fld} (hf : f ∈ fs) (i j n : Nat) : Keeps bs fs a (d.addAt2 f i j n) := keeps_setAt2 h hf i j _
theorem keeps_addAt (h : Keeps bs fs a d) {f : Fld} (hf : f ∈ fs) (i n : Nat) : Keeps bs fs a (d.addAt f i n) := keeps_setAt2 h hf i 0 _
theorem keeps_add (h : Keeps bs fs a d) {f : Fld} (hf : f ∈ fs) (n : Nat) : Keeps bs fs a (d.add f n) := keeps_setAt2 h hf 0 0 _
theorem keeps_wrapAt2 (h : Keeps bs fs a d) {f : Fld} (hf : f ∈ fs) (i j n : Nat) : Keeps bs fs a (d.wrapAt2 f i j n) := keeps_setAt2 h hf i j _
theorem keeps_wrap (h : Keeps bs fs a d) {f : Fld} (hf : f ∈ fs) (n : Nat) : Keeps bs fs a (d.wrap f n) := keeps_setAt2 h hf 0 0 _
theorem keeps_subAt (h : Keeps bs fs a d) {f : Fld} (hf : f ∈ fs) (i n : Nat) : Keeps bs fs a (d.subAt f i n) := keeps_setAt2 h hf i 0 _
theorem keeps_sub (h : Keeps bs fs a d) {f : Fld} (hf : f ∈ fs) (n : Nat) : Keeps bs fs a (d.sub f n) := keeps_setAt2 h hf 0 0 _

/-! ## Named updates -/

theorem keeps_emit (h : Keeps bs fs a d) (hb : Block.out ∈ bs) (o : Output) : Keeps bs fs a (d.emit o) := keeps_out h hb _
theorem keeps_draw (h : Keeps bs fs a d) (hb : Block.rng ∈ bs) (n : Nat) : Keeps bs fs a (d.draw n) := keeps_rng h hb _
theorem keeps_updReq (h : Keeps bs fs a d) (hb : Block.que ∈ bs) (rid : Nat) (f : Req → Req) : Keeps bs fs a (d.updReq rid f) :=
  keeps_que h hb _
theorem keeps_setStage (h : Keeps bs fs a d) (hb : Block.que ∈ bs) (rid : Nat) (st : Stage) : Keeps bs fs a (d.setStage rid st) :=
  keeps_que h hb _
theorem keeps_dropReq (h : Keeps bs fs a d) (hb : Block.que ∈ bs) (rid : Nat) : Keeps bs fs a (d.dropReq rid) := keeps_que h hb _
theorem keeps_setPair (h : Keeps bs fs a d) (hb : Block.que ∈ bs) (fn p : Nat) (x : PairState) : Keeps bs fs a (d.setPair fn p x) :=
  keeps_que h hb _
theorem keeps_setNtf (h : Keeps bs fs a d) (hb : Block.que ∈ bs) (fn : Nat) (x : NtfState) : Keeps bs fs a (d.setNtf fn x) :=
  keeps_que h hb _
theorem keeps_setCtl (h : Keeps bs fs a d) (hb : Block.ten ∈ bs) (fn : Nat) (x : TenantCtl) : Keeps bs fs a (d.setCtl fn x) :=
  keeps_ten h hb _
theorem keeps_updCtl (h : Keeps bs fs a d) (hb : Block.ten ∈ bs) (fn : Nat) (f : TenantCtl → TenantCtl) :
    Keeps bs fs a (d.updCtl fn f) := keeps_ten h hb _
theorem keeps_mapSessions (h : Keeps bs fs a d) (hb : Block.kft ∈ bs) (p : Session → Bool) (f : Session → Session) :
    Keeps bs fs a (d.mapSessions p f) := keeps_kft h hb _
theorem keeps_mapObjs (h : Keeps bs fs a d) (hb : Block.key ∈ bs) (p : KeyObj → Bool) (f : KeyObj → KeyObj) :
    Keeps bs fs a (d.mapObjs p f) := keeps_key h hb _
theorem keeps_dmaWrite (h : Keeps bs fs a d) (hb : Block.mem ∈ bs) (addr : Nat) (x : Bytes) : Keeps bs fs a (d.dmaWrite addr x) := by
  unfold Die.dmaWrite
  exact keeps_ite (fun _ => h) fun _ => keeps_mem h hb _
theorem keeps_setMsix (h : Keeps bs fs a d) (hb : Block.que ∈ bs) (fn v : Nat) (x : MsixVec) : Keeps bs fs a (d.setMsix fn v x) :=
  keeps_que h hb _

/-! ## Shared operations -/

theorem keeps_signal (h : Keeps bs fs a d) (hq : Block.que ∈ bs) (ho : Block.out ∈ bs) (fn v : Nat) : Keeps bs fs a (d.signal fn v) := by
  unfold Die.signal
  exact keeps_ite (fun _ => keeps_setMsix h hq _ _ _) fun _ => keeps_emit (keeps_setMsix h hq _ _ _) ho _

theorem keeps_event (h : Keeps bs fs a d) (hq : Block.que ∈ bs) (ho : Block.out ∈ bs) {ev : Fld} (hf : ev ∈ fs) :
    Keeps bs fs a (d.event ev) := by
  unfold Die.event
  have h1 := keeps_set h hf 1
  simp only
  split
  · exact keeps_signal h1 hq ho _ _
  · exact keeps_ite (fun _ => keeps_signal h1 hq ho _ _) fun _ => h1
  · exact h1

theorem keeps_report (h : Keeps bs fs a d) (hq : Block.que ∈ bs) (ho : Block.out ∈ bs) (hv : Block.evr ∈ bs)
    (hf : ∀ f ∈ lossFlds, f ∈ fs) (e : Env) (r : Report) : Keeps bs fs a (d.report e r) := by
  unfold Die.report
  repeat' split
  · exact h
  · exact keeps_evr h hv _
  · exact keeps_event (keeps_add h (hf _ (by decide)) 1) hq ho (hf _ (by decide))
  · exact keeps_evr h hv _

theorem keeps_reportOf (h : Keeps bs fs a d) (hq : Block.que ∈ bs) (ho : Block.out ∈ bs) (hv : Block.evr ∈ bs)
    (hf : ∀ f ∈ lossFlds, f ∈ fs) (e : Env) (c : Nat) : Keeps bs fs a (d.reportOf e c) := keeps_report h hq ho hv hf e _

theorem keeps_count (h : Keeps bs fs a d) (hv : Block.evr ∈ bs) (hf : Fld.PMC_TEN_CNT_COUNT ∈ fs) (b e t n : Nat) :
    Keeps bs fs a (d.count b e t n) :=
  count_of (fun x y => Keeps bs fs a x → Keeps bs fs a y) (fun _ => id) (fun p q => q ∘ p) (fun _ _ k => keeps_evr k hv _)
    (fun _ _ _ _ k => keeps_wrapAt2 k hf _ _ _) d b e t n h

/-- Counting an event that carries no tenant. -/
theorem keeps_count0 (h : Keeps bs fs a d) (hv : Block.evr ∈ bs) {b e : Nat} (hn : eventHasTenant b e = false) (t n : Nat) :
    Keeps bs fs a (d.count b e t n) :=
  keeps_step h (fun k hk => by cases k <;> first | exact absurd hv hk | simp [Block.Same])
    fun f i j _ => getAt2_of_regs (count_regs d b e t n hn) f i j

theorem keeps_port (h : Keeps bs fs a d) (hv : Block.evr ∈ bs) (p n : Nat) : Keeps bs fs a (d.port p n) :=
  keeps_step h (fun k hk => by cases k <;> first | exact absurd hv hk | simp [Block.Same]) fun _ _ _ _ => by simp

theorem keeps_sendRing (h : Keeps bs fs a d) (he : Block.ens ∈ bs) (ho : Block.out ∈ bs) (hv : Block.evr ∈ bs)
    (k : RingKind) (q : Option Nat) (b : Bytes) : Keeps bs fs a (d.sendRing k q b) :=
  keeps_step h (fun k hk => by
    cases k <;> first | exact absurd he hk | exact absurd ho hk | exact absurd hv hk | simp [Block.Same]) fun _ _ _ _ => by simp

theorem keeps_onLink (h : Keeps bs fs a d) (he : Block.ens ∈ bs) (hv : Block.evr ∈ bs) (b : Bool) (n : Nat) :
    Keeps bs fs a (d.onLink b n) := by
  unfold Die.onLink
  cases b <;> exact keeps_port (keeps_ens h he _) hv _ _

theorem keeps_sendLink (h : Keeps bs fs a d) (he : Block.ens ∈ bs) (ho : Block.out ∈ bs) (hv : Block.evr ∈ bs)
    (b : Bool) (k : RingKind) (x : Bytes) : Keeps bs fs a (d.sendLink b k x) := by
  unfold Die.sendLink
  exact keeps_ite (fun _ => keeps_onLink (keeps_ens (keeps_emit h ho _) he _) he hv _ _) fun _ => h

theorem keeps_mpuFault (h : Keeps bs fs a d) (hq : Block.que ∈ bs) (ho : Block.out ∈ bs) (hv : Block.evr ∈ bs)
    (hf : ∀ f ∈ mpuFlds ++ lossFlds, f ∈ fs) (e : Env) (m addr len : Nat) (w l : Bool) : Keeps bs fs a (d.mpuFault e m addr len w l) := by
  have g : ∀ f ∈ mpuFlds, f ∈ fs := fun f x => hf f (List.mem_append_left _ x)
  unfold Die.mpuFault
  refine keeps_report (keeps_event ?_ hq ho (g _ (by decide))) hq ho hv (fun f x => hf f (List.mem_append_right _ x)) _ _
  exact keeps_setAt (keeps_setAt (keeps_setAt (keeps_setAt (keeps_addAt h (g _ (by decide)) _ _) (g _ (by decide)) _ _)
    (g _ (by decide)) _ _) (g _ (by decide)) _ _) (g _ (by decide)) _ _

theorem keeps_dmaFault (h : Keeps bs fs a d) (hq : Block.que ∈ bs) (ho : Block.out ∈ bs) (hv : Block.evr ∈ bs)
    (hf : ∀ f ∈ mpuFlds ++ lossFlds, f ∈ fs) (e : Env) (t addr len : Nat) (w : Bool) : Keeps bs fs a (d.dmaFault e t addr len w) := by
  unfold Die.dmaFault
  split
  · exact h
  · exact keeps_ite (fun _ => keeps_mpuFault h hq ho hv hf _ _ _ _ _ _) fun _ => h

/-! ## From the die to the state -/

@[simp] theorem act_eq (s : State) (f : Env → Die → Die) : s.act f = .next (s.after f) := rfl
@[simp] theorem finish_pending (s : State) (d : Die) : (s.finish d).pending = s.pending := rfl
@[simp] theorem finish_otp (s : State) (d : Die) : (s.finish d).otp = s.otp := rfl

/-- Where no store alarm is due, the end of a command presents none. -/
theorem presentAlarm_none {d : Die} (h : d.mlf.alarmDue = none) (e : Env) : d.presentAlarm e = d := by
  unfold Die.presentAlarm; rw [h]

/-- Where no store alarm is due, the end of a command takes the posted writes to host memory. -/
theorem finish_none {d : Die} (h : d.mlf.alarmDue = none) (s : State) :
    s.finish d = { s with mem := memPost s.mem d.posted, die := d.settle } := by
  unfold State.finish; rw [presentAlarm_none h]


/-! What stands in the die after the end of a command that makes no alarm due. -/
theorem finish_regs {d : Die} (h : d.mlf.alarmDue = none) (s : State) : (s.finish d).die.regs = d.regs := by
  rw [finish_none h]; exact settle_regs d
theorem finish_out {d : Die} (h : d.mlf.alarmDue = none) (s : State) : (s.finish d).die.out = d.out := by
  rw [finish_none h]; exact settle_out d
theorem finish_nowMs {d : Die} (h : d.mlf.alarmDue = none) (s : State) : (s.finish d).die.nowMs = d.nowMs := by
  rw [finish_none h]; exact settle_nowMs d
theorem finish_que {d : Die} (h : d.mlf.alarmDue = none) (s : State) : (s.finish d).die.que = d.que := by
  rw [finish_none h]; exact settle_que d
theorem finish_rcp {d : Die} (h : d.mlf.alarmDue = none) (s : State) : (s.finish d).die.rcp = d.rcp := by
  rw [finish_none h]; exact settle_rcp d
theorem finish_kft {d : Die} (h : d.mlf.alarmDue = none) (s : State) : (s.finish d).die.kft = d.kft := by
  rw [finish_none h]; exact settle_kft d
theorem finish_mlf {d : Die} (h : d.mlf.alarmDue = none) (s : State) : (s.finish d).die.mlf = d.mlf := by
  rw [finish_none h]; exact settle_mlf d
theorem finish_con {d : Die} (h : d.mlf.alarmDue = none) (s : State) : (s.finish d).die.con = d.con := by
  rw [finish_none h]; exact settle_con d
theorem finish_ntt {d : Die} (h : d.mlf.alarmDue = none) (s : State) : (s.finish d).die.ntt = d.ntt := by
  rw [finish_none h]; exact settle_ntt d
theorem finish_key {d : Die} (h : d.mlf.alarmDue = none) (s : State) : (s.finish d).die.key = d.key := by
  rw [finish_none h]; exact settle_key d
theorem finish_rng {d : Die} (h : d.mlf.alarmDue = none) (s : State) : (s.finish d).die.rng = d.rng := by
  rw [finish_none h]; exact settle_rng d
theorem finish_ten {d : Die} (h : d.mlf.alarmDue = none) (s : State) : (s.finish d).die.ten = d.ten := by
  rw [finish_none h]; exact settle_ten d
theorem finish_tin {d : Die} (h : d.mlf.alarmDue = none) (s : State) : (s.finish d).die.tin = d.tin := by
  rw [finish_none h]; exact settle_tin d
theorem finish_ens {d : Die} (h : d.mlf.alarmDue = none) (s : State) : (s.finish d).die.ens = d.ens := by
  rw [finish_none h]; exact settle_ens d
theorem finish_wld {d : Die} (h : d.mlf.alarmDue = none) (s : State) : (s.finish d).die.wld = d.wld := by
  rw [finish_none h]; exact settle_wld d
theorem finish_tmp {d : Die} (h : d.mlf.alarmDue = none) (s : State) : (s.finish d).die.tmp = d.tmp := by
  rw [finish_none h]; exact settle_tmp d
theorem finish_clk {d : Die} (h : d.mlf.alarmDue = none) (s : State) : (s.finish d).die.clk = d.clk := by
  rw [finish_none h]; exact settle_clk d
theorem finish_lcs {d : Die} (h : d.mlf.alarmDue = none) (s : State) : (s.finish d).die.lcs = d.lcs := by
  rw [finish_none h]; exact settle_lcs d
theorem finish_get {d : Die} (h : d.mlf.alarmDue = none) (s : State) (f : Fld) : (s.finish d).die.get f = d.get f := by
  rw [finish_none h]; exact settle_get d f
theorem finish_getAt {d : Die} (h : d.mlf.alarmDue = none) (s : State) (f : Fld) (i : Nat) : (s.finish d).die.getAt f i = d.getAt f i := by
  rw [finish_none h]; exact settle_getAt d f i
theorem finish_getAt2 {d : Die} (h : d.mlf.alarmDue = none) (s : State) (f : Fld) (i j : Nat) :
    (s.finish d).die.getAt2 f i j = d.getAt2 f i j := by
  rw [finish_none h]; exact settle_getAt2 d f i j
theorem finish_mem {d : Die} (h : d.mlf.alarmDue = none) (s : State) : (s.finish d).mem = memPost s.mem d.posted := by
  rw [finish_none h]

/-- Nothing is left posted and no alarm is left due at the end of a command. -/
theorem finish_settled (s : State) (d : Die) : Settled (s.finish d) := by
  refine ⟨rfl, ?_⟩
  show (d.presentAlarm s.env).settle.mlf.alarmDue = none
  rw [settle_mlf]
  unfold Die.presentAlarm
  split
  · rfl
  · assumption

/-- The frame of a command that posts no write and makes no alarm due. -/
theorem frame_quiet {bs : List Block} {fs : List Fld} {s : State} {d : Die} (hs : Settled s) (hm : Block.mem ∉ bs)
    (hd : d.mlf.alarmDue = none) (h : Keeps bs fs s.die d) : Frame bs fs s (s.finish d) := by
  have hp : d.posted = [] := (h.1 .mem hm).trans hs.1
  rw [finish_none hd]
  refine ⟨rfl, rfl, fun _ => ?_, fun k hk => ?_, fun g i j hg => ?_⟩
  · show memPost s.mem d.posted = _
    rw [hp]; rfl
  · have x := h.1 k fun y => hk (List.mem_cons_of_mem _ y)
    have e : d.settle.evr = d.evr := by simp [Die.settle, hp, Die.port]
    cases k <;> simp_all [Block.Same]
  · exact (settle_getAt2 d g i j).trans (h.2 g i j hg)

/-- The frame of a command that may post writes, and makes no alarm due: its output is counted at the host port. -/
theorem frame_after {bs : List Block} {fs : List Fld} {s : State} {d : Die} (hm : Block.mem ∈ bs) (hv : Block.evr ∈ bs)
    (hd : d.mlf.alarmDue = none) (h : Keeps bs fs s.die d) : Frame bs fs s (s.finish d) := by
  rw [finish_none hd]
  refine ⟨rfl, rfl, fun x => absurd hm x, fun k hk => ?_, fun g i j hg => ?_⟩
  · have x := h.1 k fun y => hk (List.mem_cons_of_mem _ y)
    cases k <;> simp_all [Block.Same]
  · exact (settle_getAt2 d g i j).trans (h.2 g i j hg)

/-- A command that leaves the store alone makes no alarm due. -/
theorem alarmDue_of_keeps {s : State} (hs : Settled s) (hb : Block.mlf ∉ bs) (h : Keeps bs fs s.die d) : d.mlf.alarmDue = none := by
  have x : d.mlf = s.die.mlf := h.1 .mlf hb
  rw [x]; exact hs.2

/-- The frame of a command that may write the store. -/
theorem storeFrame {s : State} (h : Keeps bs fs s.die d) : StoreFrame bs fs s (s.finish d) := ⟨d, h, rfl⟩

theorem frame_refl (bs : List Block) (fs : List Fld) (s : State) : Frame bs fs s s :=
  ⟨rfl, rfl, fun _ => rfl, keeps_refl _⟩

end Sys2Proof.Laws
end

