-- ==== Sys2Proof/Laws/KeepsStore.lean ====
section
/-! SUPPORT. Frames of the store's operations: reads and writes of the slice, mirroring, the version tree and its cache, slot writes
and re-seals. -/
namespace Sys2Proof.Laws

set_option linter.unusedSectionVars false

open Sys2Proof.Machine Sys2Proof.Safety

variable {bs : List Block} {fs : List Fld} {a d : Die}

theorem keeps_setVblock (h : Keeps bs fs a d) (hm : Block.mlf ∈ bs) (p l j : Nat) (b : VBlock) : Keeps bs fs a (d.setVblock p l j b) :=
  keeps_mlf h hm _

theorem keeps_storeRead (h : Keeps bs fs a d) (hv : Block.evr ∈ bs) (n : Nat) : Keeps bs fs a (d.storeRead n) :=
  keeps_port (keeps_port h hv _ _) hv _ _

/-- The blocks and fields that the store's operations need. -/
theorem storeFlds_mpu {f : Fld} (h : f ∈ mpuFlds ++ lossFlds) : f ∈ storeFlds := by
  simp only [storeFlds, List.mem_append] at h ⊢
  rcases h with h | h <;> simp [h]

theorem storeFlds_loss {f : Fld} (h : f ∈ lossFlds) : f ∈ storeFlds := storeFlds_mpu (List.mem_append_right _ h)

/-- A fold whose accumulator carries the die. -/
theorem keeps_foldl_fst {ι β : Type} (f : Die × β → ι → Die × β) (l : List ι) (hf : ∀ x i, Keeps bs fs x.1 (f x i).1) :
    ∀ x : Die × β, Keeps bs fs a x.1 → Keeps bs fs a (l.foldl f x).1 := by
  induction l with
  | nil => intro x h; exact h
  | cons i r ih => intro x h; exact ih _ (keeps_trans h (hf x i))

section Store

variable (hb : ∀ k ∈ storeBlocks, k ∈ bs) (hf : ∀ f ∈ storeFlds, f ∈ fs)
include hb hf

/-! ## Reads and writes of the slice -/

theorem keeps_walkerFault (h : Keeps bs fs a d) (e : Env) (addr len : Nat) (w : Bool) : Keeps bs fs a (d.mpuFault e 257 addr len w false) :=
  keeps_mpuFault h (hb _ (by decide)) (hb _ (by decide)) (hb _ (by decide)) (fun f x => hf f (storeFlds_mpu x)) _ _ _ _ _ _

theorem keeps_storeWrite (h : Keeps bs fs a d) (e : Env) (p off : Nat) (b : Bytes) : Keeps bs fs a (d.storeWrite e p off b) := by
  unfold Die.storeWrite
  exact keeps_ite (fun _ => h) fun _ => keeps_ite
    (fun _ => keeps_port (keeps_dmaWrite h (hb _ (by decide)) _ _) (hb _ (by decide)) _ _) fun _ => keeps_walkerFault hb hf h _ _ _ _

theorem keeps_storeData (h : Keeps bs fs a d) (e : Env) (p off n : Nat) : Keeps bs fs a (d.storeData e p off n).1 := by
  unfold Die.storeData
  split
  · exact keeps_storeRead h (hb _ (by decide)) _
  · exact keeps_walkerFault hb hf h _ _ _ _

theorem keeps_writeBlock (h : Keeps bs fs a d) (e : Env) (p l j : Nat) : Keeps bs fs a (d.writeBlock e p l j) :=
  keeps_storeWrite hb hf h _ _ _ _

theorem keeps_integrity (h : Keeps bs fs a d) (e : Env) (t p l j k : Nat) : Keeps bs fs a (d.integrity e t p l j k) := by
  have hq := hb .que (by decide)
  have ho := hb .out (by decide)
  have h1 : Keeps bs fs a (((((((d.add .MLF_INTEG_COUNT_COUNT 1).set .MLF_INTEG_ADDR_OFFSET (d.itemOffset p l j)).set
      .MLF_INTEG_INFO_TENANT t).set .MLF_INTEG_INFO_ADOPTED_SLICE (ofBool (p != d.pos))).set .MLF_INTEG_INFO_KIND k).set
      .MLF_INTEG_INFO_LEVEL l).event .MLF_EVENT_INTEGRITY |>.report e { Report.of 0x0301 with kind := k, address := d.itemOffset p l j, tenant := t }) :=
    keeps_report (keeps_event (keeps_set (keeps_set (keeps_set (keeps_set (keeps_set (keeps_add h (hf _ (by decide)) _) (hf _ (by decide)) _)
      (hf _ (by decide)) _) (hf _ (by decide)) _) (hf _ (by decide)) _) (hf _ (by decide)) _) hq ho (hf _ (by decide))) hq ho
      (hb _ (by decide)) (fun f x => hf f (storeFlds_loss x)) _ _
  have h2 : ∀ (x : Die) (o : Option Nat), Keeps bs fs a x → Keeps bs fs a (x.addPoison (poisonRange p l j) k o) := fun x o hx => by
    cases o
    · exact keeps_mlf (keeps_event hx hq ho (hf _ (by decide))) (hb _ (by decide)) _
    · exact keeps_mlf hx (hb _ (by decide)) _
  exact h2 _ _ h1

theorem keeps_storeFault (h : Keeps bs fs a d) (e : Env) (t p : Nat) (f : StoreFault) : Keeps bs fs a (d.storeFault e t p f) := by
  cases f
  · exact keeps_integrity hb hf h _ _ _ _ _ _
  · exact h

/-! ## Mirroring -/

theorem keeps_mirrorMsg (h : Keeps bs fs a d) (k p key : Nat) (b : Bytes) : Keeps bs fs a (d.mirrorMsg k p key b).1 := by
  unfold Die.mirrorMsg
  split
  · exact keeps_mlf (keeps_sendRing h (hb _ (by decide)) (hb _ (by decide)) (hb _ (by decide)) _ _ _) (hb _ (by decide)) _
  · exact h

theorem keeps_mirror (h : Keeps bs fs a d) (k p key : Nat) (b : Bytes) : Keeps bs fs a (d.mirror k p key b) :=
  keeps_mirrorMsg hb hf h _ _ _ _

theorem keeps_mirrorBlock (h : Keeps bs fs a d) (p l j : Nat) : Keeps bs fs a (d.mirrorBlock p l j) := keeps_mirror hb hf h _ _ _ _

/-! ## The version tree -/

theorem keeps_startReseal (h : Keeps bs fs a d) (p l j c : Nat) : Keeps bs fs a (d.startReseal p l j c) := by
  have h1 := fun b => keeps_setVblock (bs := bs) (fs := fs) h (hb .mlf (by decide)) p l j b
  unfold Die.startReseal
  exact keeps_ite (fun _ => keeps_mirrorBlock hb hf (keeps_wrap (h1 _) (hf _ (by decide)) _) _ _ _)
    fun _ => keeps_mirror hb hf (keeps_mlf (h1 _) (hb _ (by decide)) _) _ _ _ _

theorem keeps_raiseChild (h : Keeps bs fs a d) (p l j c : Nat) : Keeps bs fs a (d.raiseChild p l j c) := by
  unfold Die.raiseChild
  split
  · exact keeps_mlf (keeps_setVblock h (hb _ (by decide)) _ _ _ _) (hb _ (by decide)) _
  · exact keeps_ite (fun _ => keeps_setVblock h (hb _ (by decide)) _ _ _ _) fun _ => keeps_startReseal hb hf h _ _ _ _

theorem keeps_readBlock (h : Keeps bs fs a d) (e : Env) (p l j v : Nat) : Keeps bs fs a (d.readBlock e p l j v).1 := by
  exact keeps_storeData hb hf h e p (d.blockOffset p l j) 64

theorem keeps_fetch3 (h : Keeps bs fs a d) (e : Env) (p j : Nat) : Keeps bs fs a (d.fetch3 e p j).1 := by
  have hm := hb .mlf (by decide)
  have h1 := keeps_readBlock hb hf h e p 3 j (d.childVersion p 3 j)
  unfold Die.fetch3
  simp only
  split
  · exact h
  split
  · exact keeps_mlf (keeps_setVblock h hm _ _ _ _) hm _
  split <;> (rename_i x; rw [x] at h1)
  · exact keeps_mlf (keeps_setVblock h1 hm _ _ _ _) hm _
  · exact h1

theorem keeps_writeL3 (h : Keeps bs fs a d) (e : Env) (p j : Nat) : Keeps bs fs a (d.writeL3 e p j).1 := by
  unfold Die.writeL3
  exact keeps_mirrorMsg hb hf (keeps_raiseChild hb hf (keeps_writeBlock hb hf (keeps_raiseChild hb hf h _ _ _ _) _ _ _ _) _ _ _ _) _ _ _ _

theorem keeps_releaseDirty (h : Keeps bs fs a d) (p j : Nat) : Keeps bs fs a (d.releaseDirty p j) := keeps_mlf h (hb _ (by decide)) _

theorem keeps_writeBack (h : Keeps bs fs a d) (e : Env) (p j : Nat) (ends : Bool) : Keeps bs fs a (d.writeBack e p j ends) := by
  have h1 := keeps_fetch3 hb hf h e p (j / 32)
  unfold Die.writeBack
  simp only
  split <;> (rename_i x; rw [x] at h1)
  · exact keeps_releaseDirty hb hf (keeps_storeFault hb hf h1 _ _ _ _) _ _
  · refine keeps_ite (fun _ => keeps_releaseDirty hb hf (keeps_integrity hb hf h1 _ _ _ _ _ _) _ _) fun _ => keeps_ite (fun _ => h1) fun _ => ?_
    have h2 := keeps_mirrorMsg hb hf (keeps_writeL3 hb hf (keeps_writeBlock hb hf (keeps_raiseChild hb hf h1 p 3 (j / 32) (j % 32)) e p 2 j) e p (j / 32))
      6 p (treeKeyOf p 2 j) []
    split <;> (rename_i y; rw [y] at h2)
    · exact keeps_mlf h2 (hb _ (by decide)) _
    · exact keeps_releaseDirty hb hf h2 _ _

theorem keeps_touchBlock (h : Keeps bs fs a d) (k : Nat) : Keeps bs fs a (d.touchBlock k) := by
  unfold Die.touchBlock
  exact keeps_ite (fun _ => keeps_mlf h (hb _ (by decide)) _) fun _ => h

theorem keeps_cacheBlock (h : Keeps bs fs a d) (p l j : Nat) (b : VBlock) : Keeps bs fs a (d.cacheBlock p l j b) := by
  have hm := hb .mlf (by decide)
  unfold Die.cacheBlock
  simp only
  split
  · exact keeps_mlf (keeps_setVblock h hm _ _ _ _) hm _
  split
  · exact keeps_mlf (keeps_mlf (keeps_setVblock h hm _ _ _ _) hm _) hm _
  · exact keeps_mlf (keeps_setVblock h hm _ _ _ _) hm _

theorem keeps_fetchBlock (h : Keeps bs fs a d) (e : Env) (p l j : Nat) : Keeps bs fs a (d.fetchBlock e p l j).1 := by
  have h0 : Keeps bs fs a (if l = 1 then d.count 6 4 0 1 else d) := keeps_ite (fun _ => keeps_count0 h (hb _ (by decide)) rfl _ _) fun _ => h
  have h1 := keeps_readBlock hb hf h0 e p l j (d.childVersion p l j)
  unfold Die.fetchBlock
  simp only
  split
  · exact keeps_touchBlock hb hf h _
  split
  · exact keeps_cacheBlock hb hf h _ _ _ _
  split <;> (rename_i x; rw [x] at h1)
  · exact keeps_cacheBlock hb hf h1 _ _ _ _
  · exact h1

theorem keeps_fetchPath (h : Keeps bs fs a d) (e : Env) (p x : Nat) : Keeps bs fs a (d.fetchPath e p x).1 := by
  have h1 := keeps_fetch3 hb hf h e p (x / 1024)
  unfold Die.fetchPath
  split <;> (rename_i y; rw [y] at h1)
  · exact h1
  · have h2 := keeps_fetchBlock hb hf h1 e p 2 (x / 32)
    split <;> (rename_i z; rw [z] at h2)
    · exact h2
    · exact keeps_fetchBlock hb hf h2 _ _ _ _

theorem keeps_checkBucket (h : Keeps bs fs a d) (e : Env) (k : Nat) : Keeps bs fs a (d.checkBucket e k).1 := by
  have h1 := keeps_fetchPath hb hf h e (keyHome k) (d.slotIndex k 0 / 32)
  unfold Die.checkBucket
  simp only
  split <;> (rename_i y; rw [y] at h1)
  · exact h1
  · split
    · exact h1
    · have h2 := keeps_storeData hb hf h1 e (keyHome k) (d.slotIndex k 0 * 128) (bucketSlots k * 128)
      split <;> (rename_i z; rw [z] at h2)
      · exact h2
      · split <;> exact h2

/-! ## Slot writes -/

theorem keeps_spoil (h : Keeps bs fs a d) (rid : Nat) (st : Status) : Keeps bs fs a (d.spoil rid st) := by
  unfold Die.spoil
  exact keeps_ite (fun _ => h) fun _ => keeps_updReq h (hb _ (by decide)) _ _

theorem keeps_dropWrite (h : Keeps bs fs a d) (w : SlotWrite) (st : Status) : Keeps bs fs a (d.dropWrite w st) := by
  unfold Die.dropWrite
  exact keeps_foldl _ _ (fun b x => keeps_spoil hb hf (keeps_refl b) _ _) _ (keeps_mlf h (hb _ (by decide)) _)

theorem keeps_issueWrite (h : Keeps bs fs a d) (e : Env) (w : SlotWrite) : Keeps bs fs a (d.issueWrite e w) := by
  have h1 := keeps_foldl (bs := bs) (fs := fs) (a := a)
    (fun (d : Die) (s : SlotImage) => d.storeWrite e w.home (s.index * 128) (d.slotBytes w.home s.index s.version s.payload)) w.slots
    (fun b x => keeps_storeWrite hb hf (keeps_refl b) _ _ _ _) d h
  unfold Die.issueWrite
  exact keeps_ite (fun _ => keeps_mlf (keeps_writeBlock hb hf h1 _ _ _ _) (hb _ (by decide)) _) fun _ => keeps_mlf h1 (hb _ (by decide)) _

theorem keeps_markL2 (h : Keeps bs fs a d) (p j : Nat) : Keeps bs fs a (d.markL2 p j) := by
  have h1 := fun x => keeps_mlf (bs := bs) (fs := fs) h (hb .mlf (by decide)) x
  unfold Die.markL2
  exact keeps_ite (fun _ => keeps_mirrorBlock hb hf (h1 _) _ _ _) fun _ => h1 _

theorem keeps_sendPending (h : Keeps bs fs a d) (e : Env) (w : SlotWrite) : Keeps bs fs a (d.sendPending e w) := by
  have h1 := keeps_mirrorMsg hb hf h 1 w.home (treeKeyOf w.home 1 w.block) w.pending
  unfold Die.sendPending
  split <;> (rename_i x; rw [x] at h1)
  · exact keeps_mlf h1 (hb _ (by decide)) _
  · exact keeps_issueWrite hb hf (keeps_mlf h1 (hb _ (by decide)) _) _ _

theorem keeps_raiseSlots (h : Keeps bs fs a d) (p x : Nat) (w : WritePart) : Keeps bs fs a (d.raiseSlots p x w).1 := by
  unfold Die.raiseSlots
  exact keeps_foldl_fst _ _ (fun y s => keeps_raiseChild hb hf (keeps_refl y.1) _ _ _ _) _ h

theorem keeps_runWrite (h : Keeps bs fs a d) (e : Env) (w : SlotWrite) : Keeps bs fs a (d.runWrite e w) := by
  have h1 : Keeps bs fs a (w.parts.foldl (fun (acc : Die × List WritePart) p =>
      ((acc.1.raiseSlots w.home w.block p).1, acc.2 ++ [(acc.1.raiseSlots w.home w.block p).2])) (d, [])).1 :=
    keeps_foldl_fst (f := fun (acc : Die × List WritePart) p =>
      ((acc.1.raiseSlots w.home w.block p).1, acc.2 ++ [(acc.1.raiseSlots w.home w.block p).2]))
      _ (fun y _ => keeps_raiseSlots hb hf (keeps_refl y.1) _ _ _) _ h
  unfold Die.runWrite
  simp only
  split
  · exact keeps_sendPending hb hf (keeps_mlf h1 (hb _ (by decide)) _) _ _
  · exact keeps_sendPending hb hf (keeps_ite (fun _ => h1) fun _ => keeps_markL2 hb hf (keeps_raiseChild hb hf h1 _ _ _ _) _ _) _ _

theorem keeps_writeBackOldest (h : Keeps bs fs a d) (e : Env) : Keeps bs fs a (d.writeBackOldest e) := by
  unfold Die.writeBackOldest
  split
  · exact keeps_ite (fun _ => keeps_writeBack hb hf h _ _ _ _) fun _ => h
  · exact h

theorem keeps_startWrite (h : Keeps bs fs a d) (e : Env) (w : SlotWrite) : Keeps bs fs a (d.startWrite e w) := by
  have h1 := keeps_fetchPath hb hf h e w.home w.block
  unfold Die.startWrite
  simp only
  split
  · exact h
  split
  · exact keeps_dropWrite hb hf (keeps_walkerFault hb hf h _ _ _ _) _ _
  split <;> (rename_i x; rw [x] at h1)
  · exact keeps_dropWrite hb hf (keeps_storeFault hb hf h1 _ _ _ _) _ _
  split
  · exact keeps_dropWrite hb hf (keeps_storeFault hb hf h1 _ _ _ _) _ _
  refine keeps_ite (fun _ => keeps_ite (fun _ => keeps_event h1 (hb _ (by decide)) (hb _ (by decide)) (hf _ (by decide))) fun _ => h1) fun _ => ?_
  rename_i d0 _ _ _
  have h2 : Keeps bs fs a (if d0.dirtyFull w then d0.writeBackOldest e else d0) := keeps_ite (fun _ => keeps_writeBackOldest hb hf h1 _) fun _ => h1
  exact keeps_ite (fun _ => h2) fun _ => keeps_runWrite hb hf h2 _ _

theorem keeps_startParked (h : Keeps bs fs a d) (e : Env) : Keeps bs fs a (d.startParked e) := by
  unfold Die.startParked
  exact keeps_foldl _ _ (fun b w => keeps_ite (fun _ => keeps_startWrite hb hf (keeps_refl b) _ _) fun _ => keeps_refl b) _ h

theorem keeps_addWrite (h : Keeps bs fs a d) (e : Env) (p x : Nat) (ps : List WritePart) (ends : Bool) :
    Keeps bs fs a (d.addWrite e p x ps ends) := by
  unfold Die.addWrite
  exact keeps_startWrite hb hf (keeps_mlf h (hb _ (by decide)) _) _ _

theorem keeps_beginWrite (h : Keeps bs fs a d) (e : Env) (b : Nat) (sl : List (Nat × Bytes)) (rid : Nat) :
    Keeps bs fs a (d.beginWrite e b sl rid) := by
  unfold Die.beginWrite
  exact keeps_ite (fun _ => h) fun _ => keeps_ite (fun _ => keeps_spoil hb hf h _ _) fun _ => keeps_addWrite hb hf h _ _ _ _ _

theorem keeps_doneReseal (h : Keeps bs fs a d) (r : Reseal) : Keeps bs fs a (d.doneReseal r) := by
  unfold Die.doneReseal
  exact keeps_mirror hb hf (keeps_count0 (keeps_wrap (keeps_mlf h (hb _ (by decide)) _) (hf _ (by decide)) _) (hb _ (by decide)) rfl _ _) _ _ _ _

theorem keeps_endReseal (h : Keeps bs fs a d) (e : Env) (r : Reseal) : Keeps bs fs a (d.endReseal e r) := by
  unfold Die.endReseal
  split
  · exact keeps_ite (fun _ => h) fun _ => keeps_addWrite hb hf (keeps_mlf h (hb _ (by decide)) _) _ _ _ _ _
  · refine keeps_ite (fun _ => h) fun _ => ?_
    have h1 := keeps_writeBack hb hf (keeps_markL2 hb hf h r.home r.index) e r.home r.index true
    exact keeps_ite (fun _ => h1) fun _ => keeps_doneReseal hb hf h1 _
  · exact keeps_ite (fun _ => keeps_doneReseal hb hf (keeps_writeL3 hb hf h _ _ _) _) fun _ => h
  · exact keeps_doneReseal hb hf (keeps_mirrorBlock hb hf (keeps_raiseChild hb hf h _ _ _ _) _ _ _) _

theorem keeps_kickStore (h : Keeps bs fs a d) (e : Env) : Keeps bs fs a (d.kickStore e) := by
  unfold Die.kickStore
  exact keeps_startParked hb hf (keeps_foldl _ _ (fun b r => keeps_endReseal hb hf (keeps_refl b) _ _) _ h) _

theorem keeps_waitInterlock (h : Keeps bs fs a d) (b rid : Nat) : Keeps bs fs a (d.waitInterlock b rid) := by
  unfold Die.waitInterlock
  exact keeps_ite (fun _ => h) fun _ => keeps_kft h (hb _ (by decide)) _

theorem keeps_writeHandle (h : Keeps bs fs a d) (e : Env) (t k rid : Nat) : Keeps bs fs a (d.writeHandle e t k rid) := by
  unfold Die.writeHandle
  exact keeps_ite (fun _ => h) fun _ => keeps_ite (fun _ => keeps_waitInterlock hb hf h _ _) fun _ => keeps_beginWrite hb hf h _ _ _ _

end Store

end Sys2Proof.Laws
end

