-- ==== Sys2Proof/Laws/KeepsReply.lean ====
section
/-! SUPPORT. Frames of notifications, replies and completions. -/
namespace Sys2Proof.Laws

set_option linter.unusedSectionVars false

open Sys2Proof.Machine Sys2Proof.Safety

variable {bs : List Block} {fs : List Fld} {a d : Die}

/-! ## Notifications -/

section Notify

variable (hb : ∀ k ∈ ntfBlocks, k ∈ bs) (hf : ∀ f ∈ ntfFlds, f ∈ fs)

theorem keeps_mergeMark (h : Keeps bs fs a d) (hm : Block.mem ∈ bs) (e : Env) (fn p : Nat) : Keeps bs fs a (d.mergeMark e fn p) := by
  unfold Die.mergeMark
  exact keeps_dmaWrite h hm _ _

theorem keeps_putMark (h : Keeps bs fs a d) (hm : Block.mem ∈ bs) (ht : Block.ten ∈ bs) (e : Env) (fn p : Nat) :
    Keeps bs fs a (d.putMark e fn p) := by
  have h1 : ∀ x : Die, Keeps bs fs a x → ∀ f : TenantCtl → TenantCtl, Keeps bs fs a (x.updCtl fn f) := fun x hx f => keeps_updCtl hx ht _ _
  unfold Die.putMark
  refine h1 _ (keeps_ite (fun _ => h) fun _ => ?_) _
  split
  · exact h
  · exact keeps_updCtl (keeps_foldl _ _ (fun b p => keeps_mergeMark (keeps_refl b) hm e _ p) _ h) ht _ _

theorem keeps_putMarks (h : Keeps bs fs a d) (hm : Block.mem ∈ bs) (ht : Block.ten ∈ bs) (e : Env) (fn : Nat) (ps : List Nat) :
    Keeps bs fs a (d.putMarks e fn ps) := by
  unfold Die.putMarks
  exact keeps_ite (fun _ => keeps_updCtl h ht _ _) fun _ => keeps_foldl _ _ (fun b p => keeps_putMark (keeps_refl b) hm ht _ _ _) _ h

theorem keeps_markDirty (h : Keeps bs fs a d) (hm : Block.mem ∈ bs) (ht : Block.ten ∈ bs) (hu : Fld.TEN_MIG_UNTRACKED_VALUE ∈ fs)
    (e : Env) (t addr len : Nat) : Keeps bs fs a (d.markDirty e t addr len) := by
  have h1 := fun fn ps => keeps_putMarks (bs := bs) (fs := fs) h hm ht e fn ps
  unfold Die.markDirty
  split
  · exact h
  · exact keeps_ite (fun _ => h) fun _ => keeps_ite (fun _ => keeps_addAt (h1 _ _) hu _ _) fun _ => h1 _ _

theorem keeps_tenantWrite (h : Keeps bs fs a d) (hm : Block.mem ∈ bs) (ht : Block.ten ∈ bs) (hu : Fld.TEN_MIG_UNTRACKED_VALUE ∈ fs)
    (e : Env) (t addr : Nat) (b : Bytes) : Keeps bs fs a (d.tenantWrite e t addr b) := keeps_markDirty (keeps_dmaWrite h hm _ _) hm ht hu _ _ _ _

include hb hf

theorem keeps_tenantWrite' (h : Keeps bs fs a d) (e : Env) (t addr : Nat) (b : Bytes) : Keeps bs fs a (d.tenantWrite e t addr b) :=
  keeps_tenantWrite h (hb _ (by decide)) (hb _ (by decide)) (hf _ (by decide)) _ _ _ _

theorem keeps_signal' (h : Keeps bs fs a d) (fn v : Nat) : Keeps bs fs a (d.signal fn v) :=
  keeps_signal h (hb _ (by decide)) (hb _ (by decide)) _ _

theorem keeps_dmaFault' (h : Keeps bs fs a d) (e : Env) (t addr len : Nat) (w : Bool) : Keeps bs fs a (d.dmaFault e t addr len w) :=
  keeps_dmaFault h (hb _ (by decide)) (hb _ (by decide)) (hb _ (by decide))
    (fun f x => hf f (by simp only [ntfFlds, List.mem_append] at x ⊢; rcases x with x | x <;> simp [x])) _ _ _ _ _

theorem keeps_count' (h : Keeps bs fs a d) (b e t n : Nat) : Keeps bs fs a (d.count b e t n) :=
  keeps_count h (hb _ (by decide)) (hf _ (by decide)) _ _ _ _

theorem keeps_ntfLose (h : Keeps bs fs a d) (fn : Nat) : Keeps bs fs a (d.ntfLose fn) := keeps_addAt h (hf _ (by decide)) _ _

theorem keeps_ntfAnnounce (h : Keeps bs fs a d) (e : Env) (fn : Nat) : Keeps bs fs a (d.ntfAnnounce e fn) := by
  have h1 : Keeps bs fs a (if d.hasAt .QUE_NTF_CTL_WB_EN fn then
      if d.dmaOk (d.tenantOf fn) (d.getAt .QUE_NTF_WB_ADDR fn / 4 * 4) 4 true then
        d.tenantWrite e (d.tenantOf fn) (d.getAt .QUE_NTF_WB_ADDR fn / 4 * 4) (leBytes 4 (d.getAt .QUE_NTF_TAIL_INDEX fn))
      else (d.dmaFault e (d.tenantOf fn) (d.getAt .QUE_NTF_WB_ADDR fn / 4 * 4) 4 true).errorVector fn else d) :=
    keeps_ite (fun _ => keeps_ite (fun _ => keeps_tenantWrite' hb hf h _ _ _ _)
      fun _ => keeps_signal' hb hf (keeps_dmaFault' hb hf h _ _ _ _ _) _ _) fun _ => h
  unfold Die.ntfAnnounce
  exact keeps_ite (fun _ => keeps_signal' hb hf h1 _ _) fun _ => keeps_setNtf h1 (hb _ (by decide)) _ _

theorem keeps_ntfPut (h : Keeps bs fs a d) (e : Env) (fn : Nat) (mk : Bool → Bytes) : Keeps bs fs a (d.ntfPut e fn mk) := by
  unfold Die.ntfPut
  refine keeps_ite (fun _ => ?_) fun _ => ?_
  · exact keeps_ntfAnnounce hb hf (keeps_count' hb hf (keeps_setAt (keeps_tenantWrite' hb hf h _ _ _ _) (hf _ (by decide)) _ _) _ _ _ _) _ _
  · exact keeps_signal' hb hf (keeps_ntfLose hb hf (keeps_dmaFault' hb hf h _ _ _ _ _) _) _ _

theorem keeps_ntfReportLost (h : Keeps bs fs a d) (e : Env) (fn : Nat) : Keeps bs fs a (d.ntfReportLost e fn) := by
  unfold Die.ntfReportLost
  refine keeps_ite (fun _ => h) fun _ => keeps_ite (fun _ => keeps_ntfPut hb hf h _ _ _) fun _ => ?_
  exact keeps_subAt (keeps_ntfPut hb hf h _ _ _) (hf _ (by decide)) _ _

theorem keeps_notifyFrom (h : Keeps bs fs a d) (e : Env) (o t ev p c : Nat) (tag : Bytes) (ss : Nat) (data : Bytes) :
    Keeps bs fs a (d.notifyFrom e o t ev p c tag ss data) := by
  unfold Die.notifyFrom
  split
  · exact keeps_sendRing h (hb _ (by decide)) (hb _ (by decide)) (hb _ (by decide)) _ _ _
  · exact keeps_ite (fun _ => h) fun _ => keeps_ite (fun _ => keeps_ntfLose hb hf (keeps_ntfReportLost hb hf h _ _) _)
      fun _ => keeps_ntfPut hb hf (keeps_ntfReportLost hb hf h _ _) _ _ _

theorem keeps_notify (h : Keeps bs fs a d) (e : Env) (t ev p c : Nat) (tag : Bytes) (ss : Nat) (data : Bytes) :
    Keeps bs fs a (d.notify e t ev p c tag ss data) := keeps_notifyFrom hb hf h _ _ _ _ _ _ _ _ _

theorem keeps_ringError (h : Keeps bs fs a d) (e : Env) (fn p c : Nat) : Keeps bs fs a (d.ringError e fn p c) :=
  keeps_notify hb hf (keeps_signal' hb hf h _ _) _ _ _ _ _ _ _ _

end Notify

/-! ## Replies -/

section Reply

variable (hb : ∀ k ∈ replyBlocks, k ∈ bs) (hf : ∀ f ∈ replyFlds, f ∈ fs)
include hb hf

theorem ntfB : ∀ k ∈ ntfBlocks, k ∈ bs := fun k x => hb k (List.mem_append_right _ x)
theorem ntfF : ∀ f ∈ ntfFlds, f ∈ fs := fun f x => hf f (List.mem_append_right _ x)
theorem storeB : ∀ k ∈ storeBlocks, k ∈ bs := fun k x => hb k (by revert k; decide)
theorem storeF : ∀ f ∈ storeFlds, f ∈ fs := fun f x => hf f (List.mem_append_left _ (List.mem_append_right _ x))

theorem keeps_pairError (h : Keeps bs fs a d) (e : Env) (fn p c : Nat) : Keeps bs fs a (d.pairError e fn p c) :=
  keeps_ringError (ntfB hb hf) (ntfF hb hf) (keeps_setAt2 (keeps_setAt2 h (hf _ (by decide)) _ _ _) (hf _ (by decide)) _ _ _) _ _ _ _

theorem keeps_replyRefused (h : Keeps bs fs a d) (e : Env) (fn p : Nat) : Keeps bs fs a (d.replyRefused e fn p) := by
  unfold Die.replyRefused
  split
  · exact keeps_pairError hb hf h _ _ _ _
  · exact keeps_ite (fun _ => h) fun _ => keeps_ringError (ntfB hb hf) (ntfF hb hf) (keeps_setPair h (hb _ (by decide)) _ _ _) _ _ _ _
  · exact h

theorem keeps_writeReply (h : Keeps bs fs a d) (e : Env) (r : Req) (rep : Reply) : Keeps bs fs a (d.writeReply e r rep) := by
  unfold Die.writeReply
  split
  · exact h
  · rename_i fn pair idx _
    refine keeps_ite (fun _ => keeps_dropReq h (hb _ (by decide)) _) fun _ => ?_
    have wb : ∀ (x : Die) (w n : Nat), Keeps bs fs a x → Keeps bs fs a (if x.hasAt2 .QUE_PAIR_CTL_WB_EN fn pair then
        if x.dmaOk (d.tenantOf fn) w 4 true then x.tenantWrite e (d.tenantOf fn) w (leBytes 4 n)
        else (x.dmaFault e (d.tenantOf fn) w 4 true).replyRefused e fn pair else x) := fun x w n hx =>
      keeps_ite (fun _ => keeps_ite (fun _ => keeps_tenantWrite' (ntfB hb hf) (ntfF hb hf) hx _ _ _ _)
        fun _ => keeps_replyRefused hb hf (keeps_dmaFault' (ntfB hb hf) (ntfF hb hf) hx _ _ _ _ _) _ _ _) fun _ => hx
    have rep1 : ∀ (x : Die), Keeps bs fs a x → Keeps bs fs a ((x.setAt2 .QUE_RPL_TAIL_INDEX fn pair
        (d.getAt2 .QUE_RPL_TAIL_INDEX fn pair + 1)).dropReq r.rid) := fun x hx =>
      keeps_dropReq (keeps_setAt2 hx (hf _ (by decide)) _ _ _) (hb _ (by decide)) _
    have fin : ∀ (x y : Die) (p q : PairState), Keeps bs fs a x → Keeps bs fs a y → Keeps bs fs a (if r.irq || decide (x.getAt2 .QUE_RPL_IRQ_COUNT fn pair ≤ p.sinceMsg + 1)
        then (y.setPair fn pair q).signal fn pair else y.setPair fn pair { p with sinceMsg := p.sinceMsg + 1 }) := fun x y p q hx hy =>
      keeps_ite (fun _ => keeps_signal' (ntfB hb hf) (ntfF hb hf) (keeps_setPair hy (hb _ (by decide)) _ _ _) _ _) fun _ => keeps_setPair hy (hb _ (by decide)) _ _ _
    by_cases ok : d.dmaOk (d.tenantOf fn) (d.getAt2 .QUE_RPL_BASE_ADDR fn pair / 4096 * 4096 +
        d.getAt2 .QUE_RPL_TAIL_INDEX fn pair % 2 ^ d.getAt2 .QUE_PAIR_CTL_SIZE_LOG2 fn pair * 32) 32 true
    · simp only [ok, if_true]
      exact fin _ _ _ _ (wb _ _ _ (rep1 _ (keeps_tenantWrite' (ntfB hb hf) (ntfF hb hf) h _ _ _ _)))
        (keeps_count' (ntfB hb hf) (ntfF hb hf) (wb _ _ _ (rep1 _ (keeps_tenantWrite' (ntfB hb hf) (ntfF hb hf) h _ _ _ _))) _ _ _ _)
    · simp only [ok, Bool.false_eq_true, if_false]
      exact wb _ _ _ (rep1 _ (keeps_replyRefused hb hf (keeps_dmaFault' (ntfB hb hf) (ntfF hb hf) h _ _ _ _ _) _ _ _))

theorem keeps_flushOne (h : Keeps bs fs a d) (e : Env) (fn p : Nat) : Keeps bs fs a (d.flushOne e fn p) := by
  unfold Die.flushOne
  split
  · split
    · exact keeps_writeReply hb hf h _ _ _
    · exact h
  · exact h

theorem keeps_flushPair (e : Env) (fn p : Nat) (n : Nat) : ∀ d, Keeps bs fs a d → Keeps bs fs a (Die.flushPair e fn p n d) := by
  induction n with
  | zero => intro d h; exact h
  | succ n ih => intro d h; exact ih _ (keeps_flushOne hb hf h _ _ _)

theorem keeps_writeHandle' (h : Keeps bs fs a d) (e : Env) (t k rid : Nat) : Keeps bs fs a (d.writeHandle e t k rid) :=
  keeps_writeHandle (storeB hb hf) (storeF hb hf) h _ _ _ _

theorem keeps_putObj (h : Keeps bs fs a d) (o : KeyObj) : Keeps bs fs a (d.putObj o) := keeps_key h (hb _ (by decide)) _

theorem keeps_resealExt (h : Keeps bs fs a d) (e : Env) (o n : KeyObj) : Keeps bs fs a (d.resealExt e o n).1 := by
  unfold Die.resealExt
  split
  · exact h
  split
  · exact h
  · exact keeps_tenantWrite' (ntfB hb hf) (ntfF hb hf) (keeps_draw h (hb _ (by decide)) _) _ _ _ _

theorem keeps_retire (h : Keeps bs fs a d) (e : Env) (t k : Nat) : Keeps bs fs a (d.retire e t k) := by
  unfold Die.retire
  split
  · exact h
  · exact keeps_ite (fun _ => keeps_writeHandle' hb hf (keeps_addAt (keeps_putObj hb hf h _) (hf _ (by decide)) _ _) _ _ _ _) fun _ => h

theorem keeps_finishDelete (h : Keeps bs fs a d) (e : Env) (t k slot : Nat) : Keeps bs fs a (d.finishDelete e t k slot) := by
  unfold Die.finishDelete
  split
  · exact h
  split
  · exact h
  · exact keeps_ite (fun _ => h) fun _ =>
      keeps_writeHandle' hb hf (keeps_setStage (keeps_key h (hb _ (by decide)) _) (hb _ (by decide)) _ _) _ _ _ _

theorem keeps_settleUse (h : Keeps bs fs a d) (e : Env) (r : Req) (b : Bool) : Keeps bs fs a (d.settleUse e r b) := by
  have h1 := keeps_updReq h (hb _ (by decide)) r.rid fun x => { x with use := none }
  unfold Die.settleUse
  split
  · exact h
  simp only
  split
  · exact h1
  · exact keeps_finishDelete hb hf (keeps_retire hb hf (keeps_putObj hb hf (keeps_resealExt hb hf h1 _ _ _) _) _ _ _) _ _ _ _

theorem keeps_takeCurve (h : Keeps bs fs a d) (rid : Nat) : Keeps bs fs a (d.takeCurve rid) := by
  unfold Die.takeCurve
  split
  · exact keeps_con h (hb _ (by decide)) _
  · exact h

theorem keeps_settleWaiters (h : Keeps bs fs a d) (rid by_ : Nat) : Keeps bs fs a (d.settleWaiters rid by_) := by
  unfold Die.settleWaiters
  exact keeps_foldl _ _ (fun b x => keeps_setStage (keeps_takeCurve hb hf (keeps_refl b) _) (hb _ (by decide)) _ _) _ (keeps_que h (hb _ (by decide)) _)

theorem keeps_nextNative (h : Keeps bs fs a d) (rid : Nat) : Keeps bs fs a (d.nextNative rid) := keeps_updReq h (hb _ (by decide)) _ _

theorem keeps_releaseCtx (h : Keeps bs fs a d) (rid : Nat) : Keeps bs fs a (d.releaseCtx rid) :=
  keeps_ntt (keeps_con h (hb _ (by decide)) { d.con with jobs := d.con.jobs.filter fun j => j.rid != rid || (match j.place with | .storing _ => false | _ => true) })
    (hb _ (by decide)) _

theorem keeps_dropCtx (h : Keeps bs fs a d) (id : Nat) : Keeps bs fs a (d.dropCtx id) := keeps_ntt h (hb _ (by decide)) _

theorem keeps_endStep (h : Keeps bs fs a d) (r : Req) (rep : Reply) : Keeps bs fs a (d.endStep r rep) := by
  unfold Die.endStep
  split
  · exact h
  · exact keeps_ite (fun _ => h) fun _ => keeps_ite (fun _ => keeps_wrap (keeps_dropCtx hb hf h _) (hf _ (by decide)) _) fun _ =>
      keeps_ite (fun _ => keeps_dropCtx hb hf h _) fun _ => h

theorem keeps_countStopped (h : Keeps bs fs a d) (r : Req) (rep : Reply) : Keeps bs fs a (d.countStopped r rep) := by
  unfold Die.countStopped
  split
  · exact keeps_ite (fun _ => keeps_updCtl h (hb _ (by decide)) _ _) fun _ => h
  · exact h

theorem keeps_countAborts (h : Keeps bs fs a d) (r : Req) (rep : Reply) : Keeps bs fs a (d.countAborts r rep) := by
  unfold Die.countAborts
  exact keeps_ite (fun _ => h) fun _ => keeps_ite (fun _ => keeps_wrap h (hf _ (by decide)) _) fun _ => h

theorem keeps_completeCore (h : Keeps bs fs a d) (e : Env) (r : Req) (rep : Reply) : Keeps bs fs a (d.completeCore e r rep) := by
  have h0 : ∀ (c : Req) (p : Reply) (x : Bool) (y : Nat), Keeps bs fs a ((((d.releaseCtx r.rid).endStep r p).settleUse e c x).settleWaiters r.rid y) :=
    fun c p x y => keeps_settleWaiters hb hf (keeps_settleUse hb hf (keeps_endStep hb hf (keeps_releaseCtx hb hf h _) _ _) _ _ _) _ _
  have h1 : ∀ (c : Req) (p q : Reply) (x : Bool) (y : Nat), Keeps bs fs a
      (((((((d.releaseCtx r.rid).endStep r p).settleUse e c x).settleWaiters r.rid y).setStage r.rid (.ready q)).countStopped r q).countAborts r q) :=
    fun c p q x y => keeps_countAborts hb hf (keeps_countStopped hb hf (keeps_setStage (h0 c p x y) (hb _ (by decide)) _ _) _ _) _ _
  unfold Die.completeCore
  refine keeps_ite (fun _ => keeps_nextNative hb hf (h0 _ _ _ _) _) fun _ => ?_
  split
  · exact keeps_flushPair hb hf _ _ _ _ _ (h1 _ _ _ _ _)
  · exact keeps_ens (h1 _ _ _ _ _) (hb _ (by decide)) _

theorem keeps_releaseWritten (h : Keeps bs fs a d) (e : Env) : Keeps bs fs a (d.releaseWritten e) := by
  unfold Die.releaseWritten
  refine keeps_foldl _ _ (fun b x => ?_) _ h
  split
  · exact keeps_completeCore hb hf (keeps_refl _) _ _ _
  · exact keeps_refl _

/-- Completing a request changes no more than `replyBlocks` and `replyFlds`. -/
theorem keeps_complete (h : Keeps bs fs a d) (e : Env) (r : Req) (rep : Reply) : Keeps bs fs a (d.complete e r rep) :=
  keeps_releaseWritten hb hf (keeps_completeCore hb hf h _ _ _) _

theorem keeps_completeWritten (h : Keeps bs fs a d) (e : Env) (r : Req) (rep : Reply) : Keeps bs fs a (d.completeWritten e r rep) :=
  keeps_releaseWritten hb hf (keeps_setStage h (hb _ (by decide)) _ _) _

theorem keeps_fail (h : Keeps bs fs a d) (e : Env) (r : Req) (st : Status) (x : Nat) : Keeps bs fs a (d.fail e r st x) :=
  keeps_complete hb hf h _ _ _

theorem keeps_output (h : Keeps bs fs a d) (e : Env) (r : Req) (addr : Nat) (b : Bytes) : Keeps bs fs a (d.output e r addr b) := by
  unfold Die.output
  exact keeps_ite (fun _ => h) fun _ => keeps_tenantWrite' (ntfB hb hf) (ntfF hb hf) h _ _ _ _

theorem keeps_finishOut (h : Keeps bs fs a d) (e : Env) (r : Req) (out : Bytes) : Keeps bs fs a (d.finishOut e r out) :=
  keeps_complete hb hf (keeps_output hb hf h _ _ _ _) _ _ _

/-- A request is failed, or its operation goes on. -/
theorem keeps_handle (h : Keeps bs fs a d) (e : Env) (rid op : Nat) (k : Req → Die)
    (hk : ∀ r, d.req? rid = some r → Keeps bs fs a (k r)) : Keeps bs fs a (d.handle e rid op k) := by
  unfold Die.handle
  split
  · exact h
  · rename_i r hr
    exact keeps_ite (fun _ => h) fun _ => keeps_ite (fun _ => keeps_fail hb hf h _ _ _ _) fun _ =>
      keeps_ite (fun _ => keeps_fail hb hf h _ _ _ _) fun _ => hk r hr

/-- A draw that is refused fails the request, one that is held leaves it waiting. -/
theorem keeps_withDraw (h : Keeps bs fs a d) (e : Env) (r : Req) (n : Nat) (k : Die → Nat → Die)
    (hk : ∀ x m, Keeps bs fs a x → Keeps bs fs a (k x m)) : Keeps bs fs a (d.withDraw e r n k) := by
  have hg := hb .rng (by decide)
  unfold Die.withDraw Die.drawFor
  by_cases h1 : d.get .RNG_STATUS_STATE == 3
  · simp only [h1, if_true]
    exact keeps_fail hb hf h _ _ _ _
  by_cases h2 : d.get .RNG_STATUS_STATE == 1 && decide (n ≤ d.rng.drbgBytes)
  · simp only [h1, h2, if_true, Bool.false_eq_true, if_false]
    exact hk _ _ (keeps_rng h hg _)
  · simp only [h1, h2, Bool.false_eq_true, if_false]
    exact keeps_ite (fun _ => h) fun _ => keeps_rng h hg _

theorem keeps_rangesOk (h : Keeps bs fs a d) (e : Env) (r : Req) (k : Die) (hk : Keeps bs fs a k) : Keeps bs fs a (d.rangesOk e r k) := by
  unfold Die.rangesOk
  exact keeps_ite (fun _ => keeps_fail hb hf h _ _ _ _) fun _ => keeps_ite (fun _ => keeps_fail hb hf (keeps_dmaFault' (ntfB hb hf) (ntfF hb hf) h _ _ _ _ _) _ _ _ _)
    fun _ => keeps_ite (fun _ => keeps_fail hb hf (keeps_dmaFault' (ntfB hb hf) (ntfF hb hf) h _ _ _ _ _) _ _ _ _) fun _ => keeps_port hk (hb _ (by decide)) _ _

end Reply

end Sys2Proof.Laws
end

