-- ==== Sys2Proof/Laws/KeepsAlarm.lean ====
section
/-! SUPPORT. Frames of stopped work and of alarms, and what the end of a command leaves as it was whether or not a store alarm is due. -/
namespace Sys2Proof.Laws

set_option linter.unusedSectionVars false

open Sys2Proof.Machine Sys2Proof.Safety

variable {bs : List Block} {fs : List Fld} {a d : Die}

/-! ## Stopped work -/

section Work

variable (hb : ∀ k ∈ workBlocks, k ∈ bs) (hf : ∀ f ∈ replyFlds, f ∈ fs)
include hb hf

theorem replyB : ∀ k ∈ replyBlocks, k ∈ bs := fun k x => hb k (List.mem_append_right _ x)

theorem keeps_resumeJobs (h : Keeps bs fs a d) : Keeps bs fs a d.resumeJobs := by
  unfold Die.resumeJobs
  exact keeps_ite (fun _ => h) fun _ => keeps_step h (fun k hk => by
    cases k <;> first | rfl | exact absurd (hb _ (by decide)) hk) fun _ _ _ _ => rfl

theorem keeps_forget (h : Keeps bs fs a d) (rid : Nat) : Keeps bs fs a (d.forget rid) :=
  keeps_resumeJobs hb hf (keeps_step h (fun k hk => by
    cases k <;> first | rfl | exact absurd (hb _ (by decide)) hk) fun _ _ _ _ => rfl)

theorem keeps_leaveSession (h : Keeps bs fs a d) (uid : Nat) : Keeps bs fs a (d.leaveSession uid) :=
  keeps_mapSessions h (hb _ (by decide)) _ _

theorem keeps_stopOne (h : Keeps bs fs a d) (e : Env) (st : Status) (r : Req) : Keeps bs fs a (Die.stopOne e st d r) := by
  have hfail : ∀ n, Keeps bs fs a ((d.forget r.rid).fail e r st n) := fun n =>
    keeps_fail (replyB hb hf) hf (keeps_forget hb hf h _) _ _ _ _
  unfold Die.stopOne
  split
  · exact keeps_ite (fun _ => h) fun _ => hfail _
  · exact keeps_ite (fun _ => h) fun _ => hfail _
  · exact keeps_ite (fun _ => hfail _) fun _ => keeps_ite (fun _ => hfail _) fun _ =>
      keeps_ite (fun _ => keeps_updReq h (hb _ (by decide)) _ _) fun _ => h
  · exact h

theorem keeps_stopWork (h : Keeps bs fs a d) (e : Env) (sel : Req → Bool) (st : Status) : Keeps bs fs a (d.stopWork e sel st) :=
  keeps_foldl _ _ (fun b r => keeps_stopOne hb hf (keeps_refl b) e st r) _ h

theorem keeps_discard (h : Keeps bs fs a d) (e : Env) (r : Req) : Keeps bs fs a (d.discard e r) := by
  have h1 : Keeps bs fs a (if r.sess != 0 && r.stage == .running then d.leaveSession r.sess else d) :=
    keeps_ite (fun _ => keeps_leaveSession hb hf h _) fun _ => h
  unfold Die.discard
  exact keeps_dropReq (keeps_countAborts (replyB hb hf) hf (keeps_settleWaiters (replyB hb hf) hf (keeps_settleUse (replyB hb hf) hf
    (keeps_forget hb hf h1 _) _ _ _) _ _) _ _) (hb _ (by decide)) _

theorem keeps_discardWhere (h : Keeps bs fs a d) (e : Env) (sel : Req → Bool) : Keeps bs fs a (d.discardWhere e sel) :=
  keeps_foldl _ _ (fun b r => keeps_discard hb hf (keeps_refl b) e r) _ h

theorem keeps_haltOne (h : Keeps bs fs a d) (e : Env) (r : Req) : Keeps bs fs a (Die.haltOne e d r) := by
  unfold Die.haltOne
  exact keeps_ite (fun _ => h) fun _ => keeps_complete (replyB hb hf) hf (keeps_forget hb hf
    (keeps_ite (fun _ => keeps_leaveSession hb hf h _) fun _ => h) _) _ _ _

theorem keeps_haltWork (h : Keeps bs fs a d) (e : Env) : Keeps bs fs a (d.haltWork e) :=
  keeps_foldl _ _ (fun b r => keeps_haltOne hb hf (keeps_refl b) e r) _ h

end Work

/-! ## Alarms -/

section Alarm

variable (hb : ∀ k ∈ alarmBlocks, k ∈ bs) (hf : ∀ f ∈ alarmFlds, f ∈ fs)
include hb hf

theorem workB : ∀ k ∈ workBlocks, k ∈ bs := fun k x => hb k (by revert k; decide)
theorem alarmF : ∀ f ∈ replyFlds, f ∈ fs := fun f x => hf f (List.mem_append_right _ x)
theorem alarmLoss : ∀ f ∈ lossFlds, f ∈ fs := fun f x => hf f (List.mem_append_right _ (by revert f; decide))

theorem keeps_setCond (h : Keeps bs fs a d) (src : Nat) (v : Bool) : Keeps bs fs a (d.setCond src v) := keeps_set h (hf _ (by decide)) _

theorem keeps_latchAlarm (h : Keeps bs fs a d) (src : Nat) : Keeps bs fs a (d.latchAlarm src) :=
  keeps_signal (keeps_set h (hf _ (by decide)) _) (hb _ (by decide)) (hb _ (by decide)) _ _

theorem keeps_outLow (h : Keeps bs fs a d) : Keeps bs fs a d.outLow := by
  unfold Die.outLow
  exact keeps_ite (fun _ => h) fun _ => keeps_emit (keeps_set h (hf _ (by decide)) _) (hb _ (by decide)) _

theorem keeps_showRank (h : Keeps bs fs a d) : Keeps bs fs a d.showRank :=
  keeps_set (keeps_set h (hf _ (by decide)) _) (hf _ (by decide)) _

theorem keeps_backupLog (h : Keeps bs fs a d) (src kind : Nat) (c : Bool) : Keeps bs fs a (d.backupLog src kind c) :=
  keeps_tmp (keeps_set (keeps_set (keeps_setAt2 (keeps_setAt2 h (hf _ (by decide)) _ _ _) (hf _ (by decide)) _ _ _)
    (hf _ (by decide)) _) (hf _ (by decide)) _) (hb _ (by decide)) _

theorem keeps_endDebug (h : Keeps bs fs a d) (e : Env) : Keeps bs fs a (d.endDebug e) := by
  unfold Die.endDebug
  exact keeps_ite (fun _ => h) fun _ => keeps_reportOf (keeps_set (keeps_set (keeps_set (keeps_lcs h (hb _ (by decide)) _)
    (hf _ (by decide)) _) (hf _ (by decide)) _) (hf _ (by decide)) _) (hb _ (by decide)) (hb _ (by decide)) (hb _ (by decide))
    (alarmLoss hb hf) _ _

theorem keeps_stampCalm (h : Keeps bs fs a d) (rank : Nat) : Keeps bs fs a (d.stampCalm rank) := keeps_tmp h (hb _ (by decide)) _

theorem keeps_zeroizeSessions (h : Keeps bs fs a d) : Keeps bs fs a d.zeroizeSessions :=
  keeps_step h (fun k hk => by
    cases k <;> first | rfl | exact absurd (hb _ (by decide)) hk) fun _ _ _ _ => rfl

theorem keeps_zeroizeRoots (h : Keeps bs fs a d) : Keeps bs fs a d.zeroizeRoots := by
  have h1 : ∀ x : Die, Keeps bs fs a x → Keeps bs fs a ((((x.set .KEY_ROOT_STATUS_ESK_VALID 0).set .KEY_ROOT_STATUS_SHARE_HELD 0).set
      .KEY_ROOT_STATUS_BBK_VALID 0).set .TMP_BACKUP_STATUS_BBK_ZEROIZED 1) := fun x hx =>
    keeps_set (keeps_set (keeps_set (keeps_set hx (hf _ (by decide)) _) (hf _ (by decide)) _) (hf _ (by decide)) _) (hf _ (by decide)) _
  exact h1 _ (keeps_step h (fun k hk => by cases k <;> first | rfl | exact absurd (hb _ (by decide)) hk) fun _ _ _ _ => rfl)

theorem keeps_performRank (h : Keeps bs fs a d) (e : Env) (rank : Nat) : Keeps bs fs a (d.performRank e rank) := by
  have h0 := keeps_stampCalm hb hf h rank
  have h1 : Keeps bs fs a (if 1 ≤ rank then (d.stampCalm rank).set .TMP_STATUS_THROTTLED 1 else d.stampCalm rank) :=
    keeps_ite (fun _ => keeps_set h0 (hf _ (by decide)) _) fun _ => h0
  have h2 : ∀ x : Die, Keeps bs fs a x → Keeps bs fs a (if 2 ≤ rank then
      ({ x.set .TMP_STATUS_HALTED 1 with tmp := { (x.set .TMP_STATUS_HALTED 1).tmp with released := false, quiet := false } }.haltWork e).endDebug e
      else x) := fun x hx => keeps_ite (fun _ => keeps_endDebug hb hf (keeps_haltWork (workB hb hf) (alarmF hb hf)
        (keeps_tmp (keeps_set hx (hf _ (by decide)) _) (hb _ (by decide)) _) _) _) fun _ => hx
  have h3 : ∀ x : Die, Keeps bs fs a x → Keeps bs fs a (if 3 ≤ rank then x.zeroizeSessions else x) := fun x hx =>
    keeps_ite (fun _ => keeps_zeroizeSessions hb hf hx) fun _ => hx
  have h4 : ∀ x : Die, Keeps bs fs a x → Keeps bs fs a (if 4 ≤ rank then x.zeroizeRoots else x) := fun x hx =>
    keeps_ite (fun _ => keeps_zeroizeRoots hb hf hx) fun _ => hx
  exact keeps_showRank hb hf (keeps_tmp (h4 _ (h3 _ (h2 _ h1))) (hb _ (by decide)) _)

theorem keeps_fire (h : Keeps bs fs a d) (e : Env) (src kind : Nat) : Keeps bs fs a (d.fire e src kind) := by
  unfold Die.fire
  refine keeps_performRank hb hf (keeps_ite (fun _ => keeps_sendRing ?_ (hb _ (by decide)) (hb _ (by decide)) (hb _ (by decide)) _ _ _)
    fun _ => ?_) _ _
  all_goals
    refine keeps_ite (fun _ => keeps_tmp (keeps_outLow hb hf ?_) (hb _ (by decide)) _) fun _ => ?_
    all_goals
      refine keeps_ite (fun _ => keeps_backupLog hb hf ?_ _ _ _) fun _ => ?_
      all_goals exact keeps_report (keeps_latchAlarm hb hf h _) (hb _ (by decide)) (hb _ (by decide)) (hb _ (by decide)) (alarmLoss hb hf) _ _

theorem keeps_alarm (h : Keeps bs fs a d) (e : Env) (src kind : Nat) : Keeps bs fs a (d.alarm e src kind) := by
  unfold Die.alarm
  exact keeps_ite (fun _ => h) fun _ => keeps_fire hb hf (keeps_setCond hb hf h _ _) _ _ _

theorem keeps_alarmEvent (h : Keeps bs fs a d) (e : Env) (src kind : Nat) : Keeps bs fs a (d.alarmEvent e src kind) := by
  unfold Die.alarmEvent
  exact keeps_ite (fun _ => h) fun _ => keeps_fire hb hf h _ _ _

theorem keeps_presentAlarm (h : Keeps bs fs a d) (e : Env) : Keeps bs fs a (d.presentAlarm e) := by
  unfold Die.presentAlarm
  split
  · exact keeps_mlf (keeps_alarm hb hf h _ _ _) (hb _ (by decide)) _
  · exact h

end Alarm

/-! ## The end of a command -/

theorem keeps_finish (s : State) (d : Die) : Keeps alarmBlocks alarmFlds d (s.finish d).die := by
  have h := keeps_presentAlarm (bs := alarmBlocks) (fs := alarmFlds) (fun _ h => h) (fun _ h => h) (keeps_refl d) s.env
  refine ⟨fun k hk => ?_, fun f i j hg => (settle_getAt2 _ f i j).trans (h.2 f i j hg)⟩
  have hk1 := h.1 k hk
  show k.Same d (d.presentAlarm s.env).settle
  cases k <;> first
    | exact absurd (by decide) hk
    | (simp only [Block.Same] at hk1 ⊢; simpa using hk1)

/-- The end of a command leaves a register that no alarm changes as it was. -/
theorem finish_kept2 (s : State) (d : Die) {f : Fld} (h : f ∉ alarmFlds) (i j : Nat) : (s.finish d).die.getAt2 f i j = d.getAt2 f i j :=
  (keeps_finish s d).2 f i j h
theorem finish_keptAt (s : State) (d : Die) {f : Fld} (h : f ∉ alarmFlds) (i : Nat) : (s.finish d).die.getAt f i = d.getAt f i :=
  finish_kept2 s d h i 0
theorem finish_kept (s : State) (d : Die) {f : Fld} (h : f ∉ alarmFlds) : (s.finish d).die.get f = d.get f := finish_kept2 s d h 0 0

/-- A command that may write the store leaves what neither it nor an alarm changes. -/
theorem storeFrame_kept {s t : State} (h : StoreFrame bs fs s t) {f : Fld} (h1 : f ∉ fs) (h2 : f ∉ alarmFlds) (i j : Nat) :
    t.die.getAt2 f i j = s.die.getAt2 f i j := by
  obtain ⟨d, hk, rfl⟩ := h
  rw [finish_kept2 _ _ h2, hk.2 f i j h1]

end Sys2Proof.Laws
end

