-- ==== Sys2Proof/Laws/Memory.lean ====
section
/-! SUPPORT. Host memory: every operation keeps its canonical form, and changes the bytes it writes and no other. -/
namespace Sys2Proof.Laws

open Sys2Proof.Machine

theorem memWf_memWrite (m : List Host.Cell) (a : Nat) (b : Byte) (h : memWf m = true) : memWf (memWrite m a b) = true :=
  swf_sput _ m a b h

theorem memWf_memWrites (bs : Bytes) : ∀ (m : List Host.Cell) (a : Nat), memWf m = true → memWf (memWrites m a bs) = true := by
  induction bs with
  | nil => intro m a h; exact h
  | cons b r ih => intro m a h; exact ih _ _ (memWf_memWrite m a b h)

theorem memWf_memPost (ws : List (Nat × Bytes)) : ∀ m : List Host.Cell, memWf m = true → memWf (memPost m ws) = true := by
  induction ws with
  | nil => intro m h; exact h
  | cons w r ih => intro m h; exact ih _ (memWf_memWrites w.2 m w.1 h)

theorem memRead_memWrite (m : List Host.Cell) (a c : Nat) (b : Byte) :
    memRead (memWrite m a b) c = if c = a then b else memRead m c := sget_sput _ m a c b

/-- A byte string lies where it was written, and nothing else changes. -/
theorem memRead_memWrites (bs : Bytes) : ∀ (m : List Host.Cell) (a c : Nat),
    memRead (memWrites m a bs) c = if a ≤ c ∧ c < a + bs.length then bs.getD (c - a) 0 else memRead m c := by
  induction bs with
  | nil => intro m a c; rw [if_neg (by simp)]; rfl
  | cons b r ih =>
    intro m a c
    simp only [memWrites, ih, memRead_memWrite, List.length_cons]
    by_cases h : c = a
    · subst h; simp
    · by_cases h2 : a + 1 ≤ c ∧ c < a + 1 + r.length
      · have : a ≤ c ∧ c < a + (r.length + 1) := by omega
        rw [if_pos h2, if_pos this]
        have e : c - a = (c - (a + 1)) + 1 := by omega
        rw [e]; simp
      · rw [if_neg h2, if_neg h, if_neg (by omega)]

theorem memRead_memPost_nil (m : List Host.Cell) : memPost m [] = m := rfl

theorem memPost_append (m : List Host.Cell) (a b : List (Nat × Bytes)) : memPost m (a ++ b) = memPost (memPost m a) b := by
  simp [memPost, List.foldl_append]

/-- A byte that no posted write covers is as it was. -/
theorem memRead_memPost_of_outside (ws : List (Nat × Bytes)) (c : Nat) : ∀ m : List Host.Cell,
    (∀ w ∈ ws, ¬ (w.1 ≤ c ∧ c < w.1 + w.2.length)) → memRead (memPost m ws) c = memRead m c := by
  induction ws with
  | nil => intro m _; rfl
  | cons w r ih =>
    intro m h
    have e : memPost m (w :: r) = memPost (memWrites m w.1 w.2) r := rfl
    rw [e, ih _ fun x hx => h x (List.mem_cons_of_mem _ hx), memRead_memWrites, if_neg (h w List.mem_cons_self)]

/-- A read inside a byte string that was written gives that part of it. -/
theorem memReads_memWrites_inside (bs : Bytes) (m : List Host.Cell) (a i n : Nat) (h : i + n ≤ bs.length) :
    memReads (memWrites m a bs) (a + i) n = (bs.drop i).take n := by
  apply List.ext_getElem?
  intro k
  simp only [memReads, List.getElem?_map, List.getElem?_take]
  by_cases hk : k < n
  · rw [List.getElem?_range hk, if_pos hk, Option.map_some, memRead_memWrites, if_pos (by omega), List.getElem?_drop]
    have e : a + i + k - a = i + k := by omega
    rw [e, List.getD_eq_getElem?_getD, List.getElem?_eq_getElem (by omega)]
    rfl
  · rw [if_neg hk, List.getElem?_eq_none (by simpa using Nat.le_of_not_lt hk)]
    rfl

/-- A read beside a byte string that was written gives what it gave before. -/
theorem memReads_memWrites_outside (bs : Bytes) (m : List Host.Cell) (a c n : Nat) (h : c + n ≤ a ∨ a + bs.length ≤ c) :
    memReads (memWrites m a bs) c n = memReads m c n := by
  apply List.map_congr_left
  intro k hk
  rw [List.mem_range] at hk
  rw [memRead_memWrites, if_neg (by omega)]

end Sys2Proof.Laws
end

