-- ==== Sys2Proof/Laws/Requests.lean ====
section
/-! SUPPORT. The common path of requests: an accepted request is handled by its own operation. -/
namespace Sys2Proof.Laws

open Sys2Proof.Machine Sys2Proof.Safety

theorem handle_accepted {d : Die} {rid op : Nat} {r : Req} (h : Accepted d rid op r) (e : Env) (k : Req → Die) :
    d.handle e rid op k = k r := by
  obtain ⟨h1, h2, h3, h4, h5, h6, h7⟩ := h
  simp [Die.handle, h1, h2, h3, h4, h5, h6, h7]

theorem rangesOk_ok {d : Die} {r : Req} (h : RangesOk d r) (e : Env) (k : Die) : d.rangesOk e r k = k.port 0 r.inLen := by
  obtain ⟨h1, h2, h3⟩ := h
  simp [Die.rangesOk, h1, h2, h3]

end Sys2Proof.Laws
end

