-- ==== Sys2Proof/Tests/Slice0.lean ====
section
/-! SUPPORT. The model's own tests: the well-formedness check, decoding, and a witness for every statement that has
hypotheses. -/
namespace Sys2Proof.Tests

open Sys2Proof.Machine Sys2Proof.Safety Sys2Proof.Laws

/-! ## Well-formedness -/

/-- A term for each check of `Instr.wf` that breaks this check alone. -/
theorem test_wf_refuses0 :
    (([.registerWrite .secure 0x2000000 4 1,
      .registerWrite .secure 1 3 1,
      .mmioBadAccess 10000 1 1 true,
      .linkUp 0 1 1 none,
      .linkUp 1 10000 1 none,
      .linkUp 1 1 10000 none,
      .linkTrainFail 0,
      .retrain 0 1 1,
      .retrain 1 10000 1,
      .retrain 1 1 10000,
      .laneRepairRetrain 0 1 1,
      .laneRepairRetrain 1 10000 1,
      .laneRepairRetrain 1 1 10000,
      .descriptorReadError 10000 1 none,
      .descriptorReadError 1 10000 none,
      .msixVectorUnmask 10000 1,
      .msixVectorUnmask 1 10000,
      .functionLevelReset 10000,
      .queReqTailDb 10000 1 1,
      .queReqTailDb 1 10000 1,
      .queRplHeadDb 10000 1 1,
      .queRplHeadDb 1 10000 1,
      .queNtfHeadDb 10000 1,
      .descriptorFetch 10000 1] : List Instr).all fun i => i.wf == false) = true := by decide
/-- A term for each check of `Instr.wf` that breaks this check alone. -/
theorem test_wf_refuses1 :
    (([.descriptorFetch 1 10000,
      .pairEnable 10000 1 1,
      .pairEnable 1 10000 1,
      .pairDisable 10000 1,
      .pairDisable 1 10000,
      .pairDrainDone 10000 1,
      .pairDrainDone 1 10000,
      .ntfEnable 10000 1,
      .ntfDisable 10000,
      .rplIrqTimer 10000 1,
      .rplIrqTimer 1 10000,
      .ntfIrqTimer 10000,
      .ringFwdReq 10000 1 1 1 (List.replicate 64 0) [],
      .ringFwdReq 1 1 10000 1 (List.replicate 64 0) [],
      .ringFwdReq 1 1 1 10000 (List.replicate 64 0) [],
      .ringFwdReq 1 1 1 1 [] [],
      .ringFwdCpl 10000 1 [],
      .laneQuarantineCmd 10000,
      .laneReleaseCmd 10000,
      .laneKatDone 10000 true,
      .hashQuarantineCmd 10000,
      .hashReleaseCmd 10000,
      .hashKatDone 10000 true,
      .recSteerWrite 10000 1] : List Instr).all fun i => i.wf == false) = true := by decide
/-- A term for each check of `Instr.wf` that breaks this check alone. -/
theorem test_wf_refuses2 :
    (([.recSteerWrite 1 10000,
      .steerUpdateReceived 10000 1 true,
      .steerUpdateReceived 1 10000 true,
      .agedBatchTimer 10000 none,
      .mirrorReceived 10000 [],
      .resealChildDone 0 1 1 true,
      .resealChildDone 1 1 10000 true,
      .poisonReformat 10000,
      .archiveBump 10000 true none,
      .conDispatch 10000,
      .conQuarantineCmd 10000,
      .conReleaseCmd 10000,
      .conKatDone 10000 true,
      .nttDispatch 10000,
      .nttQuarantineCmd 10000,
      .nttReleaseCmd 10000,
      .nttKatDone 10000 true,
      .rngWindowClose [] (List.replicate 4 0),
      .rngWindowClose (List.replicate 4 0) [],
      .drbgReseedTimer 10000,
      .rngHealthFail 10000 true,
      .rngInject 10000,
      .rngRawRead 10000,
      .activate 10000] : List Instr).all fun i => i.wf == false) = true := by decide
/-- A term for each check of `Instr.wf` that breaks this check alone. -/
theorem test_wf_refuses3 :
    (([.quiesce 10000,
      .quiesceDone 10000,
      .quiesceLate 10000,
      .resume 10000,
      .reset 10000,
      .tenantResetForced 10000,
      .tenantResetClear 10000,
      .remove 10000 none,
      .handleRegionClear 10000,
      .tenCmdRefused 10000 1,
      .tenCmdRefused 1 10000,
      .presenceExpire 10000,
      .memberQuarantine 10000,
      .ringLinkUp true true 10000 (List.replicate 48 0) 1,
      .ringLinkUp true true 1 [] 1,
      .ringLinkUp true true 1 (List.replicate 48 0) 10000,
      .eskReceived [1] [] [] true 1,
      .neighbourReport 10000 true,
      .failingReceived 10000 true,
      .linkGraceTimeout 10000,
      .declarationReceived 10000,
      .serveMapUpdate 10000 1,
      .serveMapUpdate 1 10000,
      .handback 10000 true] : List Instr).all fun i => i.wf == false) = true := by decide
/-- A term for each check of `Instr.wf` that breaks this check alone. -/
theorem test_wf_refuses4 :
    (([.handbackDone 10000 [],
      .standbyWrite 10000 true 1 true true,
      .standbyWrite 1 true 10000 true true,
      .tamperMessageReceived 10000 1 1,
      .tamperMessageReceived 1 0 1,
      .tamperMessageReceived 1 1 10000,
      .potOwnerChange 10000 1 1 [] [],
      .potOwnerChange 1 10000 1 [] [],
      .potOwnerChange 1 1 10000 [] [],
      .gateCall 10000 1 1 1 (List.replicate 24 0),
      .gateCall 1 (2 ^ 32) 1 1 (List.replicate 24 0),
      .gateCall 1 1 (2 ^ 32) 1 (List.replicate 24 0),
      .gateCall 1 1 1 1 [],
      .gateReturn 10000 (List.replicate 24 0),
      .gateReturn 1 [],
      .worldInterrupt 10000 1 1 1 (List.replicate 24 0),
      .worldInterrupt 1 10000 1 1 (List.replicate 24 0),
      .worldInterrupt 1 1 10000 1 (List.replicate 24 0),
      .worldInterrupt 1 1 1 1 [],
      .mpuCommit 10000,
      .mpuCommitEffect 10000,
      .meshAlarm 10000 1,
      .tamperPinAlarm 10000 1,
      .glitch 10000] : List Instr).all fun i => i.wf == false) = true := by decide
/-- A term for each check of `Instr.wf` that breaks this check alone. -/
theorem test_wf_refuses5 :
    (([.backupSample 0 1,
      .backupTimeSet (2 ^ 64),
      .bistStart 0 1,
      .blockIdleGate 10000,
      .governorTick [],
      .warmResetCmd 10000,
      .ensembleResetCmd 10000,
      .powerCycleCmd 10000,
      .debugMasterAccess 1 10000 true [],
      .alarmConditionClear 0,
      .lowWordRead 10000 4,
      .lowWordRead 1 5] : List Instr).all fun i => i.wf == false) = true := by decide
/-- Well-formed terms. -/
theorem test_wf_accepts0 :
    (([.registerWrite .secure 1 4 1,
      .mmioBadAccess 1 1 1 true,
      .linkUp 1 1 1 none,
      .linkTrainFail 1,
      .retrain 1 1 1,
      .laneRepairRetrain 1 1 1,
      .descriptorReadError 1 1 none,
      .msixVectorUnmask 1 1,
      .functionLevelReset 1,
      .queReqTailDb 1 1 1,
      .queRplHeadDb 1 1 1,
      .queNtfHeadDb 1 1,
      .descriptorFetch 1 1,
      .pairEnable 1 1 1,
      .pairDisable 1 1,
      .pairDrainDone 1 1,
      .ntfEnable 1 1,
      .ntfDisable 1,
      .rplIrqTimer 1 1,
      .ntfIrqTimer 1,
      .ringFwdReq 1 1 1 1 (List.replicate 64 0) [],
      .ringFwdCpl 1 1 [],
      .laneQuarantineCmd 1,
      .laneReleaseCmd 1] : List Instr).all fun i => i.wf == true) = true := by decide
/-- Well-formed terms. -/
theorem test_wf_accepts1 :
    (([.laneKatDone 1 true,
      .hashQuarantineCmd 1,
      .hashReleaseCmd 1,
      .hashKatDone 1 true,
      .recSteerWrite 1 1,
      .steerUpdateReceived 1 1 true,
      .agedBatchTimer 1 none,
      .mirrorReceived 1 [],
      .resealChildDone 1 1 1 true,
      .poisonReformat 1,
      .archiveBump 1 true none,
      .conDispatch 1,
      .conQuarantineCmd 1,
      .conReleaseCmd 1,
      .conKatDone 1 true,
      .nttDispatch 1,
      .nttQuarantineCmd 1,
      .nttReleaseCmd 1,
      .nttKatDone 1 true,
      .rngWindowClose (List.replicate 4 0) (List.replicate 4 0),
      .drbgReseedTimer 1,
      .rngHealthFail 1 true,
      .rngInject 1,
      .rngRawRead 1] : List Instr).all fun i => i.wf == true) = true := by decide
/-- Well-formed terms. -/
theorem test_wf_accepts2 :
    (([.activate 1,
      .quiesce 1,
      .quiesceDone 1,
      .quiesceLate 1,
      .resume 1,
      .reset 1,
      .tenantResetForced 1,
      .tenantResetClear 1,
      .remove 1 none,
      .handleRegionClear 1,
      .tenCmdRefused 1 1,
      .presenceExpire 1,
      .memberQuarantine 1,
      .ringLinkUp true true 1 (List.replicate 48 0) 1,
      .eskReceived [] [] [] true 1,
      .neighbourReport 1 true,
      .failingReceived 1 true,
      .linkGraceTimeout 1,
      .declarationReceived 1,
      .serveMapUpdate 1 1,
      .handback 1 true,
      .handbackDone 1 [],
      .standbyWrite 1 true 1 true true,
      .tamperMessageReceived 1 1 1] : List Instr).all fun i => i.wf == true) = true := by decide
/-- Well-formed terms. -/
theorem test_wf_accepts3 :
    (([.potOwnerChange 1 1 1 [] [],
      .gateCall 1 1 1 1 (List.replicate 24 0),
      .gateReturn 1 (List.replicate 24 0),
      .worldInterrupt 1 1 1 1 (List.replicate 24 0),
      .mpuCommit 1,
      .mpuCommitEffect 1,
      .meshAlarm 1 1,
      .tamperPinAlarm 1 1,
      .glitch 1,
      .backupSample 1 1,
      .backupTimeSet 1,
      .bistStart 1 1,
      .blockIdleGate 1,
      .governorTick (List.replicate 10 0),
      .warmResetCmd 1,
      .ensembleResetCmd 1,
      .powerCycleCmd 1,
      .debugMasterAccess 1 1 true [],
      .alarmConditionClear 1,
      .lowWordRead 1 4] : List Instr).all fun i => i.wf == true) = true := by decide
set_option maxRecDepth 20000
set_option exponentiation.threshold 4096

/-! ## Witnesses: small states -/

/-- A die with the fields of `l` written: field, its two indices, value. -/
def withRegs (l : List (Fld × Nat × Nat × Nat)) (d : Die) : Die := l.foldl (fun d x => d.setAt2 x.1 x.2.1 x.2.2.1 x.2.2.2) d

/-- The state whose die is `d`, with nothing waiting and host memory empty. -/
def st (d : Die) : State := { State.reset with die := d }

/-- The die after reset with the fields of `l` written. -/
def regs (l : List (Fld × Nat × Nat × Nat)) : Die := withRegs l Die.reset

/-- The state after reset with the fields of `l` written. -/
def rs (l : List (Fld × Nat × Nat × Nat)) : State := st (regs l)

/-- A descriptor: zeros but for the little-endian fields given by offset, length and value. -/
def descOf (op : Nat) (l : List (Nat × Nat × Nat)) : Bytes :=
  l.foldl (fun b x => b.take x.1 ++ leBytes x.2.1 x.2.2 ++ b.drop (x.1 + x.2.1)) (leBytes 1 op ++ zeros 63)

/-- Request 1 of pair 0 of the physical function, fetched, with opcode `op` and the fields of `l`. -/
def req (op : Nat) (l : List (Nat × Nat × Nat)) : Req :=
  { rid := 1, tenant := 0, origin := .pair 0 0 0, desc := descOf op l, stage := .fetched, stop := none, stopBy := 0, input := [],
    use := none, allowed := false, sess := 0, orig := [], rest := [], behind := [], stamp := none, spoiled := none, work := [], worked := false,
    drawn := 0, relaned := false, fetchMs := 0 }

/-- A die in which request `r` is in flight. -/
def withReq (r : Req) (d : Die) : Die := { d with que := { d.que with reqs := [r] } }

/-- A die whose clocks are armed. -/
def armed (d : Die) : Die := { d with clk := { d.clk with phase := .armed, stable := true, booted := true } }

/-- A die whose functions 0 and 1 may read and write the first terabyte of host memory. -/
def withMem (d : Die) : Die :=
  withRegs [(.MPU_RGN_ATTR_ENABLE, 0, 0, 1), (.MPU_RGN_ATTR_SIZE_LOG2, 0, 0, 40), (.MPU_RGN_ATTR_R, 0, 0, 1), (.MPU_RGN_ATTR_W, 0, 0, 1),
    (.MPU_RGN_ATTR_ENABLE, 1, 0, 1), (.MPU_RGN_ATTR_SIZE_LOG2, 1, 0, 40), (.MPU_RGN_ATTR_R, 1, 0, 1), (.MPU_RGN_ATTR_W, 1, 0, 1)] d

/-- A die that runs: its clocks armed, its link up, functions 0 and 1 ready and ACTIVE with memory, its pairs 0 running;
the life cycle is Mission and the virtual functions are enabled. -/
def live : Die :=
  let d := withMem (armed (regs [(.LCS_STATE_STATE, 0, 0, 4), (.HLK_STATUS_LINK_UP, 0, 0, 1), (.QUE_PAGE_STATUS_READY, 0, 0, 1), (.QUE_PAGE_STATUS_READY, 1, 0, 1),
    (.TEN_STATE_STATE, 0, 0, 2), (.TEN_STATE_STATE, 1, 0, 2), (.QUE_PAIR_STATUS_STATE, 0, 0, 1), (.QUE_PAIR_STATUS_STATE, 1, 0, 1),
    (.ENS_STATUS_STATE, 0, 0, 2)]))
  { d with que := { d.que with vfEnable := true, crs := false } }

/-- The live die with request `r` in flight. -/
def liveReq (r : Req) : State := st (withReq r live)

/-- Session 1 of tenant 0, an ESP session in bucket 0, by the handle 1. -/
def sess : Session :=
  { uid := 1, tenant := 0, home := 0, bucket := 0, sid := 1, crumb := false, slots := [0], proto := 1, suite := 1, sflags := 0, idLen := 4,
    lastSeen := 0, wCode := 0, ident := zeros 4, key := zeros 16, salt := zeros 4, h := 0, bitmap := 1, seq := 0, fails := 0, peerCid := [],
    rdEpoch := 0, wrEpoch := 0, rdKey := [], rdIv := [], rdSn := [], wrKey := [], wrIv := [], wrSn := [], hostH := 0, hostSeq := 0,
    hostFails := 0, ways := [0], rrpv := 0, inFlight := 0, deleting := none }

/-- A key object at `handle` of tenant 0, cached and with uses that are not counted. -/
def keyObj (handle type usage aflags : Nat) : KeyObj :=
  { tenant := 0, handle, type, usage, aflags, origin := 0, policyId := 0, param := 0, len := 16, uses := uncounted, vgen := 0,
    material := zeros 96, ways := [0], rrpv := 0, inFlight := 0, hostUses := uncounted, deleting := none }

/-- The live die serving its own slice, with the ESK and key objects `os`. -/
def keyed (os : List KeyObj) : Die :=
  let d := withRegs [(.MLF_STATUS_STATE, 0, 0, 1), (.KFT_TEN_KEYS_QUOTA, 0, 0, 16), (.RNG_STATUS_STATE, 0, 0, 1)] live
  { d with key := { d.key with esk := some (zeros 32), objs := os } }

/-- The die with session `x` in its table. -/
def withSess (x : Session) (d : Die) : Die := { d with kft := { d.kft with sessions := [x] } }

/-! ## Witnesses: the host link and the tenants -/

/-- LinkTrains: training at the highest and the lowest rate, a link that is down, one that is up. -/
theorem witness_LinkTrains :
    (let s := st (armed Die.reset)
     Settled s ∧ (Instr.linkUp 3 4 4 none).wf = true ∧ 3 ≤ s.die.maxRate ∧ s.die.clk.phase = .armed ∧ s.die.get .HLK_STATUS_LINK_UP = 0) ∧
    (let s := st (withRegs [(.HLK_STATUS_LINK_UP, 0, 0, 1), (.HLK_CTL_MAX_RATE, 0, 0, 0)] (armed Die.reset))
     Settled s ∧ (Instr.laneRepairRetrain 1 0 0).wf = true ∧ (Instr.laneRepairRetrain 1 5 0).wf = true ∧ 1 ≤ s.die.maxRate ∧
       s.die.get .HLK_STATUS_LINK_UP = 1 ∧ s.die.clk.booted = true) ∧
    (let s := st live
     Settled s ∧ (Instr.linkUp 3 0 0 (some 1)).wf = true ∧ s.die.isLead = true ∧ 1 ≠ s.die.pos) := by decide

/-- LinkErrors: a link in training, one that is up, and an access of 3 bytes. -/
theorem witness_LinkErrors :
    (let s := st (armed Die.reset)
     Settled s ∧ s.die.clk.phase = .armed ∧ s.die.get .HLK_STATUS_LINK_UP = 0) ∧
    (Settled (st live) ∧ live.get .HLK_STATUS_LINK_UP = 1 ∧ live.barOpen 0 = true) ∧ ¬((3 = 4 ∨ 3 = 8) ∧ 0 % 3 = 0) ∧ ¬((8 = 4 ∨ 8 = 8) ∧ 4 % 8 = 0) := by decide

/-- FailedReads: a running pair; requests that are fetched, one of them with the undefined opcode 0x72. -/
theorem witness_FailedReads :
    live.getAt2 .QUE_PAIR_STATUS_STATE 1 0 = 1 ∧
    (let r := req 0x72 []
     let s := liveReq r
     s.die.req? 1 = some r ∧ r.stage = .fetched ∧ s.die.startable r = true ∧ s.die.untranslated r = false ∧
       opcodeDefined r.opcode = false) ∧
    (let r := { req 0xF0 [] with tenant := 1, origin := .pair 1 0 0 }
     let s := liveReq r
     s.die.req? 1 = some r ∧ s.die.startable r = true ∧ s.die.untranslated r = false ∧ 0xF0 ≤ r.opcode ∧ r.fn? ≠ some 0) ∧
    (∀ x ∈ [Stage.fetched, .waiting, .running], (liveReq { req 0x10 [] with stage := x }).die.req? 1 = some { req 0x10 [] with stage := x }) := by
  decide

/-- Doorbells: tails one entry on, a ring and one more entry on; masked, pending and due vectors; Mission. -/
theorem witness_Doorbells :
    (let s := st live
     Settled s ∧ s.die.ready 0 = true ∧ s.die.getAt2 .QUE_PAIR_STATUS_STATE 0 0 = 1 ∧ 64 % 2 ^ 32 ≠ (s.die.pairState 0 0).lastTail ∧
       idxSub 64 (s.die.getAt2 .QUE_REQ_HEAD_INDEX 0 0) ≤ 2 ^ s.die.getAt2 .QUE_PAIR_CTL_SIZE_LOG2 0 0 ∧
       idxSub 64 (s.die.pairState 0 0).lastTail ≤ 2 ^ s.die.getAt2 .QUE_PAIR_CTL_SIZE_LOG2 0 0 ∧
       2 ^ s.die.getAt2 .QUE_PAIR_CTL_SIZE_LOG2 0 0 < idxSub 65 (s.die.getAt2 .QUE_REQ_HEAD_INDEX 0 0)) ∧
    (let d := withRegs [(.QUE_REQ_HEAD_INDEX, 0, 0, 64)] live
     2 ^ d.getAt2 .QUE_PAIR_CTL_SIZE_LOG2 0 0 < idxSub 128 (d.pairState 0 0).lastTail ∧
       idxSub 128 (d.getAt2 .QUE_REQ_HEAD_INDEX 0 0) ≤ 2 ^ d.getAt2 .QUE_PAIR_CTL_SIZE_LOG2 0 0) ∧
    (let d := withRegs [(.QUE_NTF_CTL_ENABLE, 0, 0, 1), (.LCS_STATE_STATE, 0, 0, 4), (.QUE_RPL_IRQ_TIME, 0, 0, 5),
       (.QUE_NTF_CTL_IRQ_TIME, 0, 0, 5)] live
     let d1 := ((d.setMsix 0 17 { (d.msixVec 0 17) with pending := true }).setMsix 0 0 { (d.msixVec 0 0) with masked := false }).setMsix 0 16
       { (d.msixVec 0 16) with masked := false }
     let d2 := (d1.setPair 0 0 { (d1.pairState 0 0) with sinceMsg := 1 }).setNtf 0 { (d1.ntfState 0) with sinceMsg := 1 }
     d2.posted = [] ∧ d2.ready 0 = true ∧ d2.hasAt .QUE_NTF_CTL_ENABLE 0 = true ∧ d2.getAt .QUE_NTF_LOST_COUNT 0 = 0 ∧ d2.canSend = true ∧
       (d2.msixVec 0 17).pending = true ∧ (d2.msixVec 0 0).masked = false ∧ d2.getAt2 .QUE_RPL_IRQ_TIME 0 0 ≠ 0 ∧ (d2.pairState 0 0).sinceMsg ≠ 0 ∧
       (d2.msixVec 0 16).masked = false ∧ d2.getAt .QUE_NTF_CTL_IRQ_TIME 0 ≠ 0 ∧ (d2.ntfState 0).sinceMsg ≠ 0 ∧ d2.get .LCS_STATE_STATE = 4 ∧ d2.que.crs = false ∧ d2.barOpen 0 = true) := by
  decide

/-- The die on which function 1 may enable pairs. -/
def ringDie : Die := withRegs [(.TEN_SHARE_PAIRS, 1, 0, 1)] live

/-- Rings: a pair 1 of 64 entries at 0, the same with SIZE_LOG2 5; a running, an erring and a drained pair; a notification ring. -/
theorem witness_Rings :
    (let d := (ringDie.access 1).writePage (.host 1) 1 (0x1000 + 0x100 * 1) 0x600
     let d1 := ((((d.setAt2 .QUE_PAIR_CTL_ENABLE 1 1 1).setAt2 .QUE_REQ_HEAD_INDEX 1 1 0).setAt2
       .QUE_RPL_TAIL_INDEX 1 1 0).setAt2 .QUE_PAIR_STATUS_ERR_CODE 1 1 0).setPair 1 1 default
     live.barOpen 1 = true ∧ d.hasAt .QUE_PAGE_STATUS_READY 1 = true ∧ d.getAt .TEN_STATE_STATE 1 = 2 ∧ d.getAt2 .QUE_PAIR_STATUS_STATE 1 1 = 0 ∧
       d.pairsEnabled 1 < d.getAt .TEN_SHARE_PAIRS 1 ∧ d1.pairChecks 1 1 = true) ∧
    (let d := (ringDie.access 1).writePage (.host 1) 1 (0x1000 + 0x100 * 1) 0x500
     let d1 := ((((d.setAt2 .QUE_PAIR_CTL_ENABLE 1 1 1).setAt2 .QUE_REQ_HEAD_INDEX 1 1 0).setAt2
       .QUE_RPL_TAIL_INDEX 1 1 0).setAt2 .QUE_PAIR_STATUS_ERR_CODE 1 1 0).setPair 1 1 default
     live.barOpen 1 = true ∧ d.hasAt .QUE_PAGE_STATUS_READY 1 = true ∧ d.getAt .TEN_STATE_STATE 1 = 2 ∧ d.getAt2 .QUE_PAIR_STATUS_STATE 1 1 = 0 ∧
       d.pairsEnabled 1 < d.getAt .TEN_SHARE_PAIRS 1 ∧ d1.pairChecks 1 1 = false) := by decide

/-- Rings: disabling, a drained pair, a notification ring that passes and one that fails its checks. -/
theorem witness_Rings_ends :
    (let d := withRegs [(.QUE_PAIR_CTL_ENABLE, 1, 0, 1)] live
     d.ready 1 = true ∧ d.getAt2 .QUE_PAIR_CTL_ENABLE 1 0 = 1 ∧ d.getAt2 .QUE_PAIR_STATUS_STATE 1 0 = 1 ∧ d.que.reqs = []) ∧
    (let s := st (withRegs [(.QUE_PAIR_STATUS_STATE, 1, 0, 2)] live)
     Settled s ∧ s.die.getAt2 .QUE_PAIR_STATUS_STATE 1 0 = 2 ∧ ∀ r ∈ s.die.que.reqs, r.ofPair 1 0 = false) ∧
    (let d := (live.access 1).writePage (.host 1) 1 0x2000 0x600
     d.hasAt .QUE_PAGE_STATUS_READY 1 = true ∧ d.getAt .QUE_NTF_CTL_ENABLE 1 = 0 ∧ d.ntfChecks 1 = true ∧
       d.getAt .QUE_NTF_LOST_COUNT 1 = 0) ∧
    (let d := (live.access 1).writePage (.host 1) 1 0x2000 0x1100
     d.hasAt .QUE_PAGE_STATUS_READY 1 = true ∧ d.getAt .QUE_NTF_CTL_ENABLE 1 = 0 ∧ d.ntfChecks 1 = false) := by decide

/-- Fetch: a pair with one descriptor in its ring. -/
theorem witness_Fetch :
    (let d := live.setPair 0 0 { (live.pairState 0 0) with lastTail := 1 }
     let p := d.pairState 0 0
     d.posted = [] ∧ d.getAt2 .QUE_PAIR_STATUS_STATE 0 0 = 1 ∧ d.fetches 0 = true ∧ d.getAt2 .QUE_REQ_HEAD_INDEX 0 0 ≠ p.lastTail ∧
       idxSub (d.getAt2 .QUE_REQ_HEAD_INDEX 0 0) p.replyHead < 2 ^ d.getAt2 .QUE_PAIR_CTL_SIZE_LOG2 0 0 ∧
       d.dmaOk (d.tenantOf 0) (d.getAt2 .QUE_REQ_BASE_ADDR 0 0 / 4096 * 4096 + 0) 64 false = true ∧
       d.untranslated (req 0x10 []) = false ∧ d.nttWaiting < 1024 ∧ d.conWaiting (st d).env false + d.conWaiting (st d).env true < 4096) := by decide

/-- The state in which function 255 is in tenant state `n`. -/
def inState (n : Nat) : State := st (withRegs [(.TEN_STATE_STATE, 255, 0, n)] live)

/-- TenantCommands: a tenant in each state; the commands that state does not accept. -/
theorem witness_TenantCommands :
    (∀ n ∈ [1, 2, 3, 4], Settled (inState n) ∧ (inState n).die.getAt .TEN_STATE_STATE 255 = n) ∧ 255 < 256 ∧
      (inState 0).die.accepts 255 1 = false ∧ (inState 2).die.accepts 255 0 = false ∧ (inState 6).die.accepts 255 5 = false := by decide

/-- A state in which function 1 is in tenant state `n`, with a request of its own in flight where `busy`, by cause `c`. -/
def drains (n c : Nat) (busy : Bool) : State :=
  let d := withRegs [(.TEN_STATE_STATE, 1, 0, n)] live
  let d1 := { d.setCtl 1 { (d.ctl 1) with cause := c, regionClear := decide (n = 6) } with nowMs := 2 }
  st (if busy then withReq { req 0x24 [] with tenant := 1, origin := .pair 1 0 0 } d1 else d1)

/-- TenantDrains: every state and cause of its clauses. -/
theorem witness_TenantDrains :
    ((drains 3 0 false).die.fnBusy 1 = false ∧ (drains 3 0 false).die.getAt .TEN_STATE_STATE 1 = 3) ∧
    (∀ c ∈ [2, 3], (drains 5 c true).die.getAt .TEN_STATE_STATE 1 = 5 ∧ ((drains 5 c true).die.ctl 1).cause = c ∧ (drains 5 c true).die.fnBusy 1 = true ∧
      ((drains 5 c true).die.ctl 1).since < (drains 5 c true).die.nowMs) ∧
    (∀ c ∈ [3, 4], (drains 5 c false).die.fnBusy 1 = false ∧ ((drains 5 c false).die.ctl 1).cause = c ∧
      ∀ l ∈ (drains 5 c false).die.kft.locks, l.tenant ≠ (drains 5 c false).die.tenantFor 1) ∧
    ((drains 3 0 true).die.ctl 1).since < (drains 3 0 true).die.nowMs ∧
    ((drains 6 0 false).die.getAt .TEN_STATE_STATE 1 = 6 ∧ ((drains 6 0 false).die.ctl 1).regionClear = true ∧
      (drains 6 0 false).die.removingTenant ((drains 6 0 false).die.tenantOf 1) = false) ∧
    (∀ n ∈ [1, 4, 2, 3, 5], Settled (drains n 0 false) ∧ (drains n 0 false).die.getAt .TEN_STATE_STATE 1 = n) ∧
    (drains 2 0 true).die.get .HLK_STATUS_LINK_UP = 1 ∧ (drains 2 0 true).die.isLead = true ∧ 1 ≠ (drains 2 0 true).die.pos ∧
    (∀ l ∈ (drains 4 0 false).die.kft.locks, l.tenant ≠ (drains 4 0 false).die.tenantFor 1) := by decide

/-! ## Witnesses: records, lookups and lanes -/

/-- A state with request `r` in flight on a die with the ESK and an exportable wrapping key at handle 0. -/
def recState (r : Req) : State := st (withReq r (keyed [keyObj 0 1 63 2]))

/-- The premises that every clause of RecordRequests shares, for opcode `op` and a request with session handle 1: in order for its own
opcode, after the requests of its session are noted. -/
abbrev RecPremise (s : State) (op : Nat) (r : Req) : Prop :=
  let d := s.die.orderRecord s.env 1 op
  Accepted d 1 op r ∧ d.behindSession r = false ∧ RangesOk d r ∧ r.inLen ≤ 16640 ∧ d.key.esk.isSome = true ∧
    d.lookKey s.env r = some (.handle 1) ∧ d.unserved (d.keyPosition (.handle 1)) = false ∧ d.serverOf (d.keyPosition (.handle 1)) = d.pos

/-- RecordRequests: inbound records of 7 and 8 bytes, DTLS records too short, of another form and in order, and outbound records. -/
theorem witness_RecordRequests :
    (∀ n ∈ [7, 8, 16640, 16641], let r := req 0x10 [(24, 8, n), (48, 8, 1)]
      (n ≤ 16640 → RecPremise (recState r) 0x10 r) ∧ Accepted ((recState r).die.orderRecord (recState r).env 1 0x10) 1 0x10 r ∧
        r.zeroBytes 56 64 = true ∧ r.keyContent = false) ∧
    (let r := req 0x12 [(24, 8, 3), (48, 8, 1)]
     let s := { recState r with mem := [(0, 0x24#8)] }
     RecPremise s 0x12 r ∧ r.zeroBytes 56 64 = true ∧ dtlsShort (s.die.recInput s.env r) (s.die.recCfg r).cidLen = true) ∧
    (let r := req 0x12 [(24, 8, 4), (48, 8, 1)]
     let s := recState r
     RecPremise s 0x12 r ∧ dtlsShort (s.die.recInput s.env r) (s.die.recCfg r).cidLen = false ∧
       parseDtls (s.die.recInput s.env r) (s.die.recCfg r).cidLen = none) ∧
    (let r := req 0x12 [(16, 8, 64), (24, 8, 8), (48, 8, 1)]
     let s := { recState r with mem := [(64, 0x20#8)] }
     RecPremise s 0x12 r ∧ dtlsShort (s.die.recInput s.env r) (s.die.recCfg r).cidLen = false ∧
       (parseDtls (s.die.recInput s.env r) (s.die.recCfg r).cidLen).isSome = true ∧ r.keyContent = false) ∧
    (∀ op ∈ [0x11, 0x13], let r := req op [(24, 8, 16640), (48, 8, 1), (56, 1, 1)]
     RecPremise (recState r) op r ∧ r.byte 59 = 0 ∧ r.zeroBytes 62 64 = true ∧ r.byte 58 = 0 ∧ r.zeroBytes 60 62 = true ∧
       r.byte 56 ≠ 0 ∧ r.keyContent = false) := ⟨by decide, by decide, by decide, by decide, by decide⟩

/-- RecordRequests with KEY_CONTENT, and with a handle that holds no key; a record of a position that another die serves. -/
theorem witness_RecordRequests_key :
    (∀ op ∈ [0x11, 0x13], ∀ h ∈ [0, 1], let r := req op [(48, 8, 1), (56, 1, 1), (58, 1, 1), (60, 2, h)]
     let s := recState r
     let d := s.die.orderRecord s.env 1 op
     RecPremise s op r ∧ r.byte 58 = 1 ∧ r.keyContent = true ∧ d.loadKey s.env r.tenant h = (d, none) ∧
       ((∃ o, d.contentKeyCheck r = .ok o) ↔ h = 0)) ∧
    (let r := req 0x10 [(24, 8, 8), (48, 8, 2 ^ 61)]
     let s := st (withReq r (withRegs [(.ENS_STATUS_SIZE, 0, 0, 4), (.ENS_SERVE_SERVER, 0, 0, 0x3210)] (keyed [])))
     let d := s.die.orderRecord s.env 1 0x10
     Accepted d 1 0x10 r ∧ RangesOk d r ∧ d.lookKey s.env r = some (.handle (2 ^ 61)) ∧
       d.unserved (d.keyPosition (.handle (2 ^ 61))) = false ∧ d.serverOf (d.keyPosition (.handle (2 ^ 61))) ≠ d.pos ∧ r.fn? ≠ none) := by
  refine ⟨?_, by decide⟩
  intro op hop h hh
  fin_cases hop <;> fin_cases hh <;> refine ⟨by decide, by decide, by decide, by decide, ?_⟩
  all_goals first
    | exact ⟨fun _ => rfl, fun _ => ⟨_, rfl⟩⟩
    | exact ⟨fun ⟨_, h⟩ => (nomatch h), fun h => (nomatch h)⟩

/-- A lookup of request 1 in the main bucket 0, which held the sessions `snap`. -/
def look (snap : List Nat) : Lookup := { rid := 1, bucket := 0, step := 1, snap, gen := 0, g := 0 }

/-- A state in which request 1, for handle 1, looks up session 1. -/
def lookState (snap : List Nat) (writes : List SlotWrite) : State :=
  let d := withSess sess (withReq { req 0x11 [(48, 8, 1)] with stage := .waiting } (keyed []))
  st { d with kft := { d.kft with lookups := [look snap], lockWait := [(1, 0)], locks := [{ bucket := 0, tenant := 1 }],
                                  ilWait := [(5, 1), (6, 9)] },
              mlf := { d.mlf with writes } }

/-- The same state, of which the host holds a bucket that the walker may not read. -/
def unread (s : State) : State :=
  { s with die := { s.die with mlf := { s.die.mlf with tree := [(3 * 2 ^ 32, { major := 1, minors := 1 })] } } }

/-- Lookups: a bucket read that finds the session, one that does not, one that fails; a session under its interlock; a lock held, requests
that wait for a lock, and each kind of waiter of an interlock. -/
theorem witness_Lookups :
    (let s := lookState [1] []
     let r := { req 0x11 [(48, 8, 1)] with stage := .waiting }
     let d0 := s.die.dropLookup 1
     s.die.req? 1 = some r ∧ s.die.kft.lookups.find? (fun l => l.rid == 1 && decide (1 ≤ l.step ∧ l.step ≤ 4)) = some (look [1]) ∧
       d0.readBucket s.env r.tenant (d0.lookupBucket (look [1])) = (d0, none) ∧
       (d0.kft.sessions.filter fun x => decide (s.die.kft.nextUid ≤ x.uid)) = [sess] ∧
       d0.standing s.env r { look [1] with snap := [1, 1], gen := (d0.bucketMeta 0).moveGen } = some sess ∧ d0.held 0 = false ∧ sess.ways ≠ [] ∧
       (s.die.kft.lockWait.any fun w => w.1 == 1) = true ∧ s.die.locked 0 = true) ∧
    (let s := lookState [] []
     (s.die.dropLookup 1).standing s.env { req 0x10 [(48, 8, 2)] with stage := .waiting } (look []) = none) ∧
    (let s := unread (lookState [] [])
     let d0 := s.die.dropLookup 1
     (d0.readBucket s.env 0 (d0.lookupBucket (look []))).2 = some .refused) ∧
    (let s := lookState [1] []
     let d : Die := { (s.die.dropLookup 1) with kft := { s.die.kft with ilWait := [(0, 2)] } }
     d.held 0 = true) := by decide

/-- Lookups: the interlock goes to a lookup, to a step that has computed, to a request that is handled again, and to no request. -/
theorem witness_Lookups_granted :
    (let s := lookState [1] []
     s.die.inWrite 5 = false ∧ s.die.kft.ilWait.find? (fun w => w.1 == 5) = some (5, 1) ∧ isRecordOp 0x11 = true ∧
       s.die.inWrite 6 = false ∧ s.die.kft.ilWait.find? (fun w => w.1 == 6) = some (6, 9) ∧ s.die.req? 9 = none) ∧
    (isRecordOp 0x57 = false ∧ 0x57 / 16 ≠ 8 ∧ keyKind 5 ≠ 2) ∧
    (Stage.running ≠ Stage.waiting ∧ Stage.running ≠ Stage.fetched) := by decide

/-- A job of request 1 on lane 0 for session `uid`: an encryption, or a decryption of `body` with a tag of `n` bytes. -/
def laneJob (uid : Nat) (enc : Bool) (n : Nat) (body : Bytes) : LaneJob :=
  { rid := 1, lane := 0, uid, seq := 1, enc, alg := 1, tagLen := n, key := zeros 16, nonce := zeros 12, aad := [], body, hdr := [],
    use := none, first := none, relaned := false }

/-- The state in which request 1 has job `j` on its lane, and session `x` is in the table. -/
def laneState (x : Session) (j : LaneJob) : State :=
  let d := withSess x (withReq { req 0x20 [(1, 1, 4)] with stage := .running, sess := j.uid } (keyed []))
  st { d with rcp := { d.rcp with jobs := [j] } }

/-- LaneResults: held jobs and session jobs, with a tag that verifies (of no bytes) and with none. -/
theorem witness_LaneResults :
    (∀ j ∈ [laneJob 0 true 16 [], laneJob 0 false 0 [], laneJob 0 false 16 [], laneJob 1 true 16 [], laneJob 1 false 0 [], laneJob 1 false 16 []],
      let s := laneState sess j
      let r := { req 0x20 [(1, 1, 4)] with stage := .running, sess := j.uid }
      let ct := j.body.take (j.body.length - j.tagLen)
      s.die.req? 1 = some r ∧ r.spoiled = none ∧ s.die.rcp.jobs.find? (fun j => j.rid == 1) = some j ∧ j.lane ≠ noLane ∧
        s.die.writesPending 1 = false ∧ (s.die.dropJob 1).session? 1 = some sess ∧
        (j.tagLen = 0 ↔ j.body.drop ct.length = aeadTag j.alg j.tagLen j.key j.nonce j.aad ct)) ∧
    sess.finishIn false (aeadText 1 (zeros 16) (zeros 12) []) = none ∧ sess.fresh 1 = true ∧ sess.fresh 0 = false ∧
    ({ sess with proto := 3 }.finishIn false [23#8]).isSome = true ∧
    ((laneState { sess with proto := 3 } (laneJob 1 false 16 [])).die.dropJob 1).session? 1 = some { sess with proto := 3 } := by decide

/-- LaneResults: a mismatch that repeats, one that nothing lets repeat, one that has repeated, one that quarantines its lane; a record whose
slot write failed. -/
theorem witness_LaneResults_mismatch :
    (let j := laneJob 1 true 16 []
     let s := laneState sess j
     let d1 := s.die.noteMismatch s.env .lane j.lane 1 0
     d1.recent .lane j.lane < 3 ∧ d1.hasLane (some j.lane) = true ∧ (req 0x20 [(1, 1, 4)]).allowRelane = true ∧ j.relaned = false) ∧
    (let s := laneState sess (laneJob 1 true 16 [])
     (req 0x20 []).allowRelane = false ∧ s.die.has .REC_CTL_RELANE_ALWAYS = false ∧ (s.die.noteMismatch s.env .lane 0 1 0).recent .lane 0 < 3) ∧
    { laneJob 1 true 16 [] with relaned := true }.relaned = true ∧
    (let s := laneState sess (laneJob 1 true 16 [])
     let s2 := { s with die := { s.die with rcp := { s.die.rcp with laneMism := [(0, [0, 0])] } } }
     3 ≤ (s2.die.noteMismatch s2.env .lane 0 1 0).recent .lane 0) ∧
    { req 0x20 [] with spoiled := some .storeIntegrity }.spoiled = some .storeIntegrity := by decide

/-- ReplayWindow: the lowest and the highest number that a window takes. -/
theorem witness_ReplayWindow :
    let x := { sess with h := 5000, bitmap := 1 }
    x.fresh (5000 - x.window) = false ∧ x.fresh (5000 - x.window + 1) = true ∧ x.fresh 5000 = false ∧ x.fresh (2 ^ 64 - 1) = true := by decide


/-- RequestFrames: a command of each of its groups answers a next state. -/
theorem witness_RequestFrames :
    (∃ t, exec (.espIn 1) (recState (req 0x10 [])) = .next t) ∧ (∃ t, exec (.laneRecordDone 1 0) (recState (req 0x10 [])) = .next t) ∧
      (∃ t, exec (.hashBlockDone 1 0) (recState (req 0x22 [])) = .next t) ∧ (∃ t, exec (.conPrim 1) (recState (req 0x30 [])) = .next t) ∧
      (∃ t, exec (.mlkemKeygen 1) (recState (req 0x40 [])) = .next t) ∧ (∃ t, exec (.keyGenerate 1) (recState (req 0x60 [])) = .next t) ∧
      (∃ t, exec (.hsOpen 1) (recState (req 0x50 [])) = .next t) ∧ (∃ t, exec (.hsInstall 1) (recState (req 0x57 [])) = .next t) :=
  ⟨⟨_, rfl⟩, ⟨_, rfl⟩, ⟨_, rfl⟩, ⟨_, rfl⟩, ⟨_, rfl⟩, ⟨_, rfl⟩, ⟨_, rfl⟩, ⟨_, rfl⟩⟩
/-! ## Witnesses: raw AEAD, hashes, forwarding and units -/

/-- Host memory with the bytes `b` at `a`. -/
def memAt (a : Nat) (b : Bytes) : List Host.Cell := memWrites [] a b

/-- The AEAD parameter block with tag length `n` and a 12-byte nonce. -/
def aeadBlock (n : Nat) : Bytes := leBytes 1 1 ++ leBytes 1 n ++ leBytes 1 12 ++ zeros 125

/-- A raw AEAD request of `op` over `n` bytes, its parameters at 4096, and its state; the key at handle 0 encrypts and decrypts. -/
def aeadReq (op n : Nat) : Req := req op [(24, 8, n), (40, 8, 64), (56, 8, 4096)]
def aeadState (op n tag : Nat) : State := { st (withReq (aeadReq op n) (keyed [keyObj 0 1 3 0])) with mem := memAt 4096 (aeadBlock tag) }

/-- RawAead: a block with a tag of 11 bytes is refused; one of 12 is taken, with a text as long as its tag, and one that is shorter. -/
theorem witness_RawAead :
    (∀ op ∈ [0x20, 0x21], Accepted (aeadState op 16 12).die 1 op (aeadReq op 16) ∧ RangesOk (aeadState op 16 12).die (aeadReq op 16) ∧
      (aeadReq op 16).handle < 2 ^ 16 ∧ leAt (aeadReq op 16).desc 56 8 = 4096 ∧
      (aeadState op 16 12).die.dmaOk 0 4096 128 false = true ∧ (aeadState op 16 12).die.dmaOk 0 4096 128 true = true) := by decide
theorem witness_RawAead_params :
    (∀ op ∈ [0x20, 0x21], ∀ tag ∈ [11, 12, 16, 17],
      aeadParamsOk (op == 0x20) (dmaRead (aeadState op 16 tag).env (aeadState op 16 tag).die 4096 128) = decide (12 ≤ tag ∧ tag ≤ 16)) ∧
    (let p := aeadParams (dmaRead (aeadState 0x21 16 12).env (aeadState 0x21 16 12).die 4096 128)
     p.tagLen = 12 ∧ p.resume = false ∧ p.gen = false ∧ (aeadState 0x21 16 12).die.dmaOk 0 p.aadAddr p.aadLen false = true) := ⟨by decide, by decide⟩
theorem witness_RawAead_key :
    (∀ op ∈ [0x20, 0x21], let s := aeadState op 16 12
      ((s.die.unhold 1).loadKey s.env 0 0).2 = none ∧ ((s.die.unhold 1).loadKey s.env 0 0).1.checkKey 0 0 (aeadFits 1) (op - 0x20) = .ok (keyObj 0 1 3 0) ∧
      ((s.die.unhold 1).loadKey s.env 0 0).1.inService .lane ≠ []) := by decide
theorem witness_RawAead_room :
    (aeadReq 0x21 11).inLen < 12 ∧ aeadTotal false (aeadReq 0x21 12) 12 ≤ 16384 ∧ (aeadReq 0x20 64).outLen < 64 + 12 ∧
      16 + 12 ≤ (aeadReq 0x20 16).outLen := by decide

/-- A stream of request 1 on lane 0 that has done 65,536 of `total` bytes, and a state in which it runs. -/
def stream (enc : Bool) (tag total : Nat) (scrub : Option (Nat × Reply)) : StreamJob :=
  { rid := 1, lane := 0, enc, alg := 1, tagLen := tag, key := zeros 16, nonce := zeros 12, aad := [], total, off := 65536, acc := [],
    use := none, first := none, relaned := false, scrub }
def streamState (stop : Option Status) (j : StreamJob) : State :=
  let d := withReq { req 0x20 [] with stage := .running, stop } live
  st { d with rcp := { d.rcp with streams := [j] } }

/-- RawAead: the last chunk and one before it, of a seal and of an open whose tag (of no bytes) verifies, or does not; a scrub's last step,
one before it, and one that a stop ends; a cancel that matches nothing, one that ends a request, and one that waits for a stream. -/
theorem witness_RawAead_streams :
    (∀ j ∈ [stream true 16 65537 none, stream false 0 131072 none, stream false 12 131072 none, stream true 16 131073 none,
        stream true 16 65536 (some (0, Reply.fail .authFail 1)), stream true 16 65536 (some (0, { Reply.done 65537 with detail := 1 }))],
      ∀ stop ∈ [none, some Status.quiesced], let s := streamState stop j
      s.die.req? 1 = some { req 0x20 [] with stage := .running, stop } ∧ s.die.rcp.streams.find? (fun j => j.rid == 1) = some j ∧
        j.lane ≠ noLane ∧ s.die.writesPending 1 = false) ∧
    65536 + min 65536 (131073 - 65536) < 131073 ∧ 131072 ≤ 65536 + min 65536 (131072 - 65536) ∧
    (∀ d : Die, dmaRead (streamState none (stream false 0 131072 none)).env d 131072 0 = aeadTag 1 0 (zeros 16) (zeros 12) [] (zeros 65536)) ∧
    (Reply.fail .authFail 1).length ≤ 0 + min 65536 0 ∧ 0 + min 65536 65537 < 65537 := by
  refine ⟨by decide, by decide, by decide, fun d => rfl, by decide, by decide⟩
theorem witness_RawAead_cancel :
    (let r := req 0x2F [(16, 8, 5)]
     Accepted (liveReq r).die 1 0x2F r ∧ r.zeroBytes 24 64 = true ∧ (liveReq r).die.cancelled r = []) ∧
    (∀ g ∈ [Stage.fetched, .running], let r := req 0x2F [(16, 8, 5)]
     let x := { req 0x20 [(8, 8, 5)] with rid := 2, stage := g }
     let d := withReq r live
     let s := st { d with que := { d.que with reqs := [r, x] },
                          rcp := { d.rcp with streams := [{ stream true 16 65537 none with rid := 2 }] } }
     Accepted s.die 1 0x2F r ∧ (((s.die.cancelled r).map Req.rid).filter fun x =>
       (((s.die.cancelled r).foldl (Die.cancelOne s.env 1) s.die).req? x).any fun y => !y.done) = (if g = .fetched then [] else [2])) := by
  decide

/-- A hash request of algorithm `alg` over 8 bytes, and its state. -/
def hashReq (op alg xof : Nat) : Req := req op [(24, 8, 8), (40, 8, 32), (56, 1, alg), (58, 2, xof)]
def hashState (op alg xof : Nat) : State := st (withReq (hashReq op alg xof) (keyed [keyObj 0 8 12 0]))

/-- A hash lane's job of request 1, of `total` bytes, and a state in which it runs. -/
def hashJob (inner total : Nat) : HashJob := { rid := 1, lane := 0, total, inner, off := 0, acc := [], key := [], first := none, relaned := false }
def hashRuns (op : Nat) (j : HashJob) : State :=
  let d := withReq { hashReq op 1 0 with stage := .running } (keyed [])
  st { d with rcp := { d.rcp with hashes := [j] } }

/-- Hashes: a SHA and a SHAKE request, both HMAC requests. -/
theorem witness_Hashes :
    (∀ x ∈ [(1, 0), (7, 32)], let r := hashReq 0x24 x.1 x.2
      Accepted (hashState 0x24 x.1 x.2).die 1 0x24 r ∧ RangesOk (hashState 0x24 x.1 x.2).die r ∧ r.byte 57 = 0 ∧ r.zeroBytes 60 64 = true ∧
        1 ≤ r.hashAlg ∧ r.hashAlg ≤ 8 ∧ (r.xofLen ≠ 0 ↔ 7 ≤ r.hashAlg) ∧ r.hashOut ≤ r.outLen ∧
        (hashState 0x24 x.1 x.2).die.dispatches = true ∧ (hashState 0x24 x.1 x.2).die.pickHashLane none = some 0) ∧
    (∀ op ∈ [0x25, 0x26], let r := hashReq op 1 0
      let s := hashState op 1 0
      let use := if op = 0x25 then useSign else useVerify
      Accepted s.die 1 op r ∧ RangesOk s.die r ∧ r.byte 57 = 0 ∧ r.zeroBytes 60 64 = true ∧ r.handle < 2 ^ 16 ∧ 1 ≤ r.hashAlg ∧ r.hashAlg ≤ 6 ∧
        r.xofLen = 0 ∧ r.hashOut ≤ r.outLen ∧ 16 ≤ r.outLen ∧ r.outLen ≤ hashLen r.hashAlg ∧ s.die.dmaOk 0 r.outAddr r.outLen false = true ∧
        s.die.loadKey s.env 0 0 = (s.die, none) ∧ s.die.dispatches = true ∧ s.die.inService .hash ≠ [] ∧
        s.die.checkKey 0 0 hmacFits use = .ok (keyObj 0 8 12 0) ∧
        (match s.die.takeUse s.env r 0 use with | .counted _ => true | _ => false) = true) := ⟨by decide, by decide⟩

/-- Hashes: a block before the last, the last block of each request, and the last of a part of another request. -/
theorem witness_Hashes_blocks :
    (∀ op ∈ [0x24, 0x25, 0x26], ∀ j ∈ [hashJob 0 65536, hashJob 0 65537, hashJob 2 65536], let s := hashRuns op j
      s.die.req? 1 = some { hashReq op 1 0 with stage := .running } ∧ s.die.rcp.hashes.find? (fun j => j.rid == 1) = some j ∧ j.lane ≠ noLane ∧
        s.die.hashYields j = false ∧ (hashReq op 1 0).isConJob = false) ∧
    0 + min 65536 65537 < 65537 ∧ 65536 ≤ 0 + min 65536 65536 := by decide

/-- Forwarding: a forwarded record whose output may be written, may not, and one that meets a host link that is down; an answer that is
flushed; answers that come back with and without a request that waits. -/
theorem witness_Forwarding :
    (isRecordOp ({ req 0x10 [] with origin := .ring 1 2 3 } : Req).opcode = true ∧ live.dispatches = true ∧ live.get .HLK_STATUS_LINK_UP = 1 ∧
      live.dmaOk 0 0 64 true = true ∧ live.dmaOk 0 (2 ^ 40) 64 true = false ∧
      (live.set .HLK_STATUS_LINK_UP 0).dispatches = true ∧ (live.set .HLK_STATUS_LINK_UP 0).get .HLK_STATUS_LINK_UP = 0) ∧
    (let r := { req 0x10 [] with origin := .ring 1 2 3 }
     let d := withReq r live
     let s := st { d with ens := { d.ens with flushing := [(1, [])], awaiting := [(9, 1, 0)] } }
     Settled s ∧ s.die.req? 1 = some r ∧ s.die.ens.flushing.find? (fun f => f.1 == 1) = some (1, []) ∧ r.origin = .ring 1 2 3 ∧
       s.die.ens.awaiting.find? (fun a => a.1 == 8) = none ∧ s.die.ens.awaiting.find? (fun a => a.1 == 9) = some (9, 1, 0) ∧ r.done = false ∧
       r.opcode / 16 ≠ 5) := by decide

/-- Units: the last unit of each kind, in service, quarantined and in its known-answer test. -/
theorem witness_Units :
    (∀ k ∈ [UnitKind.lane, .hash, .con, .ntt], k.count - 1 < k.count ∧ Settled (st live) ∧ live.getAt k.stateFld (k.count - 1) ≠ 1 ∧
      (withRegs [(k.stateFld, k.count - 1, 0, 1)] live).getAt k.stateFld (k.count - 1) = 1 ∧
      (withRegs [(k.stateFld, k.count - 1, 0, 2)] live).getAt k.stateFld (k.count - 1) = 2) := by decide

/-! ## Witnesses: Constantan and the lattice cores -/

/-- A Constantan request of `op` on the loaded curve 0x80 over `n` bytes with key handle 0 and destination 1. -/
def conReq (op n : Nat) : Req :=
  req op [(24, 8, n), (40, 8, 1024), (50, 2, if conCreates (req op []) then 1 else 0), (56, 1, 0x80)]

/-- A curve of tenant 0 with a modulus of 256 bits, loaded as 0x80. -/
def curve80 : Curve :=
  { tenant := 0, id := 0x80, record := [], params := [2 ^ 255 + 95, 1, 1, 1, 1, 2 ^ 255 + 91, 1, 256, 256] }

/-- The state of request `r` with that curve and the key object `o`. -/
def conState (r : Req) (o : KeyObj) : State :=
  let d := withReq r (keyed [o])
  st { d with con := { d.con with curves := [curve80] } }

/-- ConstantanRequests, Weierstrass curves: each operation with a loaded curve, and one with a curve that is not loaded. -/
theorem witness_ConstantanRequests_curves :
    (∀ x ∈ [(0x31, 0), (0x32, 64), (0x33, 20), (0x34, 84), (0x3C, 64)],
      let o := keyObj 0 (if x.1 = 0x34 then 0x11 else 0x10) 255 0
      let r := conReq x.1 x.2
      let s := conState r { o with param := 0x80 }
      Accepted s.die 1 x.1 r ∧ RangesOk s.die r ∧ conHeaderOk r (conKeyNeed r).isSome (conCreates r) = true ∧ (s.die.curveFor r).isSome = true ∧
        (s.die.loadKey s.env 0 r.keyHandle).2 = none ∧ (s.die.loadKey s.env 0 r.destHandle).2 = none ∧
        (conCreates r = true → (s.die.loadKey s.env 0 r.destHandle).1.destCheck 0 r.destHandle = none)) ∧
    (∀ x ∈ [(0x31, 0), (0x32, 64), (0x33, 20), (0x34, 84), (0x3C, 64)],
      (match (conState (conReq x.1 x.2) (keyObj 0 0x10 255 0)).die.curveFor (conReq x.1 x.2) with
       | some y => (Die.curveSpec (conReq x.1 x.2) y).inOk && decide ((Die.curveSpec (conReq x.1 x.2) y).resLen ≤ 1024)
       | none => false) = true) ∧
    (let r := req 0x31 [(40, 8, 64), (56, 1, 0x81)]
     (conState r (keyObj 0 0x10 255 0)).die.curveFor r = none) ∧
    (let r := conReq 0x33 20
     (conState r (keyObj 0 0x13 255 0)).die.conKey r (curveKey 0x10 r.curve) useSign = .bad .paramRejected 0x16) :=
  ⟨by decide, by decide, by decide, by decide⟩

/-- The other Constantan requests with a key. -/
def plainReq (op curve mode n : Nat) : Req :=
  req op [(24, 8, n), (40, 8, 1024), (50, 2, if op = 0x37 then 1 else 0), (56, 1, curve), (57, 1, mode)]

/-- ConstantanRequests, the operations without a Weierstrass curve: keys of their TYPE, and operands of the least and greatest length. -/
theorem witness_ConstantanRequests_plain :
    (∀ x ∈ [(0x35, 0x11, 0, 0, 0x13), (0x35, 0x11, 0, 65536, 0x13), (0x36, 0x11, 0, 64, 0x14), (0x37, 0x10, 0, 32, 0x12)],
      let r := plainReq x.1 x.2.1 x.2.2.1 x.2.2.2.1
      let s := conState r (keyObj 0 x.2.2.2.2 255 0)
      Accepted s.die 1 x.1 r ∧ RangesOk s.die r ∧ conHeaderOk r (conKeyNeed r).isSome (conCreates r) = true ∧ r.curve = x.2.1 ∧
        (plainSpec r 16).inOk = true ∧ (plainSpec r 16).resLen ≤ r.outLen ∧
        (conCreates r = true → (s.die.loadKey s.env 0 r.destHandle).1.destCheck 0 r.destHandle = none)) ∧
    (let r := plainReq 0x35 0x12 0 0
     Accepted (conState r (keyObj 0 0x13 255 0)).die 1 0x35 r ∧ conHeaderOk r true false = true ∧ r.curve ≠ 0x11) ∧
    (let r := plainReq 0x35 0x11 0 0
     (conState r (keyObj 0 0x13 255 0)).die.conKey r (typeIs 0x13) useSign = .ok (keyObj 0 0x13 255 0)) ∧
    (let r := plainReq 0x37 0x10 1 0
     Accepted (conState r (keyObj 0 0x12 255 0)).die 1 0x37 r ∧ bit r.mode 0 = true ∧ conKeyNeed r = none ∧ (plainSpec r 0).inOk = true) ∧
    (let r := plainReq 0x38 0 1 32
     let o := { keyObj 0 0x18 255 0 with len := 2048 }
     Accepted (conState r o).die 1 0x38 r ∧ (r.mode % 4 != 0 && bits r.mode 3 2 != 3) = true ∧ conHeaderOk r true false = true ∧
       (conState r o).die.conKey r (typeIs 0x18) useSign = .ok o ∧ (plainSpec r 2048).inOk = true ∧ (plainSpec r 2048).resLen ≤ r.outLen) :=
  ⟨by decide, by decide, by decide, by decide⟩

/-- RSA_PUB over a modulus of 128 bytes with top byte `top` and lowest byte `low`, and exponent 3. -/
def rsaReq : Req := req 0x39 [(16, 8, 4096), (24, 8, 264), (40, 8, 128)]
def rsaState (top low : Nat) : State :=
  { st (withReq rsaReq live) with mem := memWrites (memWrites (memAt 4096 (leBytes 1 low)) 4223 (leBytes 1 top)) 4224 (leBytes 1 3) }

/-- ConstantanRequests, RSA_PUB: an odd modulus of 1,024 bits, and an even one. -/
theorem witness_ConstantanRequests_rsa :
    (Accepted (rsaState 0x80 1).die 1 0x39 rsaReq ∧ RangesOk (rsaState 0x80 1).die rsaReq ∧ conHeaderOk rsaReq false false = true ∧
      conHeaderOk rsaReq (conKeyNeed rsaReq).isSome (conCreates rsaReq) = true ∧ rsaReq.inLen = 2 * 128 + 8) ∧
    (let n := intOf rsaReq.be (dmaRead (rsaState 0x80 1).env (rsaState 0x80 1).die rsaReq.inAddr 128)
     2 ^ (8 * 127) ≤ n ∧ 2 ^ 1023 ≤ n ∧ n % 2 = 1) ∧
    intOf rsaReq.be (dmaRead (rsaState 0x80 1).env (rsaState 0x80 1).die (rsaReq.inAddr + 128) 8) = 3 ∧
    intOf rsaReq.be (dmaRead (rsaState 0x80 2).env (rsaState 0x80 2).die rsaReq.inAddr 128) % 2 = 0 :=
  ⟨by decide, by decide, by decide, by decide⟩

/-- A program with one load, one modular addition of register 0 to itself by itself, and one store. -/
def primBlock : Bytes := [1, 1, 1] ++ zeros 13 ++ zeros 64 ++ [1, 0, 0, 0] ++ zeros 124 ++ zeros 48

/-- ConstantanRequests: a primitive program, the loading and the unloading of a curve. -/
theorem witness_ConstantanRequests_programs :
    (let r := req 0x30 [(16, 8, 4096), (24, 8, 288), (40, 8, 32)]
     let s := { st (withReq r live) with mem := memAt 4096 primBlock }
     Accepted s.die 1 0x30 r ∧ RangesOk s.die r ∧ r.zeroBytes 52 56 = true ∧ r.zeroBytes 59 64 = true ∧ r.mode % 128 = 0 ∧ r.curve ≤ 0xB ∧
       r.primClass = 256) ∧
    (primLayoutOk 256 primBlock = true ∧ 288 = 256 + (parsePrim primBlock).loads.length * 32 ∧ (parsePrim primBlock).stores.length * 32 ≤ 32 ∧
      (parsePrim primBlock).usesKey = false ∧ (parsePrim primBlock).hasDest = false ∧ (parsePrim primBlock).defined = true ∧
      (let r := req 0x30 [(16, 8, 4096), (24, 8, 288), (40, 8, 32)]
       r.keyHandle = 0 ∧ r.destHandle = 0 ∧ r.usageByte = 0) ∧
      ∀ c ∈ (parsePrim primBlock).cmds, 1 ≤ c.op ∧ c.op ≤ 5) ∧
    (let r := req 0x3A [(16, 8, 4096), (24, 8, 208)]
     let s := { st (withReq r live) with mem := memAt 4096 [0, 0, 0, 1] }
     Accepted s.die 1 0x3A r ∧ RangesOk s.die r ∧ conHeaderOk r false false = true ∧ r.inLen = 16 + 6 * 32 ∧
       classOf (leAt (dmaRead s.env s.die r.inAddr 16) 2 2) = 8 * 32 ∧ leAt (dmaRead s.env s.die r.inAddr 16) 7 9 = 0) ∧
    (∀ id ∈ [0x80, 0x81], let r := req 0x3B [(56, 1, id)]
      let s := conState r (keyObj 0 0x10 255 0)
      Accepted s.die 1 0x3B r ∧ RangesOk s.die r ∧ conHeaderOk r false false = true ∧ r.inLen = 0 ∧ 0x80 ≤ r.curve ∧
        ((s.die.curveFor r).isSome = true ↔ id = 0x80)) ∧
    (let r := { req 0x3B [(56, 1, 0x80)] with rid := 2 }
     let d := (conState r (keyObj 0 0x10 255 0)).die
     let s := st { d with que := { d.que with reqs := [conReq 0x31 0, r] } }
     Accepted s.die 2 0x3B r ∧ (s.die.curveFor r).isSome = true ∧ (s.die.que.reqs.filter fun x => x.isConJob && x.opcode != 0x30 &&
       x.tenant == r.tenant && x.curve == r.curve && decide (x.rid < 2) && !x.done).map Req.rid = [1]) :=
  ⟨by decide, by decide, by decide, by decide, by decide⟩

/-- A Constantan job of request `rid` at `place`. -/
def conJob (rid : Nat) (long : Bool) (place : JobPlace) : ConJob :=
  { rid, tenant := 0, cycles := 15500, long, place, loaded := true, ctx := none, hashed := true, input := [], params := [],
    need := 0, draw := 0, preempted := 0, fresh := false,
    first := none, relaned := false }

/-- Requests 1 (EC_KEYGEN) and 2 in flight, with the Constantan jobs `js`; request 1 is asked to stop with `stop`. -/
def conJobs (stop : Option Status) (js : List ConJob) : State :=
  let d := keyed []
  st { d with que := { d.que with reqs := [{ req 0x31 [] with stop, stage := .running }, { req 0x31 [] with rid := 2, stage := .waiting }] },
              con := { d.con with jobs := js } }

/-- The jobs of a die whose 24 cores all work, core 23 for request 1. -/
def busyCores : List ConJob :=
  conJob 1 true (.running 23) :: conJob 2 false .waiting :: (List.range 23).map fun c => conJob (3 + c) false (.running c)

/-- ConstantanRequests, the engine without a core in service; ConstantanEngine, an idle core with and without a job to take. -/
theorem witness_ConstantanEngine_dispatch :
    ((withRegs ((List.range 24).map fun c => (.CON_CORE_STATUS_STATE, c, 0, 1)) live).coreless .con = true ∧ live.coreless .con = false) ∧
    (∀ js ∈ [[], [conJob 2 false .waiting]], let s := conJobs none js
      let d := s.die.loadJobs s.env
      d.takesWork .con 23 = true ∧ d.dispatches = true ∧ (∀ j ∈ d.con.jobs, j.place ≠ .running 23 ∧ j.place ≠ .displaced 23) ∧
        (d.conWaiters s.env 23 false ++ d.conWaiters s.env 23 true).map ConJob.rid = js.map ConJob.rid) :=
  ⟨by decide, by decide⟩
theorem witness_ConstantanEngine_use :
    (let s := conJobs none [conJob 2 false .waiting]
     let d := s.die.loadJobs s.env
     ∃ r, d.req? 2 = some r ∧ (conJob 2 false .waiting).keyUse r = none ∧ (d.ctxOn (conJob 2 false .waiting) 23).isSome = true ∧ r.opcode ≠ 0x35) ∧
    (∀ op ∈ [0x31, 0x32, 0x35], ∀ uses ∈ [0, uncounted],
      let r := { req op [(56, 1, if op = 0x35 then 0x11 else 0x80)] with stage := .waiting }
      let o := { keyObj 0 (if op = 0x35 then 0x13 else 0x10) 255 0 with uses, param := 0x80 }
      let d := withReq r (keyed [o])
      ((conJob 1 false .waiting).keyUse r = none ↔ op = 0x31) ∧ r.use = none ∧
        (op ≠ 0x31 → (match d.takeUse (st d).env r r.keyHandle (((conJob 1 false .waiting).keyUse r).getD 0) with
          | .counted _ => uses == uncounted | .refused .. => uses == 0 | _ => false) = true)) :=
  ⟨⟨_, rfl, by decide⟩, by decide⟩

/-- ConstantanEngine: running jobs with a stop asked, short, and long with no idle core; jobs that end, of a request of the family and of
another; a cancel that matches nothing. -/
theorem witness_ConstantanEngine :
    (∀ stop ∈ [none, some Status.aborted], ∀ long ∈ [true, false], let s := conJobs stop [conJob 1 long (.running 23)]
      let d := s.die.updCon 1 fun x => { x with fresh := false }
      (s.die.req? 1).map Req.stop = some stop ∧ d.con.jobs.find? (fun j => j.rid == 1) = some (conJob 1 long (.running 23)) ∧
        (s.die.req? 1).map Req.work = some [] ∧ (∀ x ∈ s.die.rcp.hashes, x.rid ≠ 1)) ∧
    (let s := conJobs none busyCores
     let d := s.die.updCon 1 fun x => { x with fresh := false }
     d.con.jobs.find? (fun j => j.rid == 1) = some (conJob 1 true (.running 23)) ∧ s.die.get .PWR_STATUS_STATE ≠ 2 ∧
       d.idleCore = false ∧ d.dispatches = true ∧ d.inUse .con 23 = true ∧ (∀ x ∈ d.con.jobs, x.place ≠ .displaced 23) ∧
       (d.conWaiters s.env 23 false).map ConJob.rid = [2]) ∧
    ((withReq { req 0x54 [] with stage := .running, work := [.con 100 0] } live).req? 1).map Req.work = some [.con 100 0] ∧
    (let r := req 0x3F [(16, 8, 7)]
     let s := liveReq r
     Accepted s.die 1 0x3F r ∧ cancelHeaderOk r true = true ∧ r.inLen = 0 ∧ RangesOk s.die r ∧
       (∀ x ∈ s.die.que.reqs, x.isConJob = true → x.tenant = r.tenant → leNat x.tag ≠ r.inAddr)) ∧
    (let s := conJobs none [conJob 1 true (.displaced 23)]
     (∀ x ∈ s.die.con.jobs, x.place ≠ .running 23) ∧ conJob 1 true (.displaced 23) ∈ s.die.con.jobs) :=
  ⟨by decide, by decide, by decide, by decide, by decide⟩

/-- ModularArithmetic: the least modulus and the greatest of a class; an operand equal to its modulus. -/
theorem witness_ModularArithmetic :
    (∀ m ∈ [3, 2 ^ 256 - 1], m % 2 = 1 ∧ 3 ≤ m ∧ m < 2 ^ 256 ∧ m - 1 < m) ∧ ¬(3 < 3) ∧ Nat.gcd 2 3 = 1 ∧ Nat.gcd 3 9 ≠ 1 := by decide

/-- A lattice request of `op` with parameter set `p` over `n` bytes. -/
def nttReq (op p n : Nat) : Req := req op [(24, 8, n), (40, 8, 5000), (50, 2, if op ≤ 0x43 then 1 else 0), (56, 1, p)]
def nttState (op p n : Nat) : State :=
  st (withReq (nttReq op p n) (keyed [{ keyObj 0 (if op ≤ 0x42 then 0x20 else if op = 0x45 then 0x22 else 0x21) 255 0 with param := p }]))

/-- LatticeCores: each request with the first or the last parameter set. -/
theorem witness_LatticeCores_requests :
    (∀ x ∈ [(0x40, 1, 0), (0x40, 3, 0), (0x41, 1, 800), (0x42, 1, 768), (0x43, 0x11, 0), (0x44, 0x13, 0), (0x45, 0x11, 3732)],
      let s := nttState x.1 x.2.1 x.2.2
      let r := nttReq x.1 x.2.1 x.2.2
      Accepted s.die 1 x.1 r ∧ RangesOk s.die r ∧ nttHeaderOk r = true ∧ (if x.1 ≤ 0x42 then isMlkem r.param else isMldsa r.param) = true ∧
        (s.die.loadKey s.env 0 r.keyHandle).2 = none ∧ (nttSpec r).inOk = true ∧ (nttSpec r).resLen ≤ r.outLen ∧
        (nttCreates r = true → (s.die.loadKey s.env 0 r.destHandle).2 = none ∧
          (s.die.loadKey s.env 0 r.destHandle).1.destCheck r.tenant r.destHandle = none) ∧ s.die.coreless .ntt = false) ∧
    (withRegs ((List.range 4).map fun c => (.NTT_CORE_STATUS_STATE, c, 0, 1)) live).coreless .ntt = true ∧
    (let s := nttState 0x44 0x13 0
     ∃ o, s.die.conKey (nttReq 0x44 0x13 0) (curveKey 0x21 0x13) useSign = .ok o) ∧
    (let s := nttState 0x44 0x13 0
     ∃ st x, s.die.conKey (nttReq 0x44 0x13 0) (curveKey 0x21 0x12) useSign = .bad st x) :=
  ⟨by decide, by decide, ⟨_, rfl⟩, ⟨_, _, rfl⟩⟩

/-- A lattice job of request 1 at `place`, its random values drawn. -/
def nttJob (place : JobPlace) (signing : Bool) : NttJob :=
  { rid := 1, tenant := 0, place, ctx := none, signing, cycles := 0, input := [], need := 0, draw := 1, attempts := 0, preempted := 0,
    first := none, relaned := false }
def nttJobs (op : Nat) (stop : Option Status) (js : List NttJob) : State :=
  let d := withReq { req op [(56, 1, 1)] with stop, stage := .waiting } (keyed [{ keyObj 0 0x21 255 0 with param := 1 }])
  st { d with ntt := { d.ntt with jobs := js } }

/-- LatticeCores: dispatch with and without a waiter, of a request without and with a key. -/
theorem witness_LatticeCores_dispatch :
    (∀ op ∈ [0x41, 0x44], ∀ js ∈ [[], [nttJob .waiting false]], let s := nttJobs op none js
      let d := s.die.loadNtt s.env
      d.takesWork .ntt 3 = true ∧ d.dispatches = true ∧ (∀ j ∈ d.ntt.jobs, j.place ≠ .running 3 ∧ j.place ≠ .displaced 3) ∧
        (d.nttWaiters 3 true ++ d.nttWaiters 3 false).map NttJob.rid = js.map NttJob.rid ∧
        ((d.req? 1).map fun r => (nttKeyNeed r).isNone) = some (op == 0x41) ∧ (d.nttCtxOn (nttJob .waiting false) 3).isSome = true) ∧
    (∀ uses ∈ [0, uncounted], let r := { req 0x44 [(56, 1, 0x13)] with stage := .waiting }
      let d := withReq r (keyed [{ keyObj 0 0x21 255 0 with uses, param := 0x13 }])
      (match d.takeUse (st d).env r r.keyHandle useSign with
       | .counted _ => uses == uncounted | .refused .. => uses == 0 | _ => false) = true) :=
  ⟨by decide, by decide⟩

/-- LatticeCores: attempt boundaries with a stop, with no job that goes first and with one; a job that ends; a cancel. -/
theorem witness_LatticeCores :
    (∀ stop ∈ [none, some Status.aborted], let s := nttJobs 0x44 stop [nttJob (.running 3) true]
      let d := s.die.updNtt 1 fun x => { x with attempts := x.attempts + 1 }
      (s.die.req? 1).map Req.stop = some stop ∧ s.die.ntt.jobs.find? (fun j => j.rid == 1) = some (nttJob (.running 3) true) ∧
        s.die.get .PWR_STATUS_STATE ≠ 2 ∧ s.die.dispatches = true ∧ s.die.inUse .ntt 3 = true ∧ d.nttWaiters 3 true = [] ∧ Settled s ∧
        (s.die.req? 1).map Req.work = some []) ∧
    (let d0 := keyed []
     let d1 : Die := { d0 with que := { d0.que with reqs := [{ req 0x44 [] with stage := .running }, { req 0x41 [(56, 1, 1)] with rid := 2, stage := .waiting }] },
                               ntt := { d0.ntt with jobs := [nttJob (.running 3) true, { nttJob .waiting false with rid := 2 }] } }
     let d := d1.updNtt 1 fun x => { x with attempts := x.attempts + 1 }
     (d.nttWaiters 3 true).map NttJob.rid = [2]) ∧
    ((withReq { req 0x54 [] with stage := .running, work := [.ntt 100 false 0] } live).req? 1).map Req.work = some [.ntt 100 false 0] ∧
    (let r := req 0x4F [(16, 8, 7)]
     let s := liveReq r
     Accepted s.die 1 0x4F r ∧ cancelHeaderOk r false = true ∧ r.inLen = 0 ∧ RangesOk s.die r ∧
       (∀ x ∈ s.die.que.reqs, x.isNttJob = true → x.tenant = r.tenant → leNat x.tag ≠ r.inAddr)) :=
  ⟨by decide, by decide, by decide, by decide⟩
/-! ## Witnesses: steering, the table and the store -/

/-- A die of an ensemble of 4 at position `pos`, with die 0 the lead. -/
def member (pos : Nat) : Die := withRegs [(.ENS_STATUS_SIZE, 0, 0, 4), (.ENS_STATUS_POSITION, 0, 0, pos)] live

/-- Steering: the last index and positions 0, 3 and 7; a previous position that still holds sessions. -/
theorem witness_Steering :
    (member 1).isLead = false ∧ (member 0).isLead = true ∧ Settled (st (member 0)) ∧ 3 < (member 0).size ∧ (member 0).size ≤ 7 ∧
      3 ≠ (member 0).getAt .REC_STEER_POSITION 63 ∧ (member 0).getAt .ENS_STEER_PREV_VALID 63 = 0 ∧
      (let d := withRegs [(.ENS_STEER_PREV_VALID, 63, 0, 1), (.ENS_STEER_PREV_POSITION, 63, 0, 2)] (member 0)
       ¬(d.getAt .ENS_STEER_PREV_VALID 63 = 0 ∨ d.getAt .ENS_STEER_PREV_POSITION 63 = 3) ∧ d.getAt .ENS_STEER_PREV_POSITION 63 = 2 ∧ 2 < (member 0).size) := by decide

/-- A die that serves its slice of one unit of main buckets, with the locks `ls`, on which request `r` is in flight. -/
def tblState (r : Req) (ls : List Lock) : State :=
  let d := withReq r (withRegs [(.KFT_GEOMETRY_MAIN_UNITS, 0, 0, 1)] (keyed []))
  st { d with kft := { d.kft with locks := ls } }

/-- Locks of tenant 1 in buckets 8 to 11, as many as one tenant may hold. -/
def fourLocks (tenant : Nat) : List Lock := (List.range 4).map fun k => { bucket := 8 + k, tenant }

/-- TableAccess: a free lock, one held, one of another tenant, and as many as the tenant may hold; the lookups. -/
theorem witness_TableAccess :
    (∀ op ∈ [0x80, 0x81], ∀ ls ∈ [[], [({ bucket := 0, tenant := 0 } : Lock)], [{ bucket := 0, tenant := 1 }], fourLocks 0],
      let r := req op [(48, 8, 1)]
      let s := tblState r ls
      Accepted s.die 1 op r ∧ RangesOk s.die r ∧ r.zeroBytes 56 64 = true ∧ s.die.unserved (handleHome r.handle) = false ∧
        s.die.serverOf (handleHome r.handle) = s.die.pos ∧ Settled s ∧
        s.die.servesSlice (handleHome r.handle) = true ∧ s.die.badHandle r (.handle r.handle) = false ∧ s.die.kft.locks.length < 1024 ∧
        mainKey (handleHome r.handle) (handleBucket r.handle) = 0) ∧
    ((tblState (req 0x80 [(48, 8, 1)]) []).die.lockOf 0 = none ∧ (tblState (req 0x80 [(48, 8, 1)]) []).die.locksHeld 0 = 0 ∧
      0 < (tblState (req 0x80 [(48, 8, 1)]) []).die.locksAllowed ∧
      (tblState (req 0x80 [(48, 8, 1)]) (fourLocks 0)).die.locksAllowed ≤ (tblState (req 0x80 [(48, 8, 1)]) (fourLocks 0)).die.locksHeld 0) ∧
    (∀ x ∈ [(0x83, 64), (0x84, 0), (0x85, 0)], let r := req x.1 [(40, 8, x.2), (48, 8, 1)]
      let s := tblState r []
      Accepted s.die 1 x.1 r ∧ RangesOk s.die r ∧ r.zeroBytes 56 64 = true ∧ s.die.key.esk.isSome = true ∧
        s.die.lookKey s.env r = some (.handle 1) ∧ s.die.unserved (s.die.keyPosition (.handle 1)) = false ∧ s.die.serverOf (s.die.keyPosition (.handle 1)) = s.die.pos) ∧
    (∀ n ∈ [1, 20], let r := req 0x82 [(24, 8, n), (56, 1, 1)]
      Accepted (tblState r []).die 1 0x82 r ∧ RangesOk (tblState r []).die r ∧ r.zeroBytes 57 64 = true ∧ r.byte 56 = 1) ∧
    (let d := withSess sess (keyed [])
     sess ∈ d.kft.sessions ∧ d.session? sess.uid = some sess ∧ bit sess.sflags 2 = false ∧ d.held (d.bucketOf sess) = false ∧
       (req 0x84 [(56, 1, 1)]).byte 56 = 1 ∧ (req 0x84 [(56, 1, 1)]).byte 57 = 0 ∧ (req 0x84 [(56, 1, 1)]).byte 58 = 0) ∧
    (let d := withSess { sess with deleting := some 1 } (keyed [])
     d.kft.sessions.find? (fun x => x.deleting == some 1) = some { sess with deleting := some 1 } ∧ sess.inFlight = 0 ∧
       d.held (d.bucketOf { sess with deleting := some 1 }) = false ∧ d.req? 1 = none ∧
       (withReq { req 0x85 [] with stage := .running } d).req? 1 = some { req 0x85 [] with stage := .running } ∧ 0x85 / 16 = 8) :=
  ⟨by decide, by decide, by decide, by decide, by decide, by decide⟩

/-- A die with one unit of main buckets whose sweep stands at `p`. -/
def sweepDie (p : Nat) (retry : Option Nat) : Die :=
  let d := withSess { sess with crumb := true } (withRegs [(.KFT_GEOMETRY_MAIN_UNITS, 0, 0, 1)] (keyed []))
  { d with kft := { d.kft with sweepPos := p, sweepRetry := retry, batches := [{ tenant := 0, entries := [] }] } }

/-- The Crumb bucket of a session is no main bucket, so the main bucket 0 of that die is empty. -/
theorem sweepDie_empty : (sweepDie 0 none).sessionsIn 0 = [] := by
  have h : ∀ d : Die, d.bucketOf { sess with crumb := true } ≠ 0 := by
    intro d
    simp only [Die.bucketOf, if_true, crumbKey, bucketKey]
    omega
  have hs : (sweepDie 0 none).kft.sessions = [{ sess with crumb := true }] := rfl
  unfold Die.sessionsIn
  rw [hs]
  simp [h]

/-- TableUpkeep: the session that a relocation brings back. -/
theorem witness_TableUpkeep_relocate : (sweepDie 0 none).relocatable 0 0 = some { sess with crumb := true } := by
  have h : (sweepDie 0 none).freeSlots (mainKey 0 0) = [0, 1, 2, 3] := by
    unfold Die.freeSlots
    rw [show mainKey 0 0 = 0 from rfl, sweepDie_empty]
    rfl
  unfold Die.relocatable
  rw [h]
  rfl

/-- Nothing was ever written to the store of that die, so no bucket needs a read. -/
theorem sweepDie_knownEmpty (p : Nat) (retry : Option Nat) (k : Nat) : (sweepDie p retry).knownEmpty k = true := by
  have hr : ∀ home level j : Nat, (sweepDie p retry).reseal? home level j = none := fun _ _ _ => rfl
  have ht : ∀ home level j : Nat, (sweepDie p retry).vblock home level j = default := fun _ _ _ => rfl
  have hv : ∀ home level j : Nat, (sweepDie p retry).childVersion home level j = 0 := by
    intro home level j
    unfold Die.childVersion Die.versionOf
    rw [hr, ht]
    simp [VBlock.version, VBlock.minor, show (default : VBlock).major = 0 from rfl, show (default : VBlock).minors = 0 from rfl, bits]
  unfold Die.knownEmpty
  simp only [hv]
  split
  · rfl
  · split
    · rfl
    · split
      · rfl
      · simp

/-- TableUpkeep: the two buckets of a relocation are read. -/
theorem witness_TableUpkeep_read (c : Nat) : (sweepDie 0 none).readBuckets (st (sweepDie 0 none)).env 0 0 c = (sweepDie 0 none, none) := by
  unfold Die.readBuckets Die.readBucket
  simp only [sweepDie_knownEmpty, if_true]

/-- The die of which the host holds buckets that the walker may not read. -/
def unreadDie (d : Die) : Die := { d with mlf := { d.mlf with tree := [(3 * 2 ^ 32, { major := 1, minors := 1 })] } }

/-- TableUpkeep: a session that fits back; the first and the last bucket of the sweep, the end of its pass, a second read; a batch. -/
theorem witness_TableUpkeep :
    (let s := st (sweepDie 0 none)
     keyKind 0 = 0 ∧ s.die.locked 0 = false ∧ s.die.inWrite 0 = false ∧ s.die.bucketPoisoned 0 = false ∧
       Settled s) ∧
    (let d := sweepDie 0 none
     let k := crumbKey (keyHome 0) (d.crumbOf (keyHome 0) (keyIdx 0))
     d.inWrite k = false ∧ d.bucketPoisoned k = false) ∧
    (∀ p ∈ [0, 65536 + 2047, 65536 + 2048], let d := (sweepDie p none).checkLate
      d.kft.sweepRetry = none ∧ d.sweepHomes = [0] ∧ d.sliceBuckets = 65536 + 2048 ∧ (∀ k ∈ [0, 5], d.bucketPoisoned k = false) ∧
        d.sweepBucket p = (if p = 0 then some (mainKey 0 0) else if p = 65536 + 2047 then some (crumbKey 0 2047) else none)) ∧
    ((sweepDie 0 (some 0)).kft.sweepRetry = some 0 ∧ (sweepDie 0 (some 0)).locked 0 = false ∧ (sweepDie 0 (some 0)).held 0 = false ∧
      ((sweepDie 0 none).kft.batches.find? fun b => b.tenant == 0) = some { tenant := 0, entries := [] } ∧
      ((sweepDie 0 none).fnOf? 0).isSome = true) ∧
    (let d := unreadDie (sweepDie 0 none).checkLate
     d.knownEmpty 0 = false ∧ (d.readBucket (st d).env 0 0).2 = some .refused) ∧
    ((withRegs [(.KFT_TEN_CFG_AGE_LIMIT, 0, 0, 4), (.KFT_MINUTE_MINUTE, 0, 0, 5)] (sweepDie 0 none)).aged sess = true ∧
      (withRegs [(.KFT_TEN_CFG_AGE_LIMIT, 0, 0, 5), (.KFT_MINUTE_MINUTE, 0, 0, 5)] (sweepDie 0 none)).aged sess = false ∧
      keyKind (crumbKey 0 0) ≠ 0) :=
  ⟨by decide, ⟨rfl, rfl⟩, by decide, by decide, by decide, by decide⟩

/-- Versions: the lowest and the highest child, with the highest minor that can be raised and the one that re-seals. -/
theorem witness_Versions :
    (∀ c ∈ [0, 31], ({ major := 5, minors := 126 * 2 ^ (7 * c) } : VBlock).minor c = 126 ∧
      ({ major := 5, minors := 127 * 2 ^ (7 * c) } : VBlock).minor c = 127 ∧ 127 * 2 ^ (7 * c) < 2 ^ 224) ∧
    (let d := live.setVblock 0 1 9 { major := 5, minors := 127 }
     d.vblock 0 1 9 = { major := 5, minors := 127 } ∧ d.reseal? 0 1 9 = none) := by decide

/-- A slot write of block 0 at `stage`, the last step of its re-seal where `ends`. -/
def slotWrite (stage : WriteStage) (block : Nat) (ends : Bool) : SlotWrite :=
  { wid := 3, home := 0, block, parts := [], stage, awaits := [], uOld := 0, uNew := 1, ends }

/-- A store with the slot write `w`, a re-seal of level-`level` block 4 from the image `old` of which child 31 is left, and a poisoned range
of `span` levels at slot `at_`, that reformats or not; its slice of 1 GiB, which the walker may read, is in the configuration where `cfg`. -/
def storeDie (w : SlotWrite) (level : Nat) (old : VBlock) (at_ : Nat) (fmt : Option Nat) (cfg : Bool) : Die :=
  let d := withRegs [(.MPU_RGN_ATTR_ENABLE, 257, 0, 1), (.MPU_RGN_ATTR_SIZE_LOG2, 257, 0, 40), (.MPU_RGN_ATTR_R, 257, 0, 1)] (keyed [])
  { d with
    mlf := { d.mlf with
      writes := [w]
      reseals := [{ home := 0, level, index := 4, old, left := [31] }]
      unacked := [9]
      poison := [(7, { home := 0, level := 0, offset := at_ * 128 })], reformat := fmt }
    tin := { d.tin with running := if cfg then [{ type := 3, inst := 0, body := zeros 24 ++ leBytes 2 1 ++ zeros 22 }] else [] } }

/-- StoreCommands: a write that ends no re-seal, and one that ends its block's; the mirror's messages; the poison list; the epoch. -/
theorem witness_StoreCommands :
    (∀ ends ∈ [true, false], let s := st (storeDie (slotWrite .flushing 4 ends) 1 default 0 none true)
      s.die.mlf.writes.find? (fun w => w.wid == 3 && w.stage == .flushing) = some (slotWrite .flushing 4 ends) ∧
        s.die.mlf.reseals.find? (fun r => r.home == 0 && r.level == 1 && r.index == 4) = some { home := 0, level := 1, index := 4, old := default, left := [31] } ∧
        s.die.mlf.unacked.contains 9 = true) ∧
    ((3 + 1) % (member 0).size = (member 0).pos ∧ 3 ≠ (member 0).pos ∧ Settled (st (member 0))) ∧
    (let d := storeDie (slotWrite .flushing 0 false) 2 default 0 none true
     d.mlf.reformat = none ∧ (d.mlf.poison.any fun p => p.1 == 7 % 256) = true) ∧
    (let d := storeDie (slotWrite .flushing 0 false) 2 default 0 (some 7) true
     d.mlf.poison.find? (fun p => some p.1 == d.mlf.reformat) = some (7, { home := 0, level := 0, offset := 0 })) ∧
    ((member 0).isLead = true ∧ (member 1).isLead = false ∧ (member 0).get .MLF_ARCHIVE_EPOCH_EPOCH < 2 ^ 32 - 1 ∧ (member 0).mlf.bumpWait = [] ∧
      (withRegs [(.MLF_ARCHIVE_EPOCH_EPOCH, 0, 0, 2 ^ 32 - 1)] (member 0)).get .MLF_ARCHIVE_EPOCH_EPOCH = 2 ^ 32 - 1) :=
  ⟨by decide, by decide, by decide, by decide, by decide⟩

/-- StoreCommands, a re-seal: a child on its way, one in a poisoned range, one never written, one that may not be read, and one that fails. -/
theorem witness_StoreCommands_reseal :
    (let d := storeDie (slotWrite .mirroring 159 false) 2 default 0 none true
     let r : Reseal := { home := 0, level := 2, index := 4, old := default, left := [31] }
     d.mlf.reseals.find? (fun r => r.level == 2 && r.index == 4 && r.left.contains 31) = some r ∧ d.childOnWay r 159 = true) ∧
    (let d := storeDie (slotWrite .flushing 0 false) 2 default (159 * 32) none true
     let r : Reseal := { home := 0, level := 2, index := 4, old := default, left := [31] }
     d.childOnWay r 159 = false ∧ d.poisoned 0 (159 * 32 ^ (2 - 1)) = true) ∧
    (let d := storeDie (slotWrite .flushing 0 false) 2 default 0 none true
     d.poisoned 0 (159 * 32 ^ (2 - 1)) = false ∧ (d.resealChild (st d).env 0 2 159 0).2 = none) ∧
    (let old : VBlock := { major := 1, minors := 0 }
     let d := storeDie (slotWrite .flushing 0 false) 2 old 0 none false
     (d.resealChild (st d).env 0 2 159 (old.version 31)).2 = some .refused) ∧
    (let old : VBlock := { major := 1, minors := 0 }
     let d := storeDie (slotWrite .flushing 0 false) 2 old 0 none true
     (d.resealChild (st d).env 0 2 159 (old.version 31)).2 = some (.item 1 159 3)) :=
  ⟨by decide, by decide, by decide, by decide, by decide⟩
/-! ## Witnesses: keys, random numbers -/

/-- The die with `n` bytes in each random queue. -/
def stocked (n : Nat) (d : Die) : Die := { d with rng := { d.rng with drbgBytes := n, feBytes := n } }

/-- A state in Mission with request `r` in flight, key objects `os` and random bytes. -/
def keyState (r : Req) (os : List KeyObj) : State := st (withReq r (stocked 4096 ((keyed os).set .LCS_STATE_STATE 4)))

/-- A draw of `n` bytes is taken. -/
def draws (d : Die) (n : Nat) : Bool := match d.drawFor 1 n with | .drawn _ _ => true | _ => false

/-- A use of the key at `handle` is counted. -/
def counts (s : State) (r : Req) (handle usage : Nat) : Bool := match s.die.takeUse s.env r handle usage with | .counted _ => true | _ => false

/-- KeyRequests, KEY_GENERATE: a fixed length, and HMAC keys of 16 and 64 bytes. -/
theorem witness_KeyRequests_generate :
    ∀ x ∈ [(1, 0, 16), (8, 16, 16), (8, 64, 64)], let r := req 0x60 [(50, 2, 1), (52, 2, x.2.1), (56, 1, x.1), (60, 4, 1)]
      let s := keyState r []
      RangesOk s.die r ∧ Accepted s.die 1 0x60 r ∧ keyHeaderOk r false true (r.objType == 8) true = true ∧ r.inLen = 0 ∧ r.uses ≠ 0 ∧
        (s.die.loadKey s.env 0 1).2 = none ∧ (s.die.loadKey s.env 0 1).1.destCheck 0 1 = none ∧ r.rid = 1 ∧ symLen r.objType (leAt r.desc 52 2) = some x.2.2 ∧ draws s.die x.2.2 = true := by decide

/-- A KEY_DERIVE request over the block at 4096, its state, and blocks of 8 and of 328 bytes. -/
def deriveReq (n : Nat) : Req := req 0x61 [(16, 8, 4096), (24, 8, n), (50, 2, 1), (56, 1, 1), (60, 4, 1)]
def deriveState (n salt info : Nat) : State :=
  { keyState (deriveReq n) [keyObj 0 8 63 0] with mem := memAt 4096 (leBytes 1 2 ++ zeros 1 ++ leBytes 1 salt ++ zeros 1 ++ leBytes 2 info ++ leBytes 2 16) }

/-- KeyRequests, KEY_DERIVE: the shortest and the longest block. -/
theorem witness_KeyRequests_derive :
    ∀ x ∈ [(8, 0, 0), (328, 64, 256)], let r := deriveReq x.1
      let s := deriveState x.1 x.2.1 x.2.2
      let b := dmaRead s.env s.die r.inAddr r.inLen
      RangesOk s.die r ∧ Accepted s.die 1 0x61 r ∧ keyHeaderOk r true true false true = true ∧ r.uses ≠ 0 ∧ bit r.aflags 1 = false ∧
        (s.die.loadKey s.env 0 0).2 = none ∧ (s.die.loadKey s.env 0 1).2 = none ∧ s.die.destCheck 0 1 = none ∧
        r.inLen = 8 + (deriveBlock b).salt.length + (deriveBlock b).info.length ∧ deriveBlockOk b = true ∧
        (symLen r.objType 16).isSome = true ∧ symLen r.objType (deriveBlock b).out = some (deriveBlock b).out ∧
        (s.die.workKey r fun d => d.checkKey 0 0 (fun o => o.type == 8 || o.type == 0x30) useDerive) = .ok (keyObj 0 8 63 0) ∧
        r.worked = false ∧ s.die.coreless .hash = false ∧ counts s r 0 useDerive = true := by decide

/-- KeyRequests, KEY_DERIVE given again once its derivation is done: the key whose use it holds. -/
theorem witness_KeyRequests_derived :
    let r := { deriveReq 8 with worked := true, use := some (0, 0, false) }
    let s := { deriveState 8 0 0 with die := withReq r (deriveState 8 0 0).die }
    Accepted s.die 1 0x61 r ∧ (s.die.workKey r fun d => d.checkKey 0 0 (fun o => o.type == 8 || o.type == 0x30) useDerive) = .ok (keyObj 0 8 63 0) ∧
      s.die.writesPending 1 = false := by decide

/-- KeyRequests on one object: narrowing and not, deleting with a use in flight and without, both sides of 64 bytes of output, and export. -/
theorem witness_KeyRequests_object :
    (∀ u ∈ [63, 64], let r := req 0x62 [(56, 1, 1), (58, 1, u)]
      let s := keyState r [keyObj 0 1 63 0]
      RangesOk s.die r ∧ Accepted s.die 1 0x62 r ∧ keyHeaderOk r true false false true = true ∧ r.inLen = 0 ∧
        (s.die.loadKey s.env 0 0).2 = none ∧ s.die.readKey 0 0 = .ok (keyObj 0 1 63 0) ∧ (narrows (keyObj 0 1 63 0) r = true ↔ u = 63) ∧ (keyObj 0 1 63 0).extended = false) ∧
    (∀ n ∈ [0, 1], let r := req 0x63 []
      let o := { keyObj 0 1 63 0 with inFlight := n }
      let s := keyState r [o]
      RangesOk s.die r ∧ Accepted s.die 1 0x63 r ∧ keyHeaderOk r true false false false = true ∧ r.inLen = 0 ∧
        (s.die.loadKey s.env 0 0).2 = none ∧ s.die.deletable 0 0 = .ok o ∧ (o.inFlight = 0 ↔ n = 0)) ∧
    (∀ n ∈ [63, 64], let r := req 0x64 [(40, 8, n)]
      let s := keyState r [keyObj 0 1 63 0]
      RangesOk s.die r ∧ Accepted s.die 1 0x64 r ∧ keyHeaderOk r true false false false = true ∧ s.die.readKey 0 0 = .ok (keyObj 0 1 63 0) ∧
        s.die.unreadable s.env (keyObj 0 1 63 0) = none ∧ r.outLen = n) ∧
    (let s := keyState (req 0x64 [(40, 8, 64)]) [{ keyObj 0 0x10 63 0 with param := 0x80 }]
     s.die.readKey 0 0 = .ok { keyObj 0 0x10 63 0 with param := 0x80 } ∧ s.die.unreadable s.env { keyObj 0 0x10 63 0 with param := 0x80 } = some 0x11) ∧
    (∀ a ∈ [0, 1], let r := req 0x65 [(40, 8, 176)]
      let s := keyState r [keyObj 0 1 63 a]
      RangesOk s.die r ∧ Accepted s.die 1 0x65 r ∧ keyHeaderOk r true false false false = true ∧ s.die.readKey 0 0 = .ok (keyObj 0 1 63 a) ∧
        s.die.get .LCS_STATE_STATE = 4 ∧ ((keyObj 0 1 63 a).volatile = true ↔ a = 1) ∧ (keyObj 0 1 63 a).uses = uncounted ∧ draws s.die 12 = true) :=
  ⟨by decide, by decide, by decide, by decide, by decide⟩

/-- An RSA object whose extension of 64 zero bytes at address 0 carries its tag, and what narrowing it does. -/
def extObj : KeyObj :=
  let o := { keyObj 0 0x18 63 8 with len := 2048, material := zeros 8 ++ leBytes 4 64 ++ zeros 84 }
  { o with material := zeros 8 ++ leBytes 4 64 ++ zeros 44 ++ aeadTag 1 16 (zeros 32) (zeros 12) o.extAad (zeros 64) ++ zeros 24 }

/-- KeyRequests, KEY_ATTR_SET: an object with an extension in memory, whose attributes change. -/
theorem witness_KeyRequests_extension :
    let r := req 0x62 [(56, 1, 0x18), (58, 1, 31)]
    let s := keyState r [extObj]
    extObj.extended = true ∧ narrows extObj r = true ∧ extObj.extAad ≠ (extObj.narrowed r).extAad ∧
      s.die.readExt s.env extObj = some (aeadText 1 (zeros 32) (zeros 12) (zeros 64)) ∧ s.die.dmaOk 0 extObj.extAddr extObj.extLen true = true ∧
      draws s.die 44 = true := by
  refine ⟨rfl, by decide, by decide, ?_, by decide, by decide⟩
  unfold Die.readExt gcmOpen
  exact if_pos ⟨by decide, rfl⟩

/-- KeyRequests: an archive restored, a key wrapped or refused, and the least and the most that is unwrapped. -/
theorem witness_KeyRequests_travel :
    (let r := req 0x66 [(24, 8, 176)]
     let s := keyState r []
     RangesOk s.die r ∧ Accepted s.die 1 0x66 r ∧ keyHeaderOk r false false false false = true ∧ s.die.get .LCS_STATE_STATE = 4 ∧
       s.die.key.esk.isSome = true ∧ r.outAddr = 0 ∧ s.die.openArchive 0 (dmaRead s.env s.die r.inAddr 176) = none ∧
       (s.die.loadKey s.env 0 0).2 = none ∧ s.die.destCheck 0 0 = none) ∧
    (∀ a ∈ [0, 2], let r := req 0x67 [(40, 8, 40), (50, 2, 1)]
      let s := keyState r [keyObj 0 1 63 0, keyObj 1 1 63 a]
      RangesOk s.die r ∧ Accepted s.die 1 0x67 r ∧ keyHeaderOk r true true false false = true ∧
        s.die.wrapKey r useWrap = .ok (keyObj 0 1 63 0) ∧ r.worked = false ∧ s.die.readKey 0 1 = .ok (keyObj 1 1 63 a) ∧
        ((keyObj 1 1 63 a).exportable = true ↔ a = 2) ∧ ceilDiv (16 + travelLen 1 0 16) 8 * 8 + 8 ≤ r.outLen ∧ counts s r 0 useWrap = true) ∧
    (∀ n ∈ [24, 8192], let r := req 0x68 [(24, 8, n), (50, 2, 1), (56, 1, 1), (60, 4, 1)]
      let s := keyState r [keyObj 0 1 127 0]
      RangesOk s.die r ∧ Accepted s.die 1 0x68 r ∧ keyHeaderOk r true true false true = true ∧ r.uses ≠ 0 ∧ typeDefined r.objType = true ∧
        s.die.destCheck 0 1 = none ∧ s.die.wrapKey r useUnwrap = .ok (keyObj 0 1 127 0) ∧ r.worked = false ∧ s.die.writesPending 1 = false ∧
        (s.die.loadKey s.env 0 0).2 = none ∧ (s.die.loadKey s.env 0 1).2 = none ∧ counts s r 0 useUnwrap = true) :=
  ⟨by decide, by decide, by decide⟩

/-- An archive blob of handle 0 of tenant 0 with a payload of zeros, as a die of ensemble tag `g` seals it with `tag`. -/
def archiveHdr (g : Bytes) : Bytes := leBytes 4 archiveMagic ++ [1, 0] ++ zeros 4 ++ leBytes 2 112 ++ zeros 4 ++ g ++ zeros 16
def archiveBlob (g tag : Bytes) : Bytes := archiveHdr g ++ zeros 112 ++ tag

/-- KeyRequests, KEY_RESTORE: a blob that opens. -/
theorem archive_opens (d : Die) (h : d.get .MLF_ARCHIVE_EPOCH_EPOCH = 0) : ∀ g tag : Bytes, g.length = 16 → tag.length = 16 → d.ensembleTag = g →
    tag = aeadTag 1 16 (d.archiveKey 0) (zeros 12) (archiveHdr g) (zeros 112) →
    d.openArchive 0 (archiveBlob g tag) = some (aeadText 1 (d.archiveKey 0) (zeros 12) (zeros 112))
  | [a0, a1, a2, a3, a4, a5, a6, a7, a8, a9, a10, a11, a12, a13, a14, a15], [b0, b1, b2, b3, b4, b5, b6, b7, b8, b9, b10, b11, b12, b13, b14, b15], _, _, hg, ht => by
    unfold Die.openArchive
    rw [hg, h, if_neg]
    · unfold gcmOpen
      exact if_pos ⟨Nat.le_of_ble_eq_true rfl, ht⟩
    · have read {b : Bytes} (i n : Nat) (x : Bytes) (v : Nat) (hx : slice b i n = x) (hv : leNat x = v) : leAt b i n = v :=
        (congrArg leNat hx).trans hv
      simp only [Bool.or_eq_true, bne_iff_ne, not_or, not_not]
      exact ⟨⟨⟨⟨⟨⟨⟨read _ _ (leBytes 4 archiveMagic) _ rfl (by decide), read _ _ [1] _ rfl (by decide)⟩, read _ _ [0] _ rfl (by decide)⟩,
        read _ _ (zeros 2) _ rfl (by decide)⟩, read _ _ (leBytes 2 112) _ rfl (by decide)⟩, read _ _ (zeros 4) _ rfl (by decide)⟩, rfl⟩,
        read _ _ (zeros 4) _ rfl (by decide)⟩
theorem witness_KeyRequests_archive :
    let r := req 0x66 [(16, 8, 4096), (24, 8, 176)]
    let d := (keyState r []).die
    ∃ p, d.openArchive 0 (archiveBlob d.ensembleTag (aeadTag 1 16 (d.archiveKey 0) (zeros 12) (archiveHdr d.ensembleTag) (zeros 112))) = some p :=
  ⟨_, archive_opens _ rfl _ _ (by simp [Die.ensembleTag, Die.ensembleIdentity, sha384, hashBytes]) (by simp [aeadTag]) rfl rfl⟩

/-- SealedBlobs: values of the widths it names, at their upper bounds. -/
theorem witness_SealedBlobs :
    (zeros 12).length = 12 ∧ (zeros 112).length = 112 ∧ live.get .MLF_ARCHIVE_EPOCH_EPOCH < 2 ^ 32 ∧ live.get .NTT_TICKET_EPOCH_EPOCH < 2 ^ 32 ∧
      live.get .KFT_MINUTE_MINUTE < 2 ^ 16 ∧ hashLen (suiteHash 1) = (zeros 32).length ∧ (HsCtx.fresh 1 0 1 1 0 []).ctxId < 2 ^ 32 ∧
      (HsCtx.fresh 1 0 1 1 0 []).step < 2 ^ 32 ∧ (let o := keyObj 0 255 255 255
        o.type < 256 ∧ o.usage < 256 ∧ o.aflags < 256 ∧ o.origin < 256 ∧ o.policyId < 256 ∧ o.param < 256 ∧ o.len < 2 ^ 16 ∧ o.hostUses < 2 ^ 32 ∧
          o.vgen < 2 ^ 32 ∧ o.material.length = 96) := by decide

/-- A state of the generator `state` in which request `r` waits for `need` bytes, with `got` of them taken, and `n` bytes are in the queues. -/
def rngWaits (state n need got : Nat) (full : Bool) (r : Req) : State :=
  let d := withReq { r with stage := .waiting } (stocked n (live.set .RNG_STATUS_STATE state))
  st { d with rng := { d.rng with waits := [{ rid := 1, full, need, got }] } }

/-- RandomRequests: the shortest and longest requests, in and out of FAULT, with and without the right to full entropy; waiting requests
that are served in part and whole, and whose hold ends. -/
theorem witness_RandomRequests :
    (∀ x ∈ [(0x70, 1), (0x70, 65536), (0x71, 1), (0x71, 4096)], ∀ state ∈ [0, 3], let r := req x.1 [(40, 8, x.2)]
      let s := st (withReq r (live.set .RNG_STATUS_STATE state))
      RangesOk s.die r ∧ r.zeroBytes 16 32 = true ∧ r.zeroBytes 48 64 = true ∧ Accepted s.die 1 x.1 r ∧ Settled s ∧
        s.die.fnOf? r.tenant = some 0 ∧ s.die.hasAt .RNG_TEN_CFG_FE_ALLOWED 0 = false ∧
        (withRegs [(.RNG_TEN_CFG_FE_ALLOWED, 0, 0, 1)] s.die).hasAt .RNG_TEN_CFG_FE_ALLOWED 0 = true) ∧
    (∀ full ∈ [false, true], ∀ need ∈ [16, 20000], let r := req (if full then 0x71 else 0x70) [(40, 8, need)]
      let s := st (withRegs [(.RNG_TEN_CFG_RATE, 0, 0, 1)] (rngWaits 1 4096 need 0 full r).die)
      let n := min need (64 * s.die.unitsLeft 0)
      (s.die.rngHead full).map Prod.fst = some { rid := 1, full, need, got := 0 } ∧ n ≠ 0 ∧ n ≤ 4096 ∧ (need ≤ n ↔ need = 16)) ∧
    (∀ state ∈ [0, 1, 2], let d : Die := { (rngWaits state 0 16 0 false (req 0x70 [(40, 8, 16)])).die with nowMs := 2 }
      (d.rng.waits.any fun w => w.rid == 1) = true ∧ d.req? 1 = some { req 0x70 [(40, 8, 16)] with stage := .waiting } ∧ 0 < d.nowMs ∧
        d.get .RNG_STATUS_STATE = state) :=
  ⟨by decide, by decide, by decide⟩

/-- A die whose eight instances are seeded and whose RNG state is `state`. -/
def seededDie (state : Nat) : Die :=
  let d := withRegs [(.RNG_STATUS_STATE, 0, 0, state), (.RNG_STATUS_SEEDED, 0, 0, 255)] live
  { d with ntt := { d.ntt with ctxKeyGen := 1 } }

/-- Generator: each state of it, a queue with room for one fill, and test access open and closed. -/
theorem witness_Generator :
    (∀ x ∈ [0, 1, 2, 3], Settled (st (seededDie x)) ∧ (seededDie x).clk.stable = true ∧ (seededDie x).get .RNG_STATUS_STATE = x ∧
      ((seededDie x).set .LCS_STATE_STATE 4).rawDiverted = false ∧ (seededDie x).rawDiverted = false ∧ 4 ≤ (seededDie x).seededCount) ∧
    (let d := stocked (65536 - 64) (seededDie 1)
     d.rng.drbgBytes + 64 ≤ 65536 ∧ d.ntt.ctxKeyGen ≠ 0 ∧ d.nextInstance.isSome = true ∧ d.seeded 0 = true ∧ d.seeded 7 = true ∧ d.rng.waits = [] ∧
       ({ d with nowMs := 60000 } : Die).rng.readyMs + 60000 ≤ 60000 ∧ (d.drbg 7).sinceMs + 1000 ≤ 1000) ∧
    ((seededDie 1).set .LCS_STATE_STATE 4).rngTestOpen = false ∧ ((seededDie 1).set .LCS_STATE_STATE 0).rngTestOpen = true := by decide
/-! ## Witnesses: handshakes and ceremonies -/

theorem length_leBytes : ∀ (k n : Nat), (leBytes k n).length = k
  | 0, _ => rfl
  | k + 1, n => by simp [leBytes, length_leBytes k]

theorem length_blob (d : Die) (c : HsCtx) : (d.blobBytes c).length = 1024 := by
  simp [Die.blobBytes, Die.blobTag, aeadTag, length_leBytes, zeros]

/-- The input block of a step over `t` and `data`. -/
def stepBlock (t data : Bytes) : Bytes := leBytes 4 t.length ++ leBytes 4 data.length ++ t ++ data

/-- A step of `op` over `t` and `data`, with its input block at 65,536 and CTX_ADDR 4,096. -/
def hsReq (op : Nat) (t data : Bytes) (l : List (Nat × Nat × Nat)) : Req :=
  req op ([(16, 8, 65536), (24, 8, 8 + t.length + data.length), (40, 8, 65536), (48, 8, 4096)] ++ l)

/-- The die `b` with request `r` in flight and context `c` open. -/
def hsDie (r : Req) (c : HsCtx) (b : Die) : Die :=
  let d := withReq r b
  { d with ntt := { d.ntt with ctxKeyGen := 1, ctxs := [c] } }

/-- The state of that die in which the context's blob stands at 4,096 and the input block at 65,536. -/
def hsState (r : Req) (c : HsCtx) (t data : Bytes) (b : Die) : State :=
  { st (hsDie r c b) with mem := memWrites (memAt 65536 (stepBlock t data)) 4096 ((hsDie r c b).blobBytes c) }

/-- What `hsState` needs of its request for the premise StepInput, and of its context for OpenCtx. -/
abbrev StepFits (r : Req) (c : HsCtx) (t data : Bytes) (b : Die) : Prop :=
  RangesOk (hsDie r c b) r ∧ stepHeaderOk r = true ∧ (hsDie r c b).dmaOk r.tenant r.ctxAddr 1024 false = true ∧
    (hsDie r c b).dmaOk r.tenant r.ctxAddr 1024 true = true ∧ r.ctxAddr = 4096 ∧ r.inAddr = 65536 ∧ r.inLen = 8 + t.length + data.length ∧
    t.length < 2 ^ 32 ∧ data.length < 2 ^ 32 ∧ c.ctxId < 2 ^ 32 ∧ c.step < 2 ^ 32 ∧ c.tenant = r.tenant ∧ c.busy = 0 ∧ b.posted = []

theorem leNat_leBytes : ∀ (k n : Nat), n < 256 ^ k → leNat (leBytes k n) = n
  | 0, n, h => by simp [leBytes, leNat] at *; omega
  | k + 1, n, h => by
    have h1 : n / 256 < 256 ^ k := by rw [Nat.div_lt_iff_lt_mul (by omega)]; rw [Nat.pow_succ] at h; exact h
    simp only [leBytes, leNat, leNat_leBytes k _ h1, BitVec.toNat_ofNat]
    omega

/-- The input block lies where the descriptor says. -/
theorem hsState_input (r : Req) (c : HsCtx) (t data : Bytes) (b : Die) (h : StepFits r c t data b) :
    StepInput (hsState r c t data b) r t data := by
  obtain ⟨h1, h2, h3, h4, h5, h6, h7, h8, h9, -, -, -, -, hp⟩ := h
  have hp : (hsDie r c b).posted = [] := hp
  have hl := length_blob (hsDie r c b) c
  have hb : (stepBlock t data).length = 8 + t.length + data.length := by simp [stepBlock, length_leBytes]; omega
  have read (i n : Nat) (hi : i + n ≤ 8 + t.length + data.length) :
      dmaRead (hsState r c t data b).env (hsDie r c b) (65536 + i) n = ((stepBlock t data).drop i).take n := by
    rw [dmaRead, hp]
    change memReads (memWrites (memAt 65536 (stepBlock t data)) 4096 ((hsDie r c b).blobBytes c)) (65536 + i) n = _
    rw [memReads_memWrites_outside _ _ _ _ _ (by omega), memAt, memReads_memWrites_inside _ _ _ _ _ (by omega)]
  have e0 := read 0 4 (by omega)
  have e4 := read 4 4 (by omega)
  have e8 := read 8 t.length (by omega)
  have e9 := read (8 + t.length) data.length (by omega)
  refine ⟨h1, h2, by rw [h5], h3, h4, h7, ?_, ?_, ?_, ?_⟩
  · rw [h6]; change leNat (dmaRead _ (hsDie r c b) 65536 4) = _
    rw [e0]; simp only [stepBlock, List.drop_zero, List.append_assoc]
    rw [List.take_append_of_le_length (by simp [length_leBytes]), List.take_of_length_le (by simp [length_leBytes])]
    exact leNat_leBytes 4 _ (by omega)
  · rw [h6]; change leNat (dmaRead _ (hsDie r c b) (65536 + 4) 4) = _
    rw [e4]; simp only [stepBlock, List.append_assoc]
    rw [List.drop_append_of_le_length (by simp [length_leBytes]), List.drop_of_length_le (by simp [length_leBytes]), List.nil_append,
      List.take_append_of_le_length (by simp [length_leBytes]), List.take_of_length_le (by simp [length_leBytes])]
    exact leNat_leBytes 4 _ (by omega)
  · rw [h6]; change dmaRead _ (hsDie r c b) (65536 + 8) _ = _
    rw [e8, show stepBlock t data = (leBytes 4 t.length ++ leBytes 4 data.length) ++ (t ++ data) by simp [stepBlock],
      List.drop_left' (by simp [length_leBytes]), List.take_left' rfl]
  · rw [h6, Nat.add_assoc]; change dmaRead _ (hsDie r c b) (65536 + (8 + t.length)) _ = _
    rw [e9, stepBlock, List.drop_left' (by simp [length_leBytes]; omega), List.take_of_length_le (Nat.le_refl _)]

/-- The context is open and its blob is in place. -/
theorem hsState_open (r : Req) (c : HsCtx) (t data : Bytes) (b : Die) (h : StepFits r c t data b) :
    OpenCtx (hsState r c t data b) r c := by
  obtain ⟨-, -, -, -, h5, -, -, -, -, h10, h11, h12, h13, hp⟩ := h
  have hp : (hsState r c t data b).die.posted = [] := hp
  refine ⟨show 1 ≠ 0 by omega, h10, h11, ?_, h12, ?_, ?_⟩
  · change [c].find? (fun x => x.ctxId == c.ctxId) = some c; simp
  · simp [Die.ctxBusy, h13]
  · rw [h5, dmaRead, hp]
    change memReads (memWrites _ (4096 + 0) ((hsDie r c b).blobBytes c)) (4096 + 0) 1024 = _
    rw [memReads_memWrites_inside _ _ _ _ _ (by rw [length_blob])]
    simp [List.take_of_length_le, length_blob]; rfl

/-- StepInput and OpenCtx of such a state. -/
abbrev Ready (r : Req) (c : HsCtx) (t data : Bytes) (b : Die) : Prop :=
  StepInput (hsState r c t data b) r t data ∧ OpenCtx (hsState r c t data b) r c

theorem ready {α : Type} {l : List α} {r : α → Req} {c : α → HsCtx} {t data : α → Bytes} {b : α → Die}
    (h : ∀ x ∈ l, StepFits (r x) (c x) (t x) (data x) (b x)) : ∀ x ∈ l, Ready (r x) (c x) (t x) (data x) (b x) :=
  fun x hx => ⟨hsState_input _ _ _ _ _ (h x hx), hsState_open _ _ _ _ _ (h x hx)⟩

/-- A die with random bytes and the key objects `os`. -/
def base (os : List KeyObj) : Die := stocked 4096 (keyed os)

/-- A context of tenant 0: DTLS, and IKEv2. -/
def ctx0 : HsCtx := { HsCtx.fresh 5 0 1 0x11 0 [] with helloDone := true }
def ike0 : HsCtx := HsCtx.fresh 5 0 2 1 1 []

/-- What HandshakeOpens asks beside StepInput: the request accepted, a free context, and its random bytes there. -/
abbrev Opens (op g : Nat) (r : Req) : Prop :=
  Accepted (hsDie r ctx0 (base [])) 1 op r ∧ (hsDie r ctx0 (base [])).freeCtx = some 0 ∧
    (groupDraw g = 0 ∨ draws (hsDie r ctx0 (base [])) (groupDraw g) = true) ∧ shareLen g ≤ r.outLen ∧ r.worked = false ∧
    ((.hash 1 1 :: groupWork g).any fun w => (hsDie r ctx0 (base [])).coreless w.unit) = false ∧
    (hsDie r ctx0 (base [])).ntt.ctxs.find? (fun c => c.busy == r.rid) = none

/-- An HS_OPEN and an HS_RESUME over `data`. -/
def openReq (protocol suite group prf : Nat) (data : Bytes) : Req := hsReq 0x50 [] data [(56, 1, protocol), (57, 1, suite), (58, 1, group), (59, 1, prf)]
def resumeReq (suite group opts : Nat) (data : Bytes) : Req := hsReq 0x58 [] data [(56, 1, 1), (57, 1, suite), (58, 1, group), (61, 1, opts)]

/-- HandshakeOpens: HS_OPEN for DTLS refused and taken, at the ends of its suites and groups. -/
theorem witness_HandshakeOpens_dtls :
    (∀ x ∈ [(0x10, 1, 65), (0x11, 1, 65), (0x15, 0x13, 1665)], Ready (openReq 1 x.1 x.2.1 0 (zeros x.2.2)) ctx0 [] (zeros x.2.2) (base [])) ∧
    (∀ x ∈ [(0x10, 1, 65), (0x11, 1, 65), (0x15, 0x13, 1665)], let r := openReq 1 x.1 x.2.1 0 (zeros x.2.2)
      Opens 0x50 r.group r ∧ r.protocol = 1 ∧ (dtlsCombination r.suite r.group = false ↔ x.1 = 0x10) ∧ (zeros x.2.2).length = peerLen r.group) :=
  ⟨ready (by decide), by decide⟩

/-- HandshakeOpens: HS_OPEN for IKEv2 at the ends of its suites, groups and PRFs. -/
theorem witness_HandshakeOpens_ike :
    (∀ x ∈ [(1, 1, 1, 65), (4, 3, 3, 32)],
      Ready (openReq 2 x.1 x.2.1 x.2.2.1 (zeros (18 + x.2.2.2))) ctx0 [] (zeros (18 + x.2.2.2)) (base [])) ∧
    (∀ x ∈ [(1, 1, 1, 65), (4, 3, 3, 32)], let r := openReq 2 x.1 x.2.1 x.2.2.1 (zeros (18 + x.2.2.2))
      Opens 0x50 r.group r ∧ r.protocol = 2 ∧ r.suite = x.1 ∧ r.group = x.2.1 ∧ r.prf = x.2.2.1 ∧
        ikeOpenData (zeros (18 + x.2.2.2)) = some (zeros 16, [], [], zeros (peerLen r.group))) := ⟨ready (by decide), by decide⟩

theorem xorBytes_twice : ∀ a k : Bytes, a.length = k.length → xorBytes (xorBytes a k) k = a
  | [], [], _ => rfl
  | x :: a, y :: k, h => by
    have ih := xorBytes_twice a k (by simpa using h)
    simp only [xorBytes, List.zipWith_cons_cons] at ih ⊢
    rw [ih, BitVec.xor_assoc, BitVec.xor_self, BitVec.xor_zero]

/-- A ticket of suite 0x11 for tenant 0, of lifetime 1 minute, over a PSK of zeros. -/
def ticketHdr : Bytes := [1] ++ zeros 19
def ticketPlain : Bytes := zeros 48 ++ [0x11, 0, 0, 1] ++ zeros 24
def ticketText (d : Die) : Bytes := aeadText 1 (d.ticketKey 0) (zeros 12) ticketPlain
def ticketTag (d : Die) : Bytes := aeadTag 1 16 (d.ticketKey 0) (zeros 12) ticketHdr (ticketText d)
def ticket (d : Die) : Bytes := ticketHdr ++ (ticketText d ++ ticketTag d)

theorem length_ticketText (d : Die) : (ticketText d).length = 76 := by simp [ticketText, aeadText, xorBytes, ticketPlain, zeros]
theorem length_ticketTag (d : Die) : (ticketTag d).length = 16 := by simp [ticketTag, aeadTag]

/-- HandshakeOpens: that ticket opens. -/
theorem ticket_opens (d : Die) (he : d.get .NTT_TICKET_EPOCH_EPOCH = 0) (hm : d.get .KFT_MINUTE_MINUTE = 0) :
    d.openTicket 0 (ticket d) = some (0x11, zeros 32) := by
  have hl := length_ticketText d
  have hg := length_ticketTag d
  have hs : slice (ticket d) 20 92 = ticketText d ++ ticketTag d := by
    have hd : (ticket d).drop 20 = ticketText d ++ ticketTag d := rfl
    simp [slice, hd, hl, hg, List.take_of_length_le]
  have hn : slice (ticket d) 8 12 = zeros 12 := rfl
  have hh : (ticket d).take 20 = ticketHdr := rfl
  have ht : (ticketText d ++ ticketTag d).take ((ticketText d ++ ticketTag d).length - 16) = ticketText d :=
    List.take_left' (by simp [hl, hg])
  have hx : aeadText 1 (d.ticketKey 0) (zeros 12) (ticketText d) = ticketPlain := by
    have := xorBytes_twice ticketPlain ((List.range 76).map (Config.keystreamByte 1 (d.ticketKey 0) (zeros 12))) (by simp [ticketPlain, zeros])
    unfold aeadText
    rw [hl]
    exact this
  have hopen : gcmOpen (d.ticketKey 0) (zeros 12) ticketHdr (ticketText d ++ ticketTag d) = some ticketPlain := by
    unfold gcmOpen
    rw [ht, if_pos ⟨by simp [hl, hg], List.drop_left' rfl⟩, hx]
  unfold Die.openTicket
  rw [if_neg (by rw [he]; simp [show leAt (ticket d) 0 1 = 1 from rfl, show leAt (ticket d) 1 1 = 0 from rfl,
    show leAt (ticket d) 2 2 = 0 from rfl, show leAt (ticket d) 4 4 = 0 from rfl]), hn, hh, hs, hopen, hm]
  rfl

/-- HandshakeOpens: HS_RESUME without a share and with one, over a ticket that does not open and over one that does, for each suite. -/
theorem witness_HandshakeOpens_resume :
    (∀ x ∈ [(0x11, 0, 0, 144), (0x12, 2, 4, 257)], Ready (resumeReq x.1 x.2.1 x.2.2.1 (zeros x.2.2.2)) ctx0 [] (zeros x.2.2.2) (base [])) ∧
    (∀ x ∈ [(0x11, 0, 0, 144), (0x12, 2, 4, 257)], let r := resumeReq x.1 x.2.1 x.2.2.1 (zeros x.2.2.2)
      let group := if r.pskDhe then r.group else 0
      Opens 0x58 group r ∧ r.protocol = 1 ∧ dtlsCombination r.suite (if r.pskDhe then r.group else 1) = true ∧
        (zeros x.2.2.2).length = 112 + hashLen (suiteHash r.suite) + peerLen group ∧ (hsDie r ctx0 (base [])).key.esk.isSome = true ∧
        (hsDie r ctx0 (base [])).openTicket 0 ((zeros x.2.2.2).take 112) = none) :=
  ⟨ready (by decide), by decide⟩

/-- An HS_RESUME whose D is that ticket and the binder `b`. -/
def resumed (b : Bytes) : Req := resumeReq 0x11 0 0 (ticket live ++ b)

/-- HandshakeOpens: a resumption with the binder that its PSK gives. -/
theorem witness_HandshakeOpens_resumed :
    let d := hsDie (resumeReq 0x11 0 0 (zeros 144)) ctx0 (base [])
    let binder := hmac 1 (expandLabel 1 (deriveSecret 1 (earlySecret 1 (zeros 32)) "res binder" []) "finished" [] 32) (hashBytes 1 32 [])
    (ticket d ++ binder).length = 144 ∧ (ticket d ++ binder).take 112 = ticket d ∧ slice (ticket d ++ binder) 112 32 = binder ∧
      d.openTicket 0 (ticket d) = some (0x11, zeros 32) ∧ suiteHash 0x11 = 1 ∧ suiteHash 0x12 ≠ 1 := by
  intro d binder
  have hl : (ticket d).length = 112 := by simp [ticket, ticketHdr, zeros, length_ticketText, length_ticketTag]
  have hb : binder.length = 32 := by simp [binder, hmac, hashLen]
  refine ⟨by simp [hl, hb], List.take_left' hl, ?_, ticket_opens d rfl rfl, rfl, by decide⟩
  unfold slice
  rw [List.drop_left' hl, List.take_of_length_le (by omega)]
  simp [hb]

/-- HandshakeOpens: a step given again after its work, with the context it has taken up; no free context; no core in service. -/
theorem witness_HandshakeOpens_again :
    (let c := { ctx0 with busy := 1 }
     (hsDie { req 0x50 [] with worked := true } c (base [])).ntt.ctxs.find? (fun c => c.busy == 1) = some c) ∧
    (∀ d : Die, d.ntt.ctxs.length = ctxEntries → d.freeCtx = none) ∧
    (let d := withRegs ((List.range 24).map fun c => (.CON_CORE_STATUS_STATE, c, 0, 1)) live
     ((groupWork 1).any fun w => d.coreless w.unit) = true) ∧
    (let r := { hsReq 0x57 [] [] [] with worked := false }
     r.inLen = 8 ∧ r.worked = false) ∧ groupWork 1 ≠ [] :=
  ⟨by decide, fun d h => by unfold Die.freeCtx; rw [if_pos (by omega)], by decide, by decide, by decide⟩

/-- HandshakeSteps, ADDKE: out of order on a DTLS context and after two exchanges; the second exchange of either group. -/
theorem witness_HandshakeSteps_addke :
    (∀ c ∈ [ctx0, { ike0 with addke := 2 }], Ready (hsReq 0x51 [] [] []) c [] [] (base []) ) ∧
    (∀ x ∈ [(0x20, 1184), (0x21, 1568)],
      Ready (hsReq 0x51 [] (zeros x.2) [(58, 1, x.1)]) { ike0 with addke := 1 } [] (zeros x.2) (base [])) ∧
    (∀ x ∈ [(0, 0), (0x20, 1184), (0x21, 1568)], let r := hsReq 0x51 [] (zeros x.2) [(58, 1, x.1)]
      Accepted (hsDie r { ike0 with addke := 1 } (base [])) 1 0x51 r ∧ r.group = x.1 ∧ (zeros x.2).length = peerLen r.group ∧
        shareLen r.group ≤ r.outLen ∧ draws (hsDie r { ike0 with addke := 1 } (base [])) (groupDraw r.group) = true ∧
        (groupWork r.group).any (fun w => (hsDie r { ike0 with addke := 1 } (base [])).coreless w.unit) = false) :=
  ⟨ready (by decide), ready (by decide), by decide⟩

/-- HandshakeSteps, PROTECT and UNPROTECT on DTLS contexts: before the ServerHello and after it, a record that parses and one that does not. -/
theorem witness_HandshakeSteps_records :
    (∀ x ∈ [(0x52, false, zeros 1), (0x52, true, zeros 1), (0x53, true, 0x20#8 :: zeros 7), (0x53, true, zeros 8)],
      Ready (hsReq x.1 [] x.2.2 []) { ctx0 with helloDone := x.2.1 } [] x.2.2 (base [])) ∧
    (∀ x ∈ [(0x52, zeros 1), (0x53, 0x20#8 :: zeros 7), (0x53, zeros 8)], let r := hsReq x.1 [] x.2 []
      Accepted (hsDie r ctx0 (base [])) 1 x.1 r ∧ x.2.length ≤ r.outLen ∧ x.2 ≠ [] ∧
        (ctx0.protectDtls ((hsDie r ctx0 (base [])).recCfg r) (zeros 1)).length ≤ r.outLen ∧
        ((parseDtls x.2 ((hsDie r ctx0 (base [])).recCfg r).cidLen).isSome = true ↔ x.2 = 0x20#8 :: zeros 7) ∧
        ∀ h, parseDtls x.2 ((hsDie r ctx0 (base [])).recCfg r).cidLen = some h → x.2.length - h.len - suiteTag 0x11 - 1 ≤ r.outLen) :=
  ⟨ready (by decide), fun x hx => by fin_cases hx <;> refine ⟨by decide, by decide, by decide, by decide, by decide, ?_⟩ <;> intro h hh <;> exact Nat.le_trans (Nat.le_trans (Nat.sub_le _ _) (Nat.le_trans (Nat.sub_le _ _) (Nat.sub_le _ _))) (by decide)⟩

/-- HandshakeSteps, PROTECT and UNPROTECT on IKEv2 contexts: a message of a header alone, and one with a body. -/
theorem witness_HandshakeSteps_messages :
    (∀ x ∈ [(0x52, 0), (0x52, 16), (0x53, 0), (0x53, 16)],
      Ready (hsReq x.1 [] (leBytes 2 32 ++ zeros (32 + x.2)) []) ike0 [] (leBytes 2 32 ++ zeros (32 + x.2)) (base [])) ∧
    (∀ x ∈ [(0x52, 0), (0x52, 16), (0x53, 0), (0x53, 16)], let r := hsReq x.1 [] (leBytes 2 32 ++ zeros (32 + x.2)) []
      Accepted (hsDie r ike0 (base [])) 1 x.1 r ∧ ikeParts (leBytes 2 32 ++ zeros (32 + x.2)) = some (zeros 32, zeros x.2) ∧
        x.2 + 25 ≤ r.outLen ∧ draws (hsDie r ike0 (base [])) 8 = true) := ⟨ready (by decide), by decide⟩

/-- The use of the key at handle 0 is counted in `hsState`, whatever host memory holds. -/
def hsCounts (r : Req) (c : HsCtx) (b : Die) (usage : Nat) : Bool :=
  match (hsDie r c b).takeUse (st (hsDie r c b)).env r 0 usage with | .counted _ => true | _ => false

/-- HandshakeSteps, SIGN: a context that may sign and one that may not, one without its ServerHello, the first and the last algorithm, and
an IKEv2 context that has verified its peer. -/
theorem witness_HandshakeSteps_sign :
    (∀ x ∈ [(1, 0x10, 1), (8, 0x21, 0x13)], ∀ c ∈ [ctx0, { ctx0 with finished := true }, { ctx0 with helloDone := false }, ike0],
      Ready (hsReq 0x54 [] [] [(60, 1, x.1)]) c [] [] (base [{ keyObj 0 x.2.1 63 0 with param := x.2.2 }])) ∧
    (∀ x ∈ [(1, 0x10, 1), (8, 0x21, 0x13)], let o := { keyObj 0 x.2.1 63 0 with param := x.2.2 }
      let r := hsReq 0x54 [] [] [(60, 1, x.1)]
      let d := hsDie r ctx0 (base [o])
      Accepted d 1 0x54 r ∧ r.sigalg = x.1 ∧ ctx0.append [] = some ctx0 ∧ (d.workKey r fun d => d.checkKey 0 0 (signFits x.1) useSign) = .ok o ∧
        sigRoom x.1 (ceilDiv o.len 8) ≤ r.outLen ∧ draws d (sigDraw x.1) = true ∧ hsCounts r ctx0 (base [o]) useSign = true) ∧
    (ctx0.maySign = true ∧ { ctx0 with finished := true }.maySign = false ∧ ike0.maySign = false ∧ { ike0 with verified := true }.maySign = true ∧
      { ctx0 with helloDone := false }.append [] = none ∧ { ctx0 with helloDone := false }.maySign = true) ∧
    (∀ n ∈ [4, 260], let r := hsReq 0x54 [] (zeros n) [(60, 1, 1)]
      Ready r { ike0 with verified := true } [] (zeros n) (base [keyObj 0 0x10 63 0])) :=
  ⟨fun x hx => ready (by revert x; decide), by decide, by decide, ready (by decide)⟩

/-- The data of a HS_VERIFY_PEER: two signatures of `n` bytes under the algorithm `a`. -/
def verifyData (a n : Nat) : Bytes := zeros 12 ++ leBytes 2 n ++ leBytes 2 n ++ leBytes 1 a ++ zeros (3 + 2 * n)

set_option maxRecDepth 100000 in
/-- HandshakeSteps, VERIFY_PEER: before the context is finished and after it, with the first and the last algorithm. -/
theorem witness_HandshakeSteps_verify :
    (∀ x ∈ [(1, 0x11, 1, 8), (8, 0x22, 0x13, 4627)], Ready (hsReq 0x55 [0] (verifyData x.1 x.2.2.2) [(60, 1, x.1)]) { ctx0 with finished := true } [0]
      (verifyData x.1 x.2.2.2) (base [{ keyObj 0 x.2.1 63 0 with param := x.2.2.1 }])) ∧
    (∀ n ∈ [1, 8], Ready (hsReq 0x55 [] [] [(60, 1, n)]) ctx0 [] [] (base [])) ∧
    (∀ x ∈ [(1, 0x11, 1, 8), (8, 0x22, 0x13, 4627)], let o := { keyObj 0 x.2.1 63 0 with param := x.2.2.1 }
      let c := { ctx0 with finished := true }
      let data := verifyData x.1 x.2.2.2
      let r := hsReq 0x55 [0] data [(60, 1, x.1)]
      let d := hsDie r c (base [o])
      Accepted d 1 0x55 r ∧ r.sigalg = x.1 ∧ leAt data 16 1 = x.1 ∧ verifyLengthsOk x.1 true { t := [0], data } = true ∧ leAt data 17 1 = 0 ∧
        (d.workKey r fun d => d.checkKey 0 0 (verifyFits x.1) useVerify) = .ok o ∧ sigLenOk x.1 (leAt data 12 2) (some (ceilDiv o.len 8)) = true ∧ hsCounts r c (base [o]) useVerify = true) :=
  ⟨ready (by decide), ready (by decide), by decide⟩

/-- HandshakeSteps: the certificate key whose extension fails its check, and keys without an extension. -/
theorem witness_HandshakeSteps_peer : (keyObj 0 0x11 63 0).extended = false ∧ extObj.extended = true ∧
    ({ extObj with material := zeros 8 ++ leBytes 4 (2 ^ 20) ++ zeros 84 } : KeyObj).extLen = 2 ^ 20 := by decide

/-- HandshakeSteps, FINISHED and FREE: out of order in each way, and in order. -/
theorem witness_HandshakeSteps_finished :
    (∀ op ∈ [0x56, 0x5F], ∀ c ∈ [ctx0, ike0, { ctx0 with finished := true }, { ctx0 with signed := true }, { ctx0 with resumed := true }],
      Ready (hsReq op [] [] []) c [] [] (base [])) ∧
    (∀ op ∈ [0x56, 0x5F], let r := hsReq op [] [] []
      Accepted (hsDie r { ctx0 with signed := true } (base [])) 1 op r) ∧
    (ctx0.verifyData ctx0.hsServer).length ≤ (hsReq 0x56 [] [] []).outLen :=
  ⟨fun op ho => ready (by revert op; decide), by decide, by decide⟩

/-- HandshakeSteps, FREE: the blob of an earlier step of its context, in host memory. -/
theorem witness_HandshakeSteps_free (b : Bytes) (h : b.length = 1024) (d : Die) (hp : d.posted = []) :
    dmaRead { (st d).env with mem := memWrites [] 4096 b } d 4096 1024 = b := by
  rw [dmaRead, hp]
  change memReads (memWrites [] (4096 + 0) b) (4096 + 0) 1024 = b
  rw [memReads_memWrites_inside _ _ _ _ _ (by omega), List.drop_zero, List.take_of_length_le (by omega)]

/-- HandshakeEnds, installs: a context that is not finished, one that is, and an IKEv2 one at the ends of its data. -/
theorem witness_HandshakeEnds_install :
    (∀ fin ∈ [false, true], Ready (hsReq 0x57 [] (zeros 45) []) { ctx0 with finished := fin } [] (zeros 45) (base [])) ∧
    (∀ x ∈ [(1, 0, 0), (4, 15, 3)], ∀ v ∈ [false, true], Ready (hsReq 0x57 [] (zeros 8 ++ leBytes 1 x.1 ++ leBytes 1 x.2.1 ++ leBytes 1 x.2.2) [])
      { ike0 with verified := v, signed := v } [] (zeros 8 ++ leBytes 1 x.1 ++ leBytes 1 x.2.1 ++ leBytes 1 x.2.2) (base [])) ∧
    dtlsInstallOk (zeros 45) false = true ∧ (let r := hsReq 0x57 [] (zeros 45) []
      Accepted (hsDie r ctx0 (base [])) 1 0x57 r ∧ r.wantTicket = false ∧ 16 ≤ r.outLen ∧ r.fn? ≠ none ∧
        ike0.childNonces (zeros 8 ++ leBytes 1 1 ++ zeros 2) = some []) ∧
    (∀ op ∈ [0x57, 0x59], let r := { hsReq op [] (zeros 45) [] with origin := .ring 1 0 0 }
      Accepted (withReq r (base [])) 1 op r ∧ r.fn? = none) :=
  ⟨ready (by decide), fun x hx => ready (by revert x; decide), by decide, by decide, by decide⟩

/-- HandshakeEnds, key updates: a context that is not retained; one that is, for its session and for another handle, in each direction. -/
theorem witness_HandshakeEnds_keyupdate :
    (∀ ret ∈ [false, true], ∀ x ∈ [(1, 0), (2, 0), (1, 1)], Ready (hsReq 0x59 [] (leBytes 8 x.1 ++ leBytes 1 x.2) [])
      { ctx0 with retained := ret, handle := 1 } [] (leBytes 8 x.1 ++ leBytes 1 x.2) (withSess sess (base []))) ∧
    (let c := { ctx0 with retained := true, handle := 1 }
     let r := hsReq 0x59 [] (leBytes 8 1 ++ leBytes 1 1) []
     let d := hsDie r c (withSess sess (base []))
     Accepted d 1 0x59 r ∧ r.fn? ≠ none ∧ d.unserved (handleHome 1) = false ∧ d.serverOf (handleHome 1) = d.pos ∧
       d.bucketPoisoned (d.bucketOf sess) = false ∧ d.heldFor (d.bucketOf sess) 1 = false ∧ sess.inFlight = 0 ∧
       (sess.rekey true (leBytes 44 1)).wrKey ≠ sess.wrKey ∧ (sess.rekey false (leBytes 44 1)).rdKey ≠ sess.rdKey ∧
       d.kft.sessions.find? (fun x => x.matches 0 (.handle 1) && x.deleting.isNone) = some sess) ∧
    (∀ ret ∈ [false, true], let c := { ctx0 with retained := ret }
      let d : Die := { hsDie (req 0 []) c (base []) with nowMs := 2 ^ 40 }
      d.ctx? 5 = some c ∧ d.ctxBusy c = false ∧ Settled (st d) ∧ c.lastMs + d.ctxTime ret ≤ d.nowMs ∧
        ({ d with nowMs := 0 } : Die).nowMs < c.lastMs + d.ctxTime ret) :=
  ⟨fun ret h => ready (by revert ret; decide), by decide, by decide⟩

/-- HandshakeEnds, learning: a session without identifier stays on its die, whose table has no room, a lock, or an interlock. -/
theorem witness_HandshakeEnds_learn :
    (let d := keyed []
     let x := { sess with ident := [], idLen := 0, proto := 2 }
     d.learnHome x = d.pos ∧ d.unserved d.pos = false ∧ d.serverOf d.pos = d.pos) ∧
    (let d := keyed []
     let x := { sess with ident := [], idLen := 0, proto := 2 }
     (match d.learn (st d).env x d.pos 1 with | .refused _ st _ => decide (st = .limitReached) | _ => false) = true) := by decide

/-- A state in Mission with request `r` of the physical function, its input `b` at 65,536, and the ceremony `c`. -/
def cerState (r : Req) (b : Bytes) (c : Option Ceremony) : State :=
  let d := withReq r (stocked 4096 ((keyed []).set .LCS_STATE_STATE 4))
  { st { d with key := { d.key with ceremony := c, threshold := 2 } } with mem := memAt 65536 b }

/-- A key-management request of `op` with `n` bytes of input at 65,536. -/
def cerReq (op n : Nat) : Req := req op [(16, 8, 65536), (24, 8, n), (40, 8, 4096)]

/-- An open ceremony of kind 1, and a token of algorithm `alg` for it. -/
def cer0 : Ceremony := { serial := 1, kind := 1, digest := zeros 48, nonce := zeros 32, request := [], approved := 1 }
def token (alg : Nat) : Bytes := leBytes 4 tokenMagic ++ leBytes 1 1 ++ leBytes 1 1 ++ leBytes 1 alg ++ zeros 1

/-- Ceremonies: statements over nonces of 8 and 64 bytes, on a key too; their work, its draw and their room. -/
theorem witness_Ceremonies_attest :
    (∀ n ∈ [8, 64], ∀ f ∈ [0, 2], let r := cerReq 0x69 (4 + n)
      let s := cerState r (leBytes 1 f ++ leBytes 1 n) none
      let b := dmaRead s.env s.die r.inAddr r.inLen
      RangesOk s.die r ∧ keyHeaderOk r false false false false = true ∧ Accepted s.die 1 0x69 r ∧ r.inLen = 4 + leAt b 1 1 ∧ leAt b 0 1 = f ∧
        r.fn? = some 0 ∧ s.die.isLead = true ∧ s.die.key.esk.isSome = true ∧ draws s.die statementDraw = true ∧
        s.die.coreless .con = false ∧ s.die.coreless .ntt = false) ∧
    (let d := keyed [keyObj 0 1 63 0]
     (d.loadKey (st d).env 0 0).2 = none ∧ d.readKey 0 0 = .ok (keyObj 0 1 63 0) ∧ d.unreadable (st d).env (keyObj 0 1 63 0) = none) :=
  ⟨by decide, by decide⟩

/-- Ceremonies: one opened, the first owner key, and one too many. -/
theorem witness_Ceremonies_begin :
    (∀ c ∈ [none, some cer0], ∀ k ∈ [1, 5], let r := cerReq 0x6A 8
      let s := cerState r (leBytes 1 1 ++ leBytes 1 k) c
      let b := dmaRead s.env s.die r.inAddr r.inLen
      RangesOk s.die r ∧ keyHeaderOk r false false false false = true ∧ r.fn? = some 0 ∧ s.die.isLead = true ∧ Accepted s.die 1 0x6A r ∧
        96 ≤ r.outLen ∧ cerRequestOk b = decide (k = 1) ∧ cerAllowed (s.die.get .LCS_STATE_STATE) 1 = true ∧ s.die.firstOwner = false ∧ draws s.die 32 = true) ∧
    (let d := (keyed []).set .LCS_STATE_STATE 3
     d.firstOwner = true ∧ cerAllowed 3 5 = true) := ⟨by decide, by decide⟩

/-- Ceremonies: tokens of each length, for this ceremony and for another, before and after their work; a cancel and a lapse. -/
theorem witness_Ceremonies_tokens :
    (∀ x ∈ [(1, 184), (2, 3397), (3, 4811)], ∀ w ∈ [false, true], let r := { cerReq 0x6B x.2 with worked := w }
      let s := cerState r (token x.1) (some cer0)
      RangesOk s.die r ∧ keyHeaderOk r false false false false = true ∧ Accepted s.die 1 0x6B r ∧ r.inLen = x.2 ∧ r.fn? = some 0 ∧
        s.die.isLead = true ∧ s.die.performing = false ∧ s.die.key.dealing = none ∧ s.die.cerNeeds 1 = 2 ∧
        (tokenWork x.1).any (fun w => s.die.coreless w.unit) = false ∧ tokenWork x.1 ≠ []) ∧
    (∀ x ∈ [(1, 184), (2, 3397), (3, 4811)], let s := cerState (cerReq 0x6B x.2) (token x.1) (some cer0)
      let b := dmaRead s.env s.die 65536 x.2
      leAt b 0 4 = tokenMagic ∧ leAt b 4 1 = 1 ∧ leAt b 7 1 = 0 ∧ tokenLen (leAt b 6 1) = some x.2 ∧ slice b 8 48 = cer0.digest ∧ slice b 56 32 = cer0.nonce ∧
        slice b 8 48 ≠ { cer0 with digest := leBytes 48 1 }.digest) ∧
    (let r := cerReq 0x6C 0
     let s := cerState r [] (some cer0)
     RangesOk s.die r ∧ keyHeaderOk r false false false false = true ∧ Accepted s.die 1 0x6C r ∧ s.die.get .KEY_CEREMONY_STATUS_REMAINING_S = 0 ∧ Settled s) :=
  ⟨by decide, by decide, by decide⟩
/-! ## Witnesses: epochs, dirty logging, the steward, the Tin image -/

/-- The live die as the lead, with an image that delegates the operating point, and `n` evaluations in a row for handshakes. -/
def delegating (n : Nat) : Die :=
  { live with tin := { live.tin with running := [{ type := 6, inst := 0, body := [0, 1] }, { type := 4, inst := 0, body := [0, 0, 1, 4] }] }
              ten := { live.ten with evalLane := n, laneUse := 90 } }

/-- Epochs: an idle state, a boundary, an active function with each bucket, a steward, and evaluations that do and do not change the point. -/
theorem witness_Epochs :
    (Settled (st live) ∧ (st live).pending = [] ∧ live.clk.booted = true ∧ live.wdogRuns = true ∧ live.clk.stable = true ∧ live.parked = false ∧
      ¬(live.clk.phase = .stopped ∨ live.tmp.backup.active = true) ∧ { live.evr with hoursMs := 359999 }.hoursMs + 1 = 360000) ∧
    (live.getAt .TEN_STATE_STATE 0 = 2 ∧ live.tin.atEpoch = [] ∧ (delegating 0).tin.running ≠ [] ∧
      (live.updCtl 0 fun c => { c with debt := [5] }).ctl 0 = { live.ctl 0 with debt := [5] }) ∧
    (∀ n ∈ [1, 2], (delegating n).isLead = true ∧ (delegating n).delegated = true ∧ (delegating n).ten.lastOpChange = 0 ∧
      (delegating n).get .PWR_OPPOINT_POINT = 0 ∧ ((delegating n).ten.evaluate ((delegating n).conWaiting (st (delegating n)).env false + [0, 3].sum) ((delegating n).ten.ensembleUse [90, 91])).choice = if n = 2 then some 1 else none) ∧
    (let r := req 0x10 []
     let s := st (withReq r (withRegs [(.TEN_STATE_STEWARD, 0, 0, 1)] live))
     s.die.req? 1 = some r ∧ r.stage = .fetched ∧ s.die.startable r = true ∧ s.die.untranslated r = true) := by decide

/-- A logging request of `op` for function 1, with its bitmap at 4,096, and a state in which that function logs or not. -/
def logReq (op bitmap len : Nat) : Req := req op [(16, 8, bitmap), (24, 8, 0), (32, 8, len), (56, 1, 1)]
def logState (r : Req) (on : Nat) : State := st (withReq r (withRegs [(.TEN_STATE_LOGGING, 1, 0, on)] live))

/-- DirtyLogging: each request for a function that logs and for one that does not; ranges of nothing, of one unit and of the largest length. -/
theorem witness_DirtyLogging :
    (∀ on ∈ [0, 1], ∀ x ∈ [(0xF0, 4096, 0), (0xF0, 4096, 2 ^ 21), (0xF1, 4096, 0), (0xF2, 0, 0)], let r := logReq x.1 x.2.1 x.2.2
      let s := logState r on
      r.fn? = some 0 ∧ r.zeroBytes 57 64 = true ∧ r.bitmap % 4096 = 0 ∧ r.logFn ≠ 0 ∧ s.die.getAt .TEN_STATE_STATE r.logFn ≠ 0 ∧
        s.die.getAt .TEN_STATE_STATE r.logFn ≠ 6 ∧ Settled s ∧ Accepted s.die 1 x.1 r) ∧
    (∀ len ∈ [0, 2 ^ 21, 2 ^ 42], let r := logReq 0xF0 4096 len
      let s := logState r 0
      r.zeroBytes 40 56 = true ∧ r.rangeBase % 2 ^ 21 = 0 ∧ r.rangeLen % 2 ^ 21 = 0 ∧ r.rangeLen ≤ 2 ^ 42 ∧
        s.die.dmaOk r.tenant r.bitmap (len / 32768) false = true ∧ s.die.dmaOk r.tenant r.bitmap (len / 32768) true = true) ∧
    ((logReq 0xF1 4096 0).zeroBytes 24 56 = true ∧ (logReq 0xF2 0 0).zeroBytes 24 56 = true ∧ (logReq 0xF2 0 0).bitmap = 0) ∧
    ((live.updCtl 1 fun c => { c with marks := [0, 511] }).ctl 1).marks = [0, 511] := ⟨by decide, by decide, by decide, by decide⟩

/-- A Tin request of the lead die with `n` bytes of input at 65,536, and its state with the image `img` staged. -/
def tinReq (op n : Nat) : Req := req op [(16, 8, 65536), (24, 8, n), (40, 8, 48)]
def tinState (r : Req) (n : Nat) (img : Option TinImage) : State :=
  let d := withReq r (live.set .LCS_STATE_STATE 0)
  { st { d with tin := { d.tin with staged := img } } with mem := memAt (65536 + 8) (leBytes 4 n) }

/-- TinRequests: images and deltas of their largest lengths; an activation with nothing staged and with an image; a discard. -/
theorem witness_TinRequests :
    (∀ x ∈ [(0xF8, 786432), (0xFA, 65536)], let r := tinReq x.1 x.2
      let s := tinState r x.2 none
      Settled s ∧ r.fn? = some 0 ∧ s.die.isLead = true ∧ r.handle = 0 ∧ RangesOk s.die r ∧ Accepted s.die 1 x.1 r) ∧
    (∀ x ∈ [(0xF8, 786432), (0xFA, 65536)], let r := tinReq x.1 x.2
      let s := tinState r x.2 none
      s.die.ownerPair.isSome = true ∧ leNat (dmaRead s.env s.die (r.inAddr + 8) 4) = x.2 ∧ r.zeroBytes 56 64 = true ∧ r.outLen = 48) ∧
    (∀ op ∈ [0xF8, 0xFA], let r := tinReq op 12
      let s := tinState r 12 none
      let d0 := s.die.setStage 1 .running
      RangesOk s.die r ∧ Accepted s.die 1 op r ∧ r.inLen = leAt (dmaRead s.env d0 r.inAddr r.inLen) 8 4 ∧ d0.ownerPair.isSome = true ∧
        s.die.tin.op = none ∧ 48 ≤ r.outLen ∧ r.zeroBytes 56 64 = true ∧
        d0.frameFault (if op = 0xF8 then 1 else 2) (dmaRead s.env d0 r.inAddr r.inLen) = some (0x20, 0xFF)) ∧
    (∀ op ∈ [0xF9, 0xFB], ∀ img ∈ [none, some { serial := 0, sections := [], bytes := [] }, some { serial := 5, sections := [], bytes := [] }],
      let r := tinReq op 0
      let s := tinState r 0 img
      Settled s ∧ RangesOk s.die r ∧ Accepted s.die 1 op r ∧ r.inLen = 0 ∧ r.zeroBytes 56 64 = true ∧ 48 ≤ r.outLen ∧ r.fn? = some 0 ∧
        s.die.isLead = true ∧ r.handle = 0 ∧ s.die.tin.op = none ∧
        (s.die.tinVote 0xF9 (leBytes 4 0) = none ↔ img = some { serial := 0, sections := [], bytes := [] })) :=
  ⟨by decide, by decide, by decide, by decide⟩

/-- TinRequests: an ensemble of one die and of four; the last answer awaited; the running request; a live difference and another. -/
theorem witness_TinRequests_others :
    live.otherDies = [] ∧ (withRegs [(.ENS_STATUS_SIZE, 0, 0, 4), (.ENS_SERVE_SERVER, 0, 0, 0x3210)] live).otherDies = [1, 2, 3] ∧
    (let x := { tinOp 1 0xF8 [] with wait := [3] }
     let d := withReq { tinReq 0xF8 12 with stage := .running } live
     ({ d with tin := { d.tin with op := some x } } : Die).tin.op = some x ∧ d.tinReq x = some { tinReq 0xF8 12 with stage := .running }) ∧
    liveDifference [] [] = true ∧ liveDifference [] [{ type := 3, inst := 0, body := [] }] = false ∧
    (let d : Die := { live with tin := { live.tin with staged := some { serial := 0, sections := [{ type := 3, inst := 0, body := [] }], bytes := [] } } }
     d.activatesLive = false) ∧ (member 1).isLead = false := by decide
/-! ## Witnesses: the domain -/

/-- A domain request of `op` and `kind` with `n` bytes of input at 65,536. -/
def envReq (op kind n : Nat) : Req := req op [(16, 8, 65536), (24, 8, n), (40, 8, 4096), (56, 1, kind)]

/-- A lead die in Mission of an ensemble with (1) or without (0) a domain root, in slot 3, with request `r` and key objects `os` and admission `a`. -/
def envDie (r : Req) (root : Nat) (os : List KeyObj) (a : Option Admission) : Die :=
  let d := withReq r (stocked 4096 (withRegs [(.LCS_STATE_STATE, 0, 0, 4), (.ENS_DOMAIN_STATUS_ROOT, 0, 0, root)] (keyed os)))
  { d with ens := { d.ens with dxk := some (zeros 32), dtk := some (zeros 32), slot := 3, admission := a } }

/-- Its state, with the bytes `b` at 65,536. -/
def envState (r : Req) (root : Nat) (os : List KeyObj) (a : Option Admission) (b : Bytes) : State := { st (envDie r root os a) with mem := memAt 65536 b }

/-- An admission whose root envelope is `b`. -/
def adm (b : Option Bytes) : Admission := { identity := zeros 48, slot := 3, request := [], root := b, rootMs := 0 }

/-- The premises that the domain requests share. -/
abbrev EnvPremise (s : State) (op : Nat) (r : Req) : Prop :=
  Accepted s.die 1 op r ∧ r.fn? = some 0 ∧ s.die.isLead = true ∧ r.handle = 0 ∧ RangesOk s.die r

/-- MakingEnvelopes: a join request with and without a root, a root envelope there and not, kinds that are not made, and the report. -/
theorem witness_MakingEnvelopes :
    (∀ root ∈ [0, 1], let r := envReq 0xFC 2 0
      let s := envState r root [] none []
      EnvPremise s 0xFC r ∧ r.zeroBytes 57 64 = true ∧ s.die.get .LCS_STATE_STATE = 4 ∧ (s.die.get .ENS_DOMAIN_STATUS_ROOT = 0 ↔ root = 0) ∧
        r.byte 56 = 2 ∧ r.inLen = 0 ∧ r.worked = false ∧ draws s.die (16 + statementDraw) = true ∧ s.die.coreless .con = false ∧
        s.die.coreless .ntt = false ∧ ({ r with worked := true } : Req).worked = true) ∧
    (∀ b ∈ [some (zeros 4096), some (zeros 4097), none], let r := envReq 0xFC 3 0
      let s := envState r 1 [] (some (adm b)) []
      EnvPremise s 0xFC r ∧ s.die.lapseAdmission.ens.admission.bind Admission.root = b) ∧
    (∀ kind ∈ [0, 1, 5, 255], let r := envReq 0xFC kind 0
      EnvPremise (envState r 1 [] none []) 0xFC r ∧ (r.byte 56 < 2 ∨ 4 < r.byte 56)) ∧
    (let r := { envReq 0xFC 2 0 with tenant := 1, origin := .pair 1 0 0 }
     Accepted (envState r 0 [] none []).die 1 0xFC r ∧ r.fn? ≠ some 0) ∧
    (let r := envReq 0xFC 2 0
     let d := withReq r (member 1)
     Accepted d 1 0xFC r ∧ d.isLead = false) ∧
    (let r := envReq 0xFE 0 0
     EnvPremise (envState r 1 [] none []) 0xFE r ∧ r.zeroBytes 56 64 = true ∧ 1536 ≤ r.outLen) := ⟨by decide, by decide, by decide, by decide, by decide, by decide⟩

/-- MakingEnvelopes, KEY: an object that may not travel and one that may, and a slot with a quarantined member. -/
theorem witness_MakingEnvelopes_key :
    (∀ a ∈ [0, 2], let r := envReq 0xFC 4 16
      let s := envState r 1 [keyObj 0 1 63 a] none (zeros 4 ++ leBytes 2 1)
      let b := dmaRead s.env s.die r.inAddr 16
      EnvPremise s 0xFC r ∧ r.byte 56 = 4 ∧ r.zeroBytes 57 64 = true ∧ r.inLen = 16 ∧ leAt b 10 6 = 0 ∧ s.die.get .ENS_DOMAIN_STATUS_ROOT ≠ 0 ∧
        s.die.ens.dxk = some (zeros 32) ∧ s.die.slotQuarantined (leAt b 4 2) = false ∧ s.die.servesSlice (leAt b 0 2 % 2048 / 256) = true ∧
        (s.die.loadKey s.env (leAt b 0 2 % 2048) (leAt b 2 2)).2 = none ∧ s.die.readKey (leAt b 0 2 % 2048) (leAt b 2 2) = .ok (keyObj 0 1 63 a) ∧
        (keyObj 0 1 63 2).exportable = true ∧ (keyObj 0 1 63 2).volatile = false ∧ (keyObj 0 1 63 2).uses = uncounted ∧ draws s.die 12 = true) ∧
    (let r := envReq 0xFC 4 16
     let s := envState r 1 [] none (leBytes 2 256 ++ zeros 2 ++ leBytes 2 1)
     s.die.servesSlice (leAt (dmaRead s.env s.die r.inAddr 16) 0 2 % 2048 / 256) = false ∧ s.die.readKey 0 0 = .bad .noSession 4) ∧
    (let d := envDie (envReq 0xFC 4 16) 1 [] none
     let m : Member := { tget d.ens.members 8 with quarantined := true }
     ({ d with ens := { d.ens with members := tput d.ens.members 8 m } } : Die).slotQuarantined 1 = true) := ⟨by decide, by decide, by decide⟩

/-- The header of an envelope of `kind` and `n` bytes for this domain and slot, at epoch 0. -/
def envBytes (kind n : Nat) : Bytes := leBytes 4 envMagic ++ leBytes 1 1 ++ leBytes 1 kind ++ zeros 2 ++ leBytes 4 n ++ zeros 36 ++ leBytes 2 3

/-- TakingEnvelopes: each kind at the ends of its lengths, with a root and without. -/
theorem witness_TakingEnvelopes :
    (∀ root ∈ [0, 1], ∀ x ∈ [(1, 224), (2, 1730), (3, 1841), (4, 204), (5, 168), (0, 0), (6, 0)], let r := envReq 0xFD 0 x.2
      let s := envState r root [] none (envBytes x.1 x.2)
      EnvPremise s 0xFD r ∧ r.zeroBytes 56 64 = true ∧ r.inLen = x.2) ∧
    (∀ x ∈ [(1, 224), (2, 1730), (3, 1841), (4, 204), (5, 168)], let r := envReq 0xFD 0 x.2
      let s := envState r 1 [] none (envBytes x.1 x.2)
      envKind (dmaRead s.env s.die r.inAddr (min r.inLen 65536)) = x.1) ∧
    (∀ a ∈ [none, some (adm none)], (envDie (envReq 0xFD 0 1730) 1 [] a).lapseAdmission.ens.admission = a ∧
      (envDie (envReq 0xFD 0 1730) 1 [] a).key.ceremony = none ∧
      (envDie (envReq 0xFD 0 1730) 1 [] a).lapseAdmission.ens.joinSerial = none) ∧
    (let d := envDie (envReq 0xFD 0 1841) 0 [] none
     let d1 := { d with ens := { d.ens with joinSerial := some (zeros 16) } }
     d1.get .RNG_STATUS_STATE = 1 ∧ d1.key.dealing = none ∧ 32 * (thresholdOf d1.size - 1) ≤ d1.rng.feBytes ∧ d.ens.joinSerial = none ∧
       d1.lapseAdmission.ens.joinSerial ≠ none) ∧
    (let s := envState (envReq 0xFD 0 204) 1 [] none (envBytes 4 204)
     let b := dmaRead s.env s.die 65536 204
     envOk b 204 = true ∧ slice b 54 10 = zeros 10 ∧ leAt b 48 2 = s.die.ens.slot ∧ envEpoch b = s.die.get .ENS_DOMAIN_EPOCH_VALUE ∧
       (tget s.die.ens.members (envSource b)).quarantined = false ∧ s.die.servesSlice (leAt b 50 2 % 2048 / 256) = true ∧
       s.die.destCheck (leAt b 50 2 % 2048) (leAt b 52 2) = none ∧ (s.die.loadKey s.env (leAt b 50 2 % 2048) (leAt b 52 2)).2 = none ∧ envTag b = slice s.die.ens.domainTag 0 16) :=
  ⟨by decide, by decide, by decide, by decide, by decide⟩

/-- TakingEnvelopes: a tuple of another die, a member that mismatches, a die alone and one of four whose last answer is awaited. -/
theorem witness_TakingEnvelopes_shares :
    (zeros 224).length = 224 ∧ live.otherDies = [] ∧ (withRegs [(.ENS_STATUS_SIZE, 0, 0, 1)] live).size = 1 ∧
    (withRegs [(.ENS_STATUS_SIZE, 0, 0, 4), (.ENS_SERVE_SERVER, 0, 0, 0x3210)] live).otherDies ≠ [] ∧
    (let d := envDie (envReq 0xFD 0 224) 1 [] none
     let t := zeros 48 ++ [1] ++ zeros 175
     slice (zeros 224) 32 8 ++ slice (zeros 224) 48 144 = d.ownTuple ∧ slice t 32 8 ++ slice t 48 144 ≠ d.ownTuple) ∧
    (let r := envReq 0xFD 0 224
     let d := withReq r (member 1)
     Accepted d 1 0xFD r ∧ d.isLead = false) := by decide

/-- A die with its ring of envelopes enabled and `n` entries in it, member 8 present since `since` and mismatched, and an armed activation for
1,000 ms with a window of 1 s; domain time stands at `time`. -/
def timeDie (n since time : Nat) : Die :=
  let d := withRegs [(.ENS_ENV_OUT_CTL_ENABLE, 0, 0, 1), (.ENS_ENV_OUT_CTL_SIZE_LOG2, 0, 0, 4), (.ENS_ENV_OUT_TAIL_INDEX, 0, 0, n),
    (.ENS_DOMAIN_TIME_VALUE, 0, 0, time)] (envDie (envReq 0xFD 0 0) 1 [] none)
  let m : Member := { tget d.ens.members 8 with present := true, mismatch := true, lastMs := since, mismatchSince := since }
  { d with nowMs := 10000, tin := { d.tin with running := [{ type := 1, inst := 0, body := [0, 0, 0, 1] }] }
           ens := { d.ens with members := tput d.ens.members 8 m
                               armed := some { serial := 1, digest := zeros 48, epoch := 2, actTime := 1000, windowS := 1, tried := none } } }

/-- DomainTime: a ring that is full and one that is not, members at and after their times, and an armed activation before, in and after its window. -/
theorem witness_DomainTime :
    (∀ n ∈ [15, 16], let d := timeDie n 0 0
      d.ens.dtk = some (zeros 32) ∧ d.get .ENS_DOMAIN_STATUS_ROOT ≠ 0 ∧ d.get .ENS_ENV_OUT_CTL_ENABLE ≠ 0 ∧
        (2 ^ clamp 4 12 (d.get .ENS_ENV_OUT_CTL_SIZE_LOG2) ≤ idxSub (d.get .ENS_ENV_OUT_TAIL_INDEX) (d.get .ENS_ENV_OUT_HEAD_INDEX) ↔ n = 16) ∧
        d.dmaOk (d.tenantOf 0) (15 * 256) 256 true = true) ∧
    (∀ since ∈ [0, 5000, 5001], let d := timeDie 0 since 0
      let m := tget d.ens.members (8 % 4096)
      Settled (st d) ∧ m.present = true ∧ (m.lastMs + 5000 ≤ d.nowMs ↔ since ≤ 5000) ∧ bit (leAt (bodyOf d.tin.running 1 0) 3 1) 0 = true ∧
        m.mismatch = true ∧ m.quarantined = false ∧ d.windowOpen = false ∧ (m.mismatchSince + 10000 ≤ d.nowMs ↔ since = 0)) ∧
    (∀ time ∈ [999, 1000, 2000, 2001], let d := timeDie 0 0 time
      d.isLead = true ∧ d.ens.armed = some { serial := 1, digest := zeros 48, epoch := 2, actTime := 1000, windowS := 1, tried := none } ∧
        d.get .ENS_DOMAIN_TIME_VALUE = time ∧ d.stagedIs 1 (zeros 48) = false ∧ d.tin.op = none ∧ d.ens.armed.bind Armed.tried = none) := ⟨by decide, by decide, by decide⟩

/-- DomainTime: the image that an armed activation names, staged; an attempt 10 ms ago. -/
theorem witness_DomainTime_staged :
    (let d : Die := { live with tin := { live.tin with staged := some { serial := 1, sections := [], bytes := [] } } }
     d.stagedIs 1 (configDigest [] 1 0) = true) ∧
    (let a : Armed := { serial := 1, digest := zeros 48, epoch := 2, actTime := 1000, windowS := 1, tried := some 9990 }
     ∃ ms, a.tried = some ms ∧ ms + 10 ≤ 10000) := by
  refine ⟨?_, 9990, rfl, by decide⟩
  simp [Die.stagedIs]
/-! ## Witnesses: the life cycle and debug -/

/-- An LCS_SUBMIT of `kind` with `n` bytes at 65,536, and its state in life-cycle state `lcs` with a pending request and a challenge. -/
def lcsReq (kind n : Nat) : Req := req 0xFF [(16, 8, 65536), (24, 8, n), (56, 1, kind)]
def lcsState (kind n lcs : Nat) (pending challenge b : Bytes) : State :=
  let d := withReq (lcsReq kind n) (live.set .LCS_STATE_STATE lcs)
  { st { d with lcs := { d.lcs with pending, challenge } } with mem := memAt 65536 b }

/-- A debug authorisation of `signer` for the challenge of 32 zero bytes and `n` seconds. -/
def authBytes (signer n : Nat) : Bytes := leBytes 4 dbgMagic ++ [1, 1] ++ leBytes 1 signer ++ zeros 41 ++ leBytes 4 n

/-- A transition request for Test-locked that no one signs, of `n` bytes, with journal position `next`. -/
def lockBytes (n next : Nat) : Bytes :=
  leBytes 4 lcsMagic ++ [1, 0x1E, 0, 0] ++ zeros 56 ++ leBytes 4 next ++ zeros (n - 68)

/-- LifeCycleRequests: a transition request that meets a check, and one that meets none. -/
theorem witness_LifeCycleRequests_checks :
    (let s := lcsState 1 72 2 [] [] (lockBytes 72 1)
     s.die.requestFault s.otp (dmaRead s.env s.die 65536 72) false (s.die.get .TIN_STATUS_SOURCE == 1) true = some (.paramRejected, 0x41)) ∧
    (let s := lcsState 1 72 2 [] [] (lockBytes 72 0)
     s.die.requestFault s.otp (dmaRead s.env s.die 65536 72) false (s.die.get .TIN_STATUS_SOURCE == 1) true = none) := by decide

/-- LifeCycleRequests: each KIND at its greatest length, and the kinds that are none. -/
theorem witness_LifeCycleRequests :
    (∀ x ∈ [(0, 0), (1, 0), (1, 8192), (2, 0), (3, 0), (3, 4779), (4, 0)], let r := lcsReq x.1 x.2
      let s := lcsState x.1 x.2 4 [] [] []
      Settled s ∧ Accepted s.die 1 0xFF r ∧ r.fn? = some 0 ∧ r.handle = 0 ∧ r.zeroBytes 57 64 = true ∧ RangesOk s.die r ∧ r.byte 56 = x.1 ∧ r.inLen = x.2) ∧
    ((lcsState 2 0 4 [] [] []).die.lcs.pending = [] ∧ (lcsState 2 0 4 [0] [] []).die.lcs.pending ≠ []) ∧
    authLayoutOk [] = false ∧
    (∀ x ∈ [(3, 1, 1), (4, 1, 1), (4, 2, 3600), (5, 1, 3600)], let s := lcsState 3 4779 x.1 [] (zeros 32) (authBytes x.2.1 x.2.2)
      let b := dmaRead s.env s.die (lcsReq 3 4779).inAddr 4779
      authLayoutOk b = true ∧ (s.die.maySign (leAt b 6 1) = false ↔ (x.1 = 4 ∧ x.2.1 = 1)) ∧ s.die.lcs.challenge ≠ [] ∧
        slice b 16 32 = s.die.lcs.challenge) := ⟨by decide, by decide, by decide, by decide⟩

/-- A die with random bytes, a debug level, an authorisation and core 1 in the hypervisor's world. -/
def dbgDie (level : Nat) : Die :=
  let d := withRegs [(.DBG_STATUS_LEVEL, 0, 0, level), (.RNG_STATUS_STATE, 0, 0, 1)] (stocked 32 live)
  { d with lcs := { d.lcs with auth := true }, wld := { d.wld with cores := d.wld.cores.map fun c => { c with world := .hypervisor } } }

/-- Debugging: each level, an authorisation at its end, a core in each world, the mailbox, and accesses of the greatest length. -/
theorem witness_Debugging :
    (∀ n ∈ [0, 1, 2], let d := dbgDie n
      Settled (st d) ∧ d.get .RNG_STATUS_STATE = 1 ∧ 32 ≤ d.rng.drbgBytes ∧ d.get .DBG_STATUS_REMAINING_S = 0 ∧ d.lcs.auth = true ∧ d.get .DBG_STATUS_LEVEL = n ∧
        (d.core 3).world ≠ .secure ∧ 3 ∉ d.lcs.halted ∧ d.scrapped = false) ∧
    (live.core 0).world = .secure ∧ live.lcs.auth = false ∧ leAt [2] 0 1 = 2 ∧ 0x1000000 - 4096 + 4096 ≤ 0x1000000 := by decide

/-- Debugging: a challenge at the last moment of its 300 s and after it, and the ends of the operand and lattice memories. -/
theorem witness_Debugging_ends :
    (∀ x ∈ [(299999, false), (300000, true)], let d := { dbgDie 1 with
        lcs := { (dbgDie 1).lcs with challenge := zeros 32, challengeMs := 0 }, nowMs := x.1 }
      Settled (st d) ∧ d.lcs.challenge ≠ [] ∧ decide (d.lcs.challengeMs + 300000 ≤ d.nowMs) = x.2) ∧
    (∀ a ∈ [0x31000000, 0x31000000 + 24 * 65536 - 1], inConMem a = true ∧ ((dbgDie 2).con.jobs.all fun j =>
      j.ctx != some ((a - dbgCon) / 65536, (a - dbgCon) % 65536 / 16384)) = true) ∧
    (∀ a ∈ [0x31800000, 0x31800000 + 4 * 262144 - 1], inNttMem a = true ∧ inConMem a = false) ∧
    (∀ a ∈ [0x1000000], inConMem a = false ∧ inNttMem a = false) ∧
    (dbgDie 2).lcs.pending = [] ∧ ({ (dbgDie 2).lcs with pending := [0] } : LcsState).pending ≠ [] := by decide

/-- VotedDecode: codewords of each form with the least and the most toggles, one with a SCRAP bit, and one of no form. -/
theorem witness_VotedDecode :
    (∀ n ∈ [0, 1, 2, 16], n ≤ 16) ∧ (bits (2 ^ 56) 63 56 ≠ 0 ∧ 2 ^ 56 < 2 ^ 64) ∧
    (let v := 1
     v < 2 ^ 64 ∧ bits v 63 56 = 0 ∧ v ≠ 0 ∧ (∀ n ∈ List.range 17, v ≠ 0x5A + (2 ^ n - 1) * 2 ^ 8) ∧
       ∀ n ∈ List.range 17, v ≠ 0x5A + (2 ^ n - 1) * 2 ^ 8 + 0x96 * 2 ^ 32) := by decide
/-! ## Witnesses: the ring and the ensemble -/

/-- Position `pos` of an ensemble of 4 with both ring links up. -/
def upDie (pos : Nat) : Die := withRegs [(.ENS_LINKS_UP_A, 0, 0, 1), (.ENS_LINKS_UP_B, 0, 0, 1)] (member pos)

/-- ShorterWay: the shorter way along ring A, along ring B, and both equally long. -/
theorem witness_ShorterWay :
    ∀ x ∈ [(1, true), (2, true), (3, false)], let d := upDie 0
      x.1 < d.size ∧ d.pos < d.size ∧ x.1 ≠ d.pos ∧ d.upA = true ∧ d.upB = true ∧
        (decide ((x.1 + d.size - d.pos) % d.size ≤ (d.pos + d.size - x.1) % d.size)) = x.2 := by decide

/-- A die in ENS_STATUS state `state`, with its lead strap and the dies it has found along ring A. -/
def startDie (state : Nat) (lead : Bool) (found : List FoundDie) : Die :=
  let d := (armed live).set .ENS_STATUS_STATE state
  { d with ens := { d.ens with leadStrap := lead, found } }

/-- RingLinks: links up and down, discovery with and without the lead strap, valid and faulty patterns, and the start of an ensemble. -/
theorem witness_RingLinks :
    (∀ b ∈ [false, true], (upDie 0).isUp b = true ∧ live.isUp b = false) ∧ Settled (st (upDie 0)) ∧ Settled (st live) ∧
    (∀ lead ∈ [false, true], ∀ state ∈ [0, 1], (startDie state lead []).get .ENS_STATUS_STATE = state ∧ (startDie state lead []).ens.leadStrap = lead ∧
      (startDie state lead []).clk.booted = true ∧ Settled (st (startDie state lead []))) ∧
    ((startDie 0 false []).get .RST_CAUSE_POWER_ON ≠ 0 ∧ (startDie 0 false []).pos < 8 ∧ (startDie 0 true []).patternFault = 0 ∧
      (startDie 0 true [{ pos := 0, lead := false }]).patternFault ≠ 0) ∧
    (let d := withRegs [(.ENS_STATUS_SIZE, 0, 0, 4)] (startDie 1 true [])
     d.clk.booted = true ∧ d.get .ENS_STATUS_STATE = 1 ∧ absentAllowed d.size < ((List.range d.size).filter fun p => p != d.pos).length) :=
  ⟨by decide, by decide, by decide, by decide, by decide, by decide⟩

/-- A die of an ensemble of 4 founded with the identities `ids`. -/
def foundedDie (ids : List Bytes) : Die := { member 1 with ens := { (member 1).ens with founded := ids } }

/-- RingLinks: identities founded for none, one and four dies, peers taken and refused, and the messages that a rekey needs. -/
theorem witness_RingLinks_peers :
    ((foundedDie [zeros 48]).ens.founded.length = 1 ∧ (foundedDie []).ens.founded.length ≠ 1) ∧
    (let d := foundedDie [zeros 48, zeros 48, 1 :: zeros 47, zeros 48]
     d.ens.founded.length ≠ 1 ∧ d.peerOk false true 4 (1 :: zeros 47) = true ∧ d.peerOk true true 4 (zeros 48) = true ∧
       d.peerOk false true 4 (zeros 48) = false ∧ d.peerOk true false 4 (zeros 48) = false ∧ d.peerOk true true 3 (zeros 48) = false) ∧
    (foundedDie []).peerOk true true 4 (zeros 48) = true ∧
    (∀ x ∈ [(2 ^ 32 - 1, false), (2 ^ 32, true)],
      let d := { upDie 0 with ens := { (upDie 0).ens with linkB := { (upDie 0).link true with messages := x.1 } } }
      d.isUp true = true ∧ decide (2 ^ 32 ≤ (d.link true).messages) = x.2) := by decide

/-- RingLinks: the die that discovers and one that does not, before and after the time of discovery. -/
theorem witness_RingLinks_discovery :
    (∀ lead ∈ [false, true], (startDie 0 lead []).discovers = lead ∧ (startDie 0 lead []).get .ENS_STATUS_STATE = 0) ∧
    (∀ x ∈ [(999, false), (1000, true)], let d := { startDie 0 false [] with nowMs := x.1 }
      d.discoveryOver = x.2 ∧ d.clk.booted = true ∧ decide (d.clk.bootMs + 1000 ≤ d.nowMs) = x.2 ∧ d.ens.found = []) ∧
    (startDie 0 true []).discoveryOver = true ∧ ((startDie 0 true []).clk.booted = true ∧ ({ startDie 0 true [] with clk := Die.reset.clk }).clk.booted = false) ∧
    (startDie 0 true []).get .ENS_STATUS_SIZE = 0 := by decide

/-- A start message of the lead die with `fault`. -/
def startMsg (fault : Nat) : StartMsg :=
  { parts := [], size := 4, lead := 0, acting := 1, fault, serve := 0x3210, idents := [], bank := [], deltas := [],
    copy := { minute := 1, ticket := 2, archive := 3, serial := 0, steer := [], standby := [], gens := [(7, 1)], vgens := [] } }

/-- RingLinks: the lead die STARTING and RUNNING, another die in both states before RUNNING, with each kind of fault, and the keys' arrival. -/
theorem witness_RingLinks_start :
    (∀ state ∈ [1, 2], let d := (startDie state true []).set .ENS_STATUS_SIZE 4
      d.isLead = true ∧ d.get .ENS_STATUS_STATE = state ∧ d.clk.booted = true) ∧
    (∀ state ∈ [0, 1], (startDie state false []).isLead = false ∧ (startDie state false []).get .ENS_STATUS_STATE ≤ 1) ∧
    (∀ f ∈ [0, 5], ((startMsg f).fault = 0 ∨ (startMsg f).fault = 5) ∧ (startMsg f).bank = []) ∧ (∀ f ∈ [1, 13], (startMsg f).fault % 8 ≠ 0 ∧ (startMsg f).fault ≠ 5) ∧
    (∀ state ∈ [0, 1, 2], (startDie state false []).get .ENS_STATUS_STATE ≠ 3) := by decide

/-- Failures: a pair of dies that judges and one that does not, a position reported, declared and neither, the serve map, handbacks and standbys. -/
theorem witness_Failures :
    (∀ p ∈ [0, 1, 3], Settled (st (member p)) ∧ (member p).pos < 8 ∧ (member p).clk.booted = true ∧ (member p).size ≠ 1 ∧ (member p).get .ENS_STATUS_STATE = 2) ∧
    (live.size = 1 ∧ (member 0).judges 2 = true ∧ (member 3).judges 2 = false ∧ (member 1).judges 0 = true) ∧
    (let d := { member 0 with ens := { (member 0).ens with reports := [(2, 1)] } }
     (2, ofBool (!false)) ∈ d.ens.reports ∧ (3, ofBool (!false)) ∉ d.ens.reports ∧ 2 ∉ d.ens.declared ∧ 2 ≠ d.pos) ∧
    (((member 0).set .ENS_CTL_LINK_GRACE 0).get .ENS_CTL_LINK_GRACE = 0 ∧ (member 0).get .ENS_CTL_LINK_GRACE ≠ 0 ∧ (member 0).isLead = true ∧
      (member 1).isLead = false) ∧
    (let d : Die := { member 0 with nowMs := 9000, clk := { (member 0).clk with resetClass := 0 }, ens := { (member 0).ens with hostDown := [(0, 0)] } }
     d.isLead = true ∧ d.pos = 0 ∧ d.graceOver 0 = true ∧ d.size ≠ 1 ∧ d.get .ENS_STATUS_STATE = 2 ∧ d.clk.resetClass < 2 ∧ d.tmp.lockdown = false ∧
       d.clk.phase ≠ .stopped) ∧
    (let d := { member 1 with key := { (member 1).key with esk := some (zeros 32) } }
     (0 + 1) % d.size = d.pos ∧ d.get .MLF_STATUS_ADOPTED = 0 ∧ d.key.esk.isSome = true ∧ d.get .ENS_STATUS_ACTING_LEAD = 0) ∧
    ((let d := (member 0).set .ENS_SERVE_SERVER 0
      d.get .ENS_SERVE_SERVER < 2 ^ 32 ∧ d.serverOf 7 ≠ 7 ∧ d.serverOf 1 ≠ 1 ∧ 1 ≠ d.pos) ∧
      ((member 1).set .MLF_STATUS_STATE 3).get .MLF_STATUS_STATE = 3) ∧
    (let d := withRegs [(.TEN_STATE_STATE, 255, 0, 1)] (member 1)
     let d1 := { d with tin := { d.tin with running := [{ type := 4, inst := 511, body := [] }] } }
     d1.standbyOk 0 511 false = true ∧ d1.standbyOk 0 2047 false = false) :=
  ⟨by decide, by decide, by decide, by decide, by decide, by decide, by decide⟩

/-- Failures: a host link down for just as long as the grace and for longer, a declared server, the slice that is given while an alias is busy
and while none is, and the serve map at reset. -/
theorem witness_Failures_more :
    (live.tin.op = none ∧ (member 1).tin.op = none) ∧
    (∀ x ∈ [(100, false), (101, true)],
      let d0 := { (member 0).set .ENS_CTL_LINK_GRACE 1000 with nowMs := x.1 }
      let d := { d0 with ens := { d0.ens with hostDown := [(2, 0)] } }
      d.isLead = true ∧ d.get .ENS_CTL_LINK_GRACE = 1000 ∧ d.size ≠ 1 ∧ 2 < d.size ∧ 2 ≠ d.pos ∧ 2 ∉ d.ens.declared ∧ d.get .ENS_STATUS_STATE = 2 ∧
        (2, 0) ∈ d.ens.hostDown ∧ decide (10 * 0 + d.get .ENS_CTL_LINK_GRACE < 10 * d.nowMs) = x.2 ∧ (∀ y ∈ d.ens.hostDown, y.1 ≠ 3)) ∧
    (let d := (member 1).set .ENS_SERVE_SERVER 0x76543210
     (∀ p ∈ List.range 8, (d.serverOf p = d.pos ↔ p = d.pos)) ∧ max 8 d.size = 8 ∧ d.pos ∉ d.ens.declared) ∧
    (∀ busy ∈ [false, true],
      let d0 := withReq { req 1 [] with origin := .pair (if busy then 3 else 2) 0 0 } (member 1)
      let d := { d0 with ens := { d0.ens with giving := some 0, aliases := [(3, 5)] } }
      d.ens.giving = some 0 ∧ d.aliasesOf 0 = [(3, 5)] ∧ d.fnBusy 3 = busy) ∧
    ((let d := (member 1).set .ENS_SERVE_SERVER 0x76543211
      d.get .ENS_SERVE_SERVER < 2 ^ 32 ∧ d.serverOf 0 ≠ 0 ∧ 0 ≠ d.pos ∧ d.aliasesOf 0 = []) ∧ (member 1).get .ENS_STATUS_STATE = 2) ∧
    ((7 : Nat) < 8 ∧ (2047 : Nat) < 2048) := by decide
/-! ## Witnesses: control cores, worlds and the MPUs -/

/-- A die whose cores are in world `w`, with `n` frames on their stacks, and whose page 8191 has the owner `kind`. -/
def worldDie (w : World) (n kind : Nat) : Die :=
  let d := withRegs [(.WLD_POT_KIND, 8191, 0, kind)] (armed live)
  { d with wld := { d.wld with gated := [], cores := d.wld.cores.map fun c =>
      { c with world := w, stack := List.replicate n { world := .secure, guest := 0, ret := 0, saved := List.replicate 18 0 } } } }

/-- Worlds: calls that are permitted and that are not, of each owner; returns with and without a frame; interrupts with a stack of 7 and of 8. -/
theorem witness_Worlds :
    (∀ n ∈ [0, 7, 8], ∀ core ∈ [0, 3], let d := worldDie .secure n 2
      Settled (st d) ∧ d.clk.booted = true ∧ core ∉ d.lcs.halted ∧ core < d.wld.cores.length ∧ core ∉ d.wld.gated ∧ (d.core core).stack.length = n) ∧
    (∀ x ∈ [(World.secure, 2), (.hypervisor, 1), (.hypervisor, 3), (.guest, 2), (.guest, 1), (.secure, 0)], ∀ n ∈ [7, 8], let d := worldDie x.1 n x.2
      let c := (d.core 0).load 0 [8191 * 4096]
      gateReg 0x7E000000 = some 0 ∧ c.g.getD 0 0 / 4096 = 8191 ∧ worldOf (d.getAt .WLD_POT_KIND 8191) = worldOf x.2 ∧
        ∀ w : World, worldOf x.2 = some w →
          (callPermitted c.world w && c.g.getD 0 0 % 4 == 0 && tagAdmits (0xE47A7000 % 2 ^ 32) c.world && decide (c.stack.length < 8)) =
            (decide (n = 7) && !(x.1 == .guest && x.2 == 1))) ∧
    (let d := live.set .KFT_GEOMETRY_CACHE_UNITS 72
     d.corePages ≤ 4095 ∧ 0 < d.corePages) := by
  refine ⟨by decide, ?_, by decide⟩
  intro x hx n hn
  simp only [List.mem_cons, List.not_mem_nil, or_false] at hx hn
  rcases hx with rfl | rfl | rfl | rfl | rfl | rfl <;> rcases hn with rfl | rfl <;>
    exact ⟨by decide, by decide, by decide, fun w hw => by revert hw; cases w <;> decide⟩

/-- Worlds: interrupts into another world, into another guest and into the core's own; accesses of a guest to a page of another guest, of its own
and of no guest; a page of a guest that the second stage maps to what its tenant does not own; a write of the secure world. -/
theorem witness_Worlds_accesses :
    (∀ core ∈ [0, 3], let c := (worldDie .guest 8 1).core core
      worldOfCode 1 = .hypervisor ∧ (World.hypervisor ≠ c.world ∨ 0 ≠ c.guest) ∧ worldOfCode 2 = .guest ∧ (World.guest = c.world ∧ 0 = c.guest ∧ 5 ≠ c.guest)) ∧
    (∀ x ∈ [(3, 0, true), (3, 7, false), (2, 0, false)],
      let d0 := withRegs [(.WLD_POT_KIND, 8191, 0, x.1), (.WLD_POT_TENANT, 8191, 0, x.2.1)] (worldDie .guest 0 3)
      let d := { d0 with wld := { d0.wld with stage2 := [(5, 8191)] } }
      d.coreRuns 1 = true ∧ (d.core 1).world = .guest ∧ (5 * 4096 + 4088) % 4096 + 8 ≤ 4096 ∧ d.mapped (d.core 1).guest ((5 * 4096 + 4088) / 4096) = some 8191 ∧
        (decide (d.getAt .WLD_POT_KIND 8191 = 3) && decide (d.getAt .WLD_POT_TENANT 8191 = (d.core 1).guest)) = x.2.2) ∧
    (∀ w ∈ [World.secure, .hypervisor], (worldDie w 0 2).coreRuns 2 = true ∧ ((worldDie w 0 2).core 2).world = w) ∧
    (let d := (worldDie .secure 0 2).set .KFT_GEOMETRY_CACHE_UNITS 72
     0 < d.corePages ∧ 4088 % 4096 + [(1 : Byte), 2].length ≤ 4096) := by decide

/-- A region of 4 KiB at page `p`. -/
def page (p : Nat) : Region := { base := 4096 * p, sizeLog2 := 12, enable := true, r := true, w := false, x := false }

/-- Guards: watchdog, holds, commits of MPU 262 that overlap, are misshapen, and pass; a policy program that leaves its words and one that loops. -/
theorem witness_Guards :
    (let d := { live with clk := { live.clk with resetClass := 0 }, wld := { live.wld with gated := [] } }
     Settled (st d) ∧ d.clk.booted = true ∧ d.wld.gated.length ≠ 4 ∧ d.clk.resetClass < 2 ∧ d.tmp.lockdown = false ∧ d.clk.phase ≠ .stopped) ∧
    (∀ x ∈ [([page 0, page 0], some 0, none), ([page 0, { page 1 with sizeLog2 := 11 }], none, some 1), ([page 0, page 1], none, none)],
      let d := { live with wld := { live.wld with shadow := [(262 * 16, x.1.headD (page 0)), (262 * 16 + 1, x.1.getD 1 (page 0))] } }
      let rs := (List.range 16).map (d.shadowRegion 262)
      d.getAt .MPU_STATUS_DRAINING 262 = 0 ∧ firstOverlap rs = x.2.1 ∧ d.firstMisshapen 262 rs = x.2.2) ∧
    (let rs := (List.range 16).map page
     firstOverlap rs = none ∧ live.firstMisshapen 262 rs = none ∧ rs.length = 16 ∧
       ({ live with wld := { live.wld with commits := [(262, rs)] } }.wld.commits.find? fun x => x.1 == 262) = some (262, rs)) ∧
    (([] : List Nat)[({ w := [], st := [], pc := 0 } : PolVm).pc]? = none ∧ branchTo 0 0xFFFF = 0 ∧ [0x17 + 0xFFFF * 2 ^ 16][0]? = some (0x17 + 0xFFFF * 2 ^ 16)) :=
  ⟨by decide, by decide, by decide, by decide⟩

/-- Guards: a request that waits for a core with a key whose policy is to be asked. -/
theorem witness_Guards_policy :
    let r := { req 0x34 [] with stage := .waiting }
    let o := { keyObj 0 0x11 63 4 with param := 1 }
    let d := withReq r (keyed [o])
    let j : ConJob := { rid := 1, tenant := 0, cycles := 1, long := false, place := .waiting, loaded := true, ctx := none, hashed := true, need := 0, input := [], params := [], draw := 0,
                        preempted := 0, fresh := false, first := none, relaned := false }
    let d1 := { d with con := { d.con with jobs := [j] } }
    d1.req? 1 = some r ∧ r.stage = .waiting ∧ r.allowed = false ∧ (d1.waitingUse r).isSome = true ∧ d1.readKey r.tenant r.keyHandle = .ok o ∧
      bit o.aflags 2 = true := by decide

/-- Guards: the watchdog at its end and before it, with a core that runs and with all four gated, and the key and another value. -/
theorem witness_Guards_watchdog :
    (∀ x ∈ [(0, ([] : List Nat), true), (1, [], true), (0, [0, 1, 2, 3], false)],
      let d0 := withRegs [(.WLD_WDOG_STATUS_REMAINING_MS, 0, 0, x.1)] (armed live)
      let d := { d0 with clk := { d0.clk with resetClass := 0 }, wld := { d0.wld with gated := x.2.1 } }
      d.wdogRuns = x.2.2 ∧ d.get .WLD_WDOG_STATUS_REMAINING_MS = x.1 ∧ d.clk.resetClass < 2 ∧ Settled (st d)) ∧
    (0x15A5A % 65536 = 0x5A5A ∧ 0x5A5B % 65536 ≠ 0x5A5A) := by decide
/-! ## Witnesses: tamper -/

/-- A running die with every source enabled at rank `rank`, and source `src` enabled or not. -/
def mapDie (rank src on : Nat) : Die :=
  withRegs ([(.TMP_MAP_ENABLED, src, 0, on)] ++ [(.TMP_MAP_RANK, src, 0, rank), (.TMP_MAP_OUT, src, 0, 1)])
    { live with clk := { live.clk with resetClass := 0 } }

/-- Alarms: sources at the ends of each group, enabled and not, at each rank; a built-in test; samples beyond their limits and at them; supplies,
glitches, the cell, messages and conditions. -/
theorem witness_Alarms :
    (∀ src ∈ [1, 4, 5, 7, 8, 9, 10, 0x0C, 0x0E, 0x0F, 0x10, 0x12, 0x14, 0x17], ∀ on ∈ [0, 1], let d := mapDie 4 src on
      d.tmp.lockdown = false ∧ d.tmp.bist = none ∧ d.cond src = false ∧ d.getAt .TMP_MAP_ENABLED src = on ∧ d.getAt .TMP_MAP_OUT src ≠ 0) ∧
    (∀ r ∈ [0, 1, 2, 3, 4], (mapDie r 1 1).getAt .TMP_MAP_RANK 1 = r) ∧
    (let d := mapDie 4 1 1
     let b : Bist := { source := 1, kind := 1, detected := false }
     ({ d with tmp := { d.tmp with bist := some b } }).tmp.bist = some b ∧ d.clk.resetClass < 2 ∧ d.clk.phase ≠ .stopped ∧ d.clk.stable = true ∧ d.get .TMP_STATUS_BROWNOUT = 0 ∧
       ({ d with tmp := { d.tmp with overHigh := true, underLow := true } }).tmp.overHigh = true) ∧
    (let d := { live with tmp := { live.tmp with brownCore := true } }
     (d.set .TMP_STATUS_BROWNOUT 1).get .TMP_STATUS_BROWNOUT ≠ 0 ∧ d.tmp.brownAux = false ∧ State.reset.die.tmp.lockdown = false ∧
       State.reset.die.clk.stable = false) ∧
    (let d := withRegs [(.TMP_TEMP_LIMITS_HIGH, 0, 0, 105)] live
     4 * signed16 (d.get .TMP_TEMP_LIMITS_HIGH) < max 421 0 ∧ (40 : Int) < max 421 0 - min 421 0) ∧
    (2199 : Int) < 2200 ∧ (-301 : Int) < -300 := ⟨by decide, by decide, by decide, by decide, by decide, by decide, by decide⟩

/-- TamperEnds: both clearings, responses whose conditions are gone and present, the acknowledgement, the backup domain and the built-in test. -/
theorem witness_TamperEnds :
    (∀ n ∈ [0, 3, 4], let d := { mapDie 4 1 1 with tmp := { (mapDie 4 1 1).tmp with clearing := n } }
      Settled (st d) ∧ d.tmp.clearing = n ∧ d.tmp.lockdown = false ∧ d.clk.resetClass < 2 ∧ d.clk.phase ≠ .stopped) ∧
    (∀ r ∈ [1, 2], (mapDie r 1 1).rankedCondition r = false ∧ ((mapDie r 1 1).set .TMP_COND_SOURCES 1).rankedCondition r = true) ∧
    ((mapDie 1 1 1).outCondition = false ∧ ((mapDie 1 1 1).set .TMP_COND_SOURCES 1).outCondition = true ∧ live.tmp.outLog = false ∧
      (live.set .TMP_STATUS_OUT 1).get .TMP_STATUS_OUT ≠ 0) ∧
    (let d := stocked 16 (live.set .RNG_STATUS_STATE 1)
     d.get .RNG_STATUS_STATE = 1 ∧ 16 ≤ d.rng.drbgBytes) ∧
    (let d := { live with tmp := { live.tmp with backup := { live.tmp.backup with active := true, enables := 127 } } }
     d.tmp.backup.active = true ∧ bit d.tmp.backup.enables 0 = true ∧ bit d.tmp.backup.enables 6 = true ∧ d.tmp.backup.resample = none) ∧
    (let b : Bist := { source := 0x11, kind := 1, detected := true }
     let d := mapDie 1 0x11 1
     let d1 := { d with tmp := { d.tmp with bist := some b } }
     d1.tmp.bist = some b ∧ b.source < 32 ∧ d1.cond b.source = false ∧ d1.getAt .TMP_MAP_ENABLED b.source ≠ 0 ∧ d.tmp.bist = none ∧
       d.get .TMP_STATUS_HALTED = 0) ∧
    (live.get .TMP_BACKUP_STATUS_RUNNING = 0 ∧ (live.set .TMP_BACKUP_STATUS_RUNNING 1).get .TMP_BACKUP_STATUS_RUNNING ≠ 0) :=
  ⟨by decide, by decide, by decide, by decide, by decide, by decide, by decide⟩

/-- Alarms: a source whose condition a row may end and one whose condition none ends, with the other supply's condition present and gone. -/
theorem witness_Alarms_ends :
    (0x0B ∈ clearSources ∧ 0x18 ∉ clearSources) ∧ (live.cond 0x0D = false ∧ (live.set .TMP_COND_SOURCES (2 ^ 0x0C)).cond 0x0D = true) ∧
    (live.tmp.overHigh = false ∧ live.tmp.underLow = false) := by decide

/-- TamperEnds: a Throttle just before and just after its 10 ms, a Halt just before and just after its 1 ms, and the cell's samples. -/
theorem witness_TamperEnds_times :
    (∀ x ∈ [(9, false), (10, true)], let d := { mapDie 1 1 1 with nowMs := x.1 }
      d.rankedCondition 1 = false ∧ decide (d.tmp.throttleMs + 10 ≤ d.nowMs) = x.2) ∧
    (∀ x ∈ [(0, false), (1, true)], let d := { mapDie 2 1 1 with nowMs := x.1 }
      d.rankedCondition 2 = false ∧ decide (d.tmp.haltMs + 1 ≤ d.nowMs) = x.2) ∧
    (∀ n ∈ [1, 7], 0 < n ∧ n ≤ 7 ∧ bit 127 (n - 1) = true) := by decide
/-! ## Witnesses: clocks, power and resets -/

/-- A die in clock phase `p` after `n` failed checks of the FRO and of the settling. -/
def clkDie (p : ClkPhase) (n : Nat) : Die :=
  { withRegs [(.CLK_STATUS_SETTLE_TRIES, 0, 0, n), (.CLK_STATUS_FRO_REF, 0, 0, 1)] live with clk := { live.clk with phase := p, froTries := n } }

/-- Clocks: each phase, with the cell good and not, before and at the third failure. -/
theorem witness_Clocks :
    (∀ p ∈ [ClkPhase.froCheck, .settle, .retryWait, .armed, .failedOver], ∀ n ∈ [0, 1, 2], let d := clkDie p n
      Settled (st d) ∧ d.clk.phase = p ∧ d.clk.froTries = n ∧ d.get .CLK_STATUS_SETTLE_TRIES = n ∧ d.tmp.lockdown = false ∧ d.clk.froDead = false ∧
        d.get .CLK_STATUS_FRO_REF ≠ 0) ∧
    (∀ g ∈ [false, true], ({ live with tmp := { live.tmp with backup := { live.tmp.backup with vbatGood := g } } }).tmp.backup.vbatGood = g) ∧
    (({ live with clk := { live.clk with phase := .armed, froDead := true } }).clk.froDead = true ∧ live.tmp.bist = none ∧ live.cond 0x11 = false ∧
      (mapDie 1 0x11 1).getAt .TMP_MAP_ENABLED 0x11 ≠ 0) := ⟨by decide, by decide, by decide⟩

/-- Power: each state of parking, a held block, blocks idle and busy, the lead and another die, and the last estimate of a millisecond. -/
theorem witness_Power :
    (∀ n ∈ [0, 2, 3, 4], ∀ park ∈ [0, 1], let d := withRegs [(.PWR_STATUS_STATE, 0, 0, n), (.PWR_CTL_PARK, 0, 0, park)] live
      Settled (st d) ∧ d.clk.phase = .armed ∧ d.get .PWR_CTL_PARK = park ∧ d.get .PWR_STATUS_STATE = n ∧ d.working = false ∧ d.wld.deferred = []) ∧
    (let d := withRegs [(.WLD_HOLD_BLOCKS, 0, 0, 1), (.PWR_CTL_IDLE_EN, 0, 0, 1)] live
     bit (d.get .WLD_HOLD_BLOCKS) 0 = true ∧ d.get .PWR_CTL_IDLE_EN ≠ 0 ∧ d.blockBusy 0 = false ∧ d.blockBusy 10 = false) ∧
    ((member 0).isLead = true ∧ (member 1).isLead = false) ∧
    (∀ n ∈ [998, 999], ({ live with clk := { live.clk with powerCount := n } }).clk.powerCount = n) ∧
    (let d := { live with wld := { live.wld with deferred := [(0, true)] } }
     d.wld.deferred ≠ []) ∧
    ({ laneState sess (laneJob 1 true 16 []) with mem := [] }).die.working = true :=
  ⟨by decide, by decide, by decide, by decide, by decide, by decide⟩

/-- Resets: each confirmation, on the lead and on another die, a running die in no reset and in one; the request pin; BBK lost; and the boot. -/
theorem witness_Resets :
    (∀ c ∈ [0, 2, 3, 4], let d := { live with clk := { live.clk with resetClass := c } }
      Settled (st d) ∧ d.clk.resetClass = c ∧ d.tmp.lockdown = false ∧ d.clk.phase ≠ .stopped ∧ d.get .RST_PWR_REQ_ASSERTED = 0) ∧
    (0xC3 % 256 = 0xC3 ∧ (member 1).isLead = false ∧ live.size = 1 ∧ (live.set .RST_PWR_REQ_ASSERTED 1).get .RST_PWR_REQ_ASSERTED ≠ 0) ∧
    (let d := { stocked 32 live with key := { live.key with bbk := none, nk := some (zeros 32) } }
     d.key.bbk = none ∧ d.key.nk.isSome = true ∧ d.clk.booted = true ∧ 32 ≤ d.rng.feBytes) ∧
    (live.mayBoot = false ∧ ∀ c ∈ [2, 3, 4], ({ live with clk := { live.clk with booted := false, resetClass := c } }).mayBoot = true) ∧
    ({ live with clk := { live.clk with phase := .stopped } }).clk.phase = .stopped := ⟨by decide, by decide, by decide, by decide, by decide⟩

/-- Power: at the end of a millisecond an estimate above the cap and one below it, with a rate at its greatest and one at its least. -/
theorem witness_Power_governor :
    (∀ x ∈ [(18000000, false), (18000001 * 100000, true)], let d0 := withRegs [(.PWR_OPPOINT_CAP, 0, 0, 180)] live
      let d := { d0 with clk := { d0.clk with powerCount := 999, powerSum := x.1, rates := [256, 1, 256] } }
      999 ≤ d.clk.powerCount ∧ decide (d.effectiveCap < d.clk.powerSum / 100000) = x.2 ∧ 1 ≤ d.clk.rates.getD 1 256 ∧ d.clk.rates.getD 0 256 ≤ 256) ∧
    live.clk.rates.getD 2 256 = 256 := by decide
/-! ## Witnesses: the recorder, registers and whole steps -/

/-- A die with staged records of the triggers `l`, in places from 0 on. -/
def staged (l : List Nat) (frozen : Bool) : Die :=
  { live with evr := { live.evr with frozen, staging := l.mapIdx fun i t => { place := i, trigger := t, record := zeros 252 } } }

/-- The sampling ring enabled, with `n` entries of 64 in it. -/
def pmcDie (n : Nat) : Die := withRegs [(.PMC_CTL_ENABLE, 0, 0, 1), (.PMC_RING_TAIL_INDEX, 0, 0, n)] live

/-- Recorder: an entry to write, none for a brown-out or with nothing staged, a freeze, and a ring with room and full. -/
theorem witness_Recorder :
    (Settled (st (staged [0x0101] false)) ∧ (staged [0x0101] false).get .TMP_STATUS_BROWNOUT = 0 ∧ (staged [0x0101] false).nextStaged.isSome = true ∧
      (staged [0x0101, 0x0A01] true).nextStaged.map Staged.trigger = some 0x0A01 ∧ (staged [0x0101] true).nextStaged = none ∧
      (live.set .TMP_STATUS_BROWNOUT 1).get .TMP_STATUS_BROWNOUT ≠ 0 ∧ (staged [] true).evr.frozen = true ∧ live.evr.frozen = false) ∧
    (live.get .PMC_CTL_ENABLE = 0 ∧ ∀ n ∈ [63, 64], let d := pmcDie n
      Settled (st d) ∧ d.get .PMC_CTL_ENABLE ≠ 0 ∧ d.clk.booted = true ∧
        (2 ^ clamp 6 16 (d.get .PMC_RING_CTL_SIZE_LOG2) ≤ idxSub (d.get .PMC_RING_TAIL_INDEX) (d.get .PMC_RING_HEAD_INDEX) ↔ n = 64) ∧
        d.dmaOk (d.tenantOf 0) (63 * 512) 512 true = true) := ⟨by decide, by decide⟩

/-- Recorder: a write that no step, one step and two steps of are done, also in a brown-out, and a freeze just before and just after its end. -/
theorem witness_Recorder_steps :
    (∀ done ∈ [0, 1], let x : Staged := { place := 0, trigger := 0x0101, record := zeros 252 }
      let d := { (staged [0x0101] false).set .TMP_STATUS_BROWNOUT 1 with evr := { (staged [0x0101] false).evr with writing := some (x, done) } }
      d.evr.writing = some (x, done) ∧ Settled (st d) ∧ done < min 2 2 ∧ d.evr.writing ≠ none) ∧
    (∀ y ∈ [(999, false), (1000, true)], let d := { staged [] true with nowMs := y.1 }
      d.evr.frozen = true ∧ decide (d.evr.freezeMs + 1000 ≤ d.nowMs) = y.2) := by decide

/-- ClassRecords: class P at the ends of its codes, a general trigger, and the FIFO empty, with its general places taken, and full. -/
theorem witness_ClassRecords :
    (∀ x ∈ [0x0A01, 0x0A17, 0x0A20, 0x0C00, 0x0CFF], isClassP x = true) ∧ (∀ x ∈ [0x0A00, 0x0A18, 0x0A1F, 0x0A21, 0x0BFF, 0x0D00], isClassP x = false) ∧
    (∀ n ∈ [0, 28, 32], (∀ p ∈ List.range n, ∃ y ∈ (staged (List.replicate n 0x0101) false).evr.staging, y.place = p) ∧
      ∀ y ∈ (staged (List.replicate n 0x0101) false).evr.staging, y.place < n) := ⟨by decide, by decide, by decide⟩

/-- RegisterWrites: a field of each access code; accesses of no legal size; and an RW field that a 4-byte write reaches. -/
theorem witness_RegisterWrites :
    (Fld.HLK_CTL_MAX_RATE.info.acc = .rw ∧ Fld.HLK_CTL_MAX_RATE.info.own = false ∧ live.writeIgnored .HLK_CTL_MAX_RATE 0 0 1 = false ∧
      Fld.RNG_EVENT_HEALTH_FAIL.info.acc = .w1c ∧ Fld.RNG_EVENT_HEALTH_FAIL.info.own = false ∧ Fld.HLK_STATUS_LINK_UP.info.acc = .ro) ∧
    (Settled (st live) ∧ ¬ (2 = 4 ∧ 0 % 4 = 0) ∧ ¬ (2 = 8 ∧ 0 % 8 = 0) ∧ ¬ (4 = 4 ∧ 2 % 4 = 0)) ∧
    (Fld.HLK_CTL_MAX_RATE.info.base % 4 = 0 ∧ Fld.HLK_CTL_MAX_RATE.info.base < 0x1000000 ∧
      Fld.HLK_CTL_MAX_RATE.locate false 0 Fld.HLK_CTL_MAX_RATE.info.base = some (0, 0, false) ∧
      Fld.HLK_CTL_MAX_RATE.info.lo + Fld.HLK_CTL_MAX_RATE.width ≤ 32) ∧
    (∀ (d : Die) (x : Nat), d.writeIgnored .HLK_CTL_MAX_RATE 0 0 x = false) := ⟨by decide, by decide, by decide, fun _ _ => rfl⟩

/-- MemoryCanonicalKept: the state after reset, and one with memory. -/
theorem witness_MemoryCanonicalKept :
    Canonical State.reset ∧ Canonical { st live with mem := memAt 4096 [1, 0, 2], pending := [.tuplePublish] } := by decide

/-- OtpOnlyGains: a step of a die whose codeword has a bit of SCRAP set. -/
theorem witness_OtpOnlyGains :
    let s : State := { State.reset with otp := State.reset.otp.addCode (2 ^ 56), pending := [.blogAck] }
    (∃ t, step s = .next t) ∧ bits s.otp.voted 63 56 ≠ 0 := ⟨⟨_, rfl⟩, by decide⟩

/-- StepRunsFront: with two commands waiting, the first of them runs. -/
theorem test_step_takes_front : ∀ s : State, step { s with pending := [.blogAck, .freezeSet] } = exec .blogAck { s with pending := [.freezeSet] } :=
  fun _ => rfl

end Sys2Proof.Tests
end

namespace Sys2Proof.Proofs

open Sys2Proof.Machine Sys2Proof.Laws

/-! ## The path of a ring message (R80, R314, R316) -/

/-- The two ways around a ring of `n` positions, between two different ones, are together once around it. -/
theorem ways_around_add {n p q : Nat} (hp : p < n) (hq : q < n) (h : q ≠ p) :
    (q + n - p) % n + (p + n - q) % n = n := by
  have forward {a b : Nat} (hab : a < b) (hb : b < n) : (b + n - a) % n = b - a := by
    rw [show b + n - a = b - a + n by omega, Nat.add_mod_right, Nat.mod_eq_of_lt (by omega)]
  have across {a b : Nat} (hab : a < b) (hb : b < n) : (a + n - b) % n = a + n - b :=
    Nat.mod_eq_of_lt (by omega)
  obtain hlt | hlt := Nat.lt_or_gt_of_ne h
  · rw [across hlt hp, forward hlt hp]; omega
  · rw [forward hlt hq, across hlt hq]; omega

/-- The model compares the way along rising positions with the rest of the ring, which is the way along falling ones (R80). -/
theorem byA_iff {d : Die} {q : Nat} (hp : d.pos < d.size) (hq : q < d.size) (h : q ≠ d.pos) :
    d.byA q = true ↔ (q + d.size - d.pos) % d.size ≤ (d.pos + d.size - q) % d.size := by
  have hadd := ways_around_add hp hq h
  rw [Die.byA, decide_eq_true_iff]
  omega

/-- With both links up, a message to one position takes one link: ring A's exactly when that way is chosen. -/
theorem linksFor_some_of_up {d : Die} (hA : d.upA = true) (hB : d.upB = true) (q : Nat) :
    d.linksFor (some q) = [!d.byA q] := by
  simp [Die.linksFor, hA, hB]

/-- A message with a link to take leaves once, and nothing else leaves with it. -/
theorem sendRing_out {d : Die} {dest : Option Nat} (h : d.linksFor dest ≠ []) (kind : RingKind) (body : Bytes) :
    (d.sendRing kind dest body).out = .ring { kind, dest, links := d.linksFor dest, body } :: d.out := by
  have hne : (d.linksFor dest).isEmpty = false := List.isEmpty_eq_false_iff.mpr h
  simp only [Die.sendRing, hne, Bool.false_eq_true, if_false]
  rw [foldl_frame _ Die.out (fun d b => onLink_out d b _)]
  rfl

/-- With both links up, the one message to position `q` carries the link of the chosen direction. -/
theorem sendRing_out_of_up {d : Die} (hA : d.upA = true) (hB : d.upB = true) (q : Nat) (kind : RingKind) (body : Bytes) :
    (d.sendRing kind (some q) body).out = .ring { kind, dest := some q, links := [!d.byA q], body } :: d.out := by
  have hlinks := linksFor_some_of_up hA hB q
  rw [sendRing_out (by simp [hlinks]), hlinks]

/-- Settles O44: the ways along rising and falling positions add up to the ensemble size, so the model's test for ring A
compares the two. -/
theorem shorterWay : Obligations.ShorterWay := by
  intro d q kind body hq hp hne hA hB alongA alongB
  have hway : d.byA q = true ↔ alongA ≤ alongB := byA_iff hp hq hne
  rw [sendRing_out_of_up hA hB]
  constructor
  · intro hle
    rw [hway.mpr hle, Bool.not_true]
  · intro hlt
    rw [Bool.eq_false_iff.mpr (mt hway.mp (Nat.not_le.mpr hlt)), Bool.not_false]

end Sys2Proof.Proofs

namespace Sys2Proof.Proofs

open Sys2Proof.Machine Sys2Proof.Laws Sys2Proof.Safety

/-! ## The codeword (R416, R417) -/

/-- A codeword whose TEST field is programmed: `n` toggles made, and the fields from PROV up as the number `u`. -/
def codeword (n u : Nat) : Nat := 0x5A + (2 ^ n - 1) * 2 ^ 8 + u * 2 ^ 32

/-! The forms of R417, from Test-locked or Test-unlocked on, as codewords. -/

theorem test_codeword (n : Nat) : 0x5A + (2 ^ n - 1) * 2 ^ 8 = codeword n 0 := by simp only [codeword]; omega

theorem prov_codeword (n : Nat) : codeword n 0 + 0x96 * 2 ^ 32 = codeword n 0x96 := by simp only [codeword]; omega

theorem mission_codeword (n : Nat) : codeword n 0 + (0x96 * 2 ^ 32 + 0x69 * 2 ^ 40) = codeword n 0x6996 := by
  simp only [codeword]; omega

theorem return_codeword (n : Nat) :
    codeword n 0 + (0x96 * 2 ^ 32 + 0x69 * 2 ^ 40 + 0xC3 * 2 ^ 48) = codeword n 0xC36996 := by
  simp only [codeword]; omega

/-- The TOGGLE field holds `n` exactly when its `n` lowest bits alone are set. -/
theorem togglesOf_eq_some_iff {v n : Nat} : togglesOf v = some n ↔ n ≤ 16 ∧ bits v 23 8 = 2 ^ n - 1 := by
  have hinj {k : Nat} (h : 2 ^ n - 1 = 2 ^ k - 1) : n = k := by
    have := Nat.two_pow_pos n
    have := Nat.two_pow_pos k
    exact Nat.pow_right_injective (le_refl 2) (show 2 ^ n = 2 ^ k by omega)
  simp only [togglesOf, List.find?_range_eq_some, beq_iff_eq, List.mem_range, Bool.not_eq_true', beq_eq_false_iff_ne]
  constructor
  · rintro ⟨hbits, hn, -⟩
    exact ⟨by omega, hbits⟩
  · rintro ⟨hn, hbits⟩
    exact ⟨hbits, by omega, fun k hk h => by have := hinj (hbits.symm.trans h); omega⟩

/-- A bit in the SCRAP field makes the state Scrap, whatever the other fields hold. -/
theorem lcsOf_of_scrap {v : Nat} (h : bits v 63 56 ≠ 0) : lcsOf v = (6, false) := by
  simp [lcsOf, h]

theorem lcsOf_zero : lcsOf 0 = (0, false) := by
  simp [lcsOf, bits]

/-- The state of a codeword with its TEST field programmed, from its toggles and its upper fields. -/
theorem lcsOf_codeword {n u : Nat} (hn : n ≤ 16) (hu : u < 2 ^ 24) :
    lcsOf (codeword n u) =
      if u = 0 then (if n % 2 = 0 then 1 else 2, false)
      else if n % 2 = 1 then (6, true)
      else if u = 0x96 then (3, false)
      else if u = 0x6996 then (4, false)
      else if u = 0xC36996 then (5, false)
      else (6, true) := by
  have htog : 2 ^ n - 1 < 2 ^ 16 := by
    have := Nat.pow_le_pow_right (n := 2) (by decide) hn
    omega
  have htoggles : togglesOf (codeword n u) = some n :=
    togglesOf_eq_some_iff.mpr ⟨hn, by simp only [bits, codeword]; omega⟩
  have hscrap : bits (codeword n u) 63 56 = 0 := by simp only [bits, codeword]; omega
  have hne : codeword n u ≠ 0 := by simp only [codeword]; omega
  have htest : bits (codeword n u) 7 0 = 0x5A := by simp only [bits, codeword]; omega
  have hgap : bits (codeword n u) 31 24 = 0 := by simp only [bits, codeword]; omega
  have hupper (r m p : Nat) (hm : m < 2 ^ 8) (hp : p < 2 ^ 8) :
      (bits (codeword n u) 55 48, bits (codeword n u) 47 40, bits (codeword n u) 39 32) = (r, m, p) ↔
        u = r * 2 ^ 16 + m * 2 ^ 8 + p := by
    simp only [bits, codeword, Prod.mk.injEq]
    omega
  simp [lcsOf, hscrap, hne, htoggles, htest, hgap, hupper]

/-- Only a codeword with its TEST field programmed is valid, beside those of Blank and Scrap. -/
theorem exists_codeword_of_valid {v : Nat} (hv : v < 2 ^ 64) (hscrap : bits v 63 56 = 0) (hne : v ≠ 0)
    (hvalid : lcsOf v ≠ (6, true)) : ∃ n u, n ≤ 16 ∧ u < 2 ^ 24 ∧ v = codeword n u := by
  cases htog : togglesOf v with
  | none => simp [lcsOf, hscrap, hne, htog] at hvalid
  | some n =>
    obtain ⟨hn, hbits⟩ := togglesOf_eq_some_iff.mp htog
    obtain ⟨htest, hgap⟩ : bits v 7 0 = 0x5A ∧ bits v 31 24 = 0 := by
      by_contra hbad
      exact hvalid (by simp [lcsOf, hscrap, hne, htog]; tauto)
    simp only [bits] at hscrap hbits htest hgap
    exact ⟨n, v / 2 ^ 32, hn, by omega, by rw [codeword]; omega⟩

/-- A state's number fits its register field. -/
theorem lcsOf_fst_lt (v : Nat) : (lcsOf v).1 < 8 := by
  simp only [lcsOf]
  repeat' split
  all_goals decide

/-! ## What LCS_STATE and LCS_STATUS show of the OTP (R417, R429) -/

@[simp] theorem showOtp_state (o : Otp) (d : Die) : (d.showOtp o).get .LCS_STATE_STATE = (lcsOf o.voted).1 := by
  have hwidth : (Fld.LCS_STATE_STATE).width = 3 := rfl
  simp [Die.showOtp, hwidth, Nat.mod_eq_of_lt (lcsOf_fst_lt _)]

@[simp] theorem showOtp_invalidCode (o : Otp) (d : Die) :
    (d.showOtp o).get .LCS_STATUS_INVALID_CODE = ofBool (lcsOf o.voted).2 := by
  have hwidth : (Fld.LCS_STATUS_INVALID_CODE).width = 1 := rfl
  have hbit (b : Bool) : ofBool b % 2 ^ 1 = ofBool b := by cases b <;> rfl
  simp only [Die.showOtp, get_set, reduceCtorEq, if_false, if_true, hwidth, hbit]

/-! ## Writes of the OTP (R416, R421, R422) -/

/-- Bits set beside others leave those as they were. -/
theorem and_or_absorb (a b : Nat) : a &&& (a ||| b) = a := by
  apply Nat.eq_of_testBit_eq
  intro i
  rw [Nat.testBit_and, Nat.testBit_or]
  cases a.testBit i <;> rfl

/-- Bits set beside others are set. -/
theorem or_and_absorb_right (a b : Nat) : (a ||| b) &&& b = b := by
  rw [Nat.and_comm, Nat.or_comm, and_or_absorb]

/-- What is added to all three copies is added to their majority, and nothing else is. -/
theorem voted_addCode (o : Otp) (v : Nat) : (o.addCode v).voted = o.voted ||| v := by
  apply Nat.eq_of_testBit_eq
  intro i
  simp only [Otp.addCode, Otp.voted, Nat.testBit_or, Nat.testBit_and]
  cases v.testBit i <;> simp

theorem otpKept_refl (o : Otp) : OtpKept o o := by simp [OtpKept]

theorem otpKept_trans {o p q : Otp} (h : OtpKept o p) (k : OtpKept p q) : OtpKept o q := by
  obtain ⟨h0, h1, h2, hjournal, hserial, hsettle⟩ := h
  obtain ⟨k0, k1, k2, kjournal, kserial, ksettle⟩ := k
  have hbits {a b c : Nat} (hab : a &&& b = a) (hbc : b &&& c = b) : a &&& c = a := by
    rw [← hab, Nat.and_assoc, hbc]
  exact ⟨hbits h0 k0, hbits h1 k1, hbits h2 k2, hjournal.trans kjournal, hserial.trans kserial, hsettle.trans ksettle⟩

/-- Setting codeword bits unsets none. -/
theorem otpKept_addCode (o : Otp) (v : Nat) : OtpKept o (o.addCode v) := by
  simp [OtpKept, Otp.addCode, and_or_absorb]

/-- A change of the journal's last entry adds and drops none. -/
theorem otpKept_mapLast (o : Otp) (f : JournalEntry → JournalEntry) : OtpKept o (o.mapLast f) := by
  unfold Otp.mapLast
  split
  next j hlast =>
    obtain ⟨js, hjs⟩ := List.getLast?_eq_some_iff.mp hlast
    simp [OtpKept, hjs]
  next => exact otpKept_refl o

/-- A step of a transition but the last, which writes the codeword, programs at most the seed and the tokens (R422). -/
theorem transitionStep_otp {target k : Nat} (h : k + 1 ≠ transitionSteps target) (x : Otp × Die) :
    ∃ seed tokens, (transitionStep target k x).1 = { x.1 with seed, tokens } := by
  simp only [transitionStep, if_neg h]
  repeat' split
  all_goals exact ⟨_, _, rfl⟩

theorem otpKept_transitionStep (target k : Nat) (x : Otp × Die) : OtpKept x.1 (transitionStep target k x).1 := by
  by_cases hlast : k + 1 = transitionSteps target
  · simp only [transitionStep, if_pos hlast]
    exact otpKept_addCode _ _
  · obtain ⟨seed, tokens, heq⟩ := transitionStep_otp hlast x
    rw [heq]
    exact otpKept_refl x.1

/-- A transition runs steps and marks alone, each of which keeps what the OTP holds. -/
theorem otpKept_runTransition (mem : List Host.Cell) (resumed : Bool) (x : Otp × Die) :
    OtpKept x.1 (runTransition mem resumed x).1 := by
  unfold runTransition
  split
  next => exact otpKept_refl x.1
  next =>
    refine List.foldlRecOn _ _ (motive := fun y : Otp × Die => OtpKept x.1 y.1) (otpKept_refl x.1) fun y hy k _ => ?_
    exact otpKept_trans hy (otpKept_trans (otpKept_transitionStep _ k y) (otpKept_mapLast _ _))

/-! ## The statement -/

/-- Settles O43: from Test-locked on, each form of R417 is `codeword n u` for some upper fields `u`, whose decoding `lcsOf_codeword`
gives, and beside Blank and Scrap no other value is valid; a transition's steps and marks each keep what the OTP holds. -/
theorem votedDecode : Obligations.VotedDecode := by
  simp only [Obligations.VotedDecode, test_codeword, prov_codeword, mission_codeword, return_codeword]
  refine ⟨fun v _ h => lcsOf_of_scrap h, lcsOf_zero, fun n hn => ?_, fun v hv hscrap hne hforms hupper => ?_,
    fun o d => ⟨showOtp_state o d, showOtp_invalidCode o d⟩, otpKept_runTransition, fun o v => ?_⟩
  · exact ⟨fun heven => by simp [lcsOf_codeword hn, heven], fun hodd => by simp [lcsOf_codeword hn, hodd]⟩
  · by_contra hvalid
    obtain ⟨n, u, hn, hu, rfl⟩ := exists_codeword_of_valid hv hscrap hne hvalid
    have htest : u ≠ 0 := ne_of_apply_ne _ (hforms n hn)
    refine hvalid ?_
    obtain heven | hodd := Nat.mod_two_eq_zero_or_one n
    · obtain ⟨hprov, hmission, hreturn⟩ := hupper n hn heven
      simp [lcsOf_codeword hn hu, htest, heven, ne_of_apply_ne _ hprov, ne_of_apply_ne _ hmission, ne_of_apply_ne _ hreturn]
    · simp [lcsOf_codeword hn hu, htest, hodd]
  · rw [voted_addCode]
    exact ⟨or_and_absorb_right _ v, or_and_absorb_right _ v, or_and_absorb_right _ v, or_and_absorb_right _ v⟩

end Sys2Proof.Proofs

namespace Sys2Proof.Proofs

open Sys2Proof.Machine Sys2Proof.Laws

/-! ## The classes of triggers (R431) -/

theorem isClassP_iff (x : Nat) :
    isClassP x = true ↔ (0x0A01 ≤ x ∧ x ≤ 0x0A17) ∨ x = 0x0A20 ∨ (0x0C00 ≤ x ∧ x ≤ 0x0CFF) := by
  have hgroup : x / 256 = 0x0C ↔ 0x0C00 ≤ x ∧ x ≤ 0x0CFF := by omega
  simp only [isClassP, Bool.or_eq_true, Bool.and_eq_true, decide_eq_true_eq, beq_iff_eq, hgroup, or_assoc]

theorem triggerEnabled_of_isClassP {d : Die} {x : Nat} (h : isClassP x = true) : d.triggerEnabled x = true := by
  rw [Die.triggerEnabled, h, Bool.true_or]

/-! ## The places of the staging FIFO (R436) -/

/-- A staged entry holds place `p`. -/
def PlaceTaken (d : Die) (p : Nat) : Prop := ∃ y ∈ d.evr.staging, y.place = p

/-- How many places, from 0 up, a trigger of the class may use: class P those from 28 on too. -/
def placesOf (classP : Bool) : Nat := if classP then 32 else 28

/-- The search of the general places, then of the reserved ones, is one search in rising order. -/
theorem freePlace_eq_find? (d : Die) (classP : Bool) :
    d.freePlace classP = (List.range (placesOf classP)).find? fun p => !d.evr.staging.any fun y => y.place == p := by
  cases classP
  case false =>
    simp only [Die.freePlace, placesOf, Bool.false_eq_true, if_false]
    split <;> rename_i h <;> rw [h]
  case true =>
    have hrange : List.range 32 = List.range 28 ++ [28, 29, 30, 31] := by decide
    simp only [Die.freePlace, placesOf, if_true, hrange, List.find?_append]
    split <;> rename_i h <;> rw [h] <;> rfl

theorem place_free_iff {d : Die} {p : Nat} : (!d.evr.staging.any fun y => y.place == p) = true ↔ ¬ PlaceTaken d p := by
  simp [PlaceTaken]

/-- The place found is one that the class may use, and it is free. -/
theorem lt_and_free_of_freePlace {d : Die} {classP : Bool} {p : Nat} (h : d.freePlace classP = some p) :
    p < placesOf classP ∧ ¬ PlaceTaken d p := by
  rw [freePlace_eq_find?, List.find?_range_eq_some] at h
  obtain ⟨hfree, hmem, -⟩ := h
  exact ⟨List.mem_range.mp hmem, place_free_iff.mp hfree⟩

/-- No place is found exactly when all that the class may use are taken. -/
theorem freePlace_eq_none_iff {d : Die} {classP : Bool} :
    d.freePlace classP = none ↔ ∀ p < placesOf classP, PlaceTaken d p := by
  simp only [freePlace_eq_find?, List.find?_eq_none, List.mem_range, place_free_iff, not_not]

/-! ## What a report does to the recorder (R436) -/

/-- The entry that a report stages at place `p`. -/
def stagedEntry (e : Env) (d : Die) (r : Report) (p : Nat) : Staged :=
  { place := p, trigger := r.trigger, record := d.stageBytes e r p (tget d.evr.supp r.trigger) }

/-- What is written at a key reads back. -/
theorem tget_tput_same (m : List (Nat × Nat)) (k v : Nat) : tget (tput m k v) k = v := sget_sput_same _ m k v

/-- A class P report is neither dropped as disabled nor coalesced: without a place it is lost, and the staging stays. -/
theorem report_evr_of_classP_full {d : Die} {e : Env} {r : Report} (h : isClassP r.trigger = true)
    (hfull : d.freePlace true = none) : (d.report e r).evr = d.evr := by
  simp [Die.report, triggerEnabled_of_isClassP h, h, hfull]

/-- With a place, a class P report stages an entry there, and its trigger's count of coalesced reports starts again. -/
theorem report_evr_of_classP_free {d : Die} {e : Env} {r : Report} {p : Nat} (h : isClassP r.trigger = true)
    (hplace : d.freePlace true = some p) :
    (d.report e r).evr =
      { d.evr with staging := d.evr.staging ++ [stagedEntry e d r p], supp := tput d.evr.supp r.trigger 0 } := by
  simp [Die.report, triggerEnabled_of_isClassP h, h, hplace, stagedEntry]

/-- A report of either class stages nothing, or one entry at the place found for its class. -/
theorem report_staging (d : Die) (e : Env) (r : Report) :
    (d.report e r).evr.staging = d.evr.staging ∨ ∃ p, d.freePlace (isClassP r.trigger) = some p ∧
      (d.report e r).evr.staging = d.evr.staging ++ [stagedEntry e d r p] := by
  unfold Die.report
  split
  case isTrue => exact .inl rfl
  split
  case isTrue => exact .inl rfl
  cases d.freePlace (isClassP r.trigger) with
  | none => exact .inl (by simp)
  | some p => exact .inr ⟨p, rfl, rfl⟩

/-! ## The statement -/

/-- Settles O55: a class P report goes by the search of all 32 places alone, and a general one stages only at a place that the
search of the first 28 finds. -/
theorem classRecords : Obligations.ClassRecords := by
  refine ⟨isClassP_iff, fun e d r => ⟨fun hP => ⟨triggerEnabled_of_isClassP hP, ?_, ?_⟩, fun hgeneral => ?_⟩⟩
  · rintro ⟨q, hq, hfree⟩
    obtain ⟨p, hp⟩ : ∃ p, d.freePlace true = some p := Option.ne_none_iff_exists'.mp fun hnone =>
      hfree (freePlace_eq_none_iff.mp hnone q hq)
    obtain ⟨hlt, hfreeP⟩ := lt_and_free_of_freePlace hp
    rw [report_evr_of_classP_free hP hp]
    exact ⟨stagedEntry e d r p, rfl, hlt, hfreeP, rfl, tget_tput_same d.evr.supp r.trigger 0⟩
  · intro hfull
    rw [report_evr_of_classP_full hP (freePlace_eq_none_iff.mpr hfull)]
    exact ⟨rfl, rfl⟩
  · obtain hsame | ⟨p, hp, hstaged⟩ := report_staging d e r
    · exact .inl hsame
    · rw [hgeneral] at hp
      obtain ⟨hlt, hfree⟩ := lt_and_free_of_freePlace hp
      exact .inr ⟨stagedEntry e d r p, rfl, hlt, hfree, hstaged⟩

end Sys2Proof.Proofs
